-- ==== Sys2Proof/Word.lean ====
section
/-! DEFINITION. The words of the block: the widths that 00_scope.md R5 and the chapters give. -/

namespace Sys2Proof

/-- One byte. -/
abbrev Byte := BitVec 8
/-- The native data word, 48 bits (R5). -/
abbrev Word := BitVec 48
/-- A value of TICK_NOW (R20). -/
abbrev Tick := BitVec 48
/-- An accumulator, 104 bits (R40). -/
abbrev Acc := BitVec 104
/-- A location of the register port (R5). -/
abbrev Reg32 := BitVec 32
/-- A microword, 160 bits (R77). -/
abbrev MWord := BitVec 160
/-- A microword as the control store holds it: parity in [169:160], the word in [159:0] (R78). -/
abbrev PWord := BitVec 170
/-- A control-store address (UPC), 14 bits (R44). -/
abbrev CsAddr := BitVec 14
/-- A 64-byte beat of a host port, byte i in bits [8i+7:8i] (R514). -/
abbrev Beat := BitVec 512
/-- A 64-byte conjunction flit, byte i in bits [8i+7:8i] (R352, R516). -/
abbrev Flit := BitVec 512
/-- An engine ID: section [8:6], cluster in section [5:3], engine in cluster [2:0] (R14). -/
abbrev EngId := BitVec 9
/-- A context ID within its engine (R14). -/
abbrev CtxId := BitVec 4
/-- A context number: engine ID [12:4], context ID [3:0] (R14). -/
abbrev CtxNo := BitVec 13
/-- A cluster ID, which is engine ID [8:3] (R14). -/
abbrev CluId := BitVec 6
/-- A section number (R14). -/
abbrev SecId := BitVec 3
/-- A channel number: home engine [15:7], slot [6:0] (R56). -/
abbrev Chan := BitVec 16
/-- A tenant tag (R69). -/
abbrev Tenant := BitVec 12

end Sys2Proof
end

