-- ==== Sys2Proof/Syntax.lean ====
section
/-! DEFINITION. The commands of the block: one constructor of `Instr` per row of spec/opcode_table.json.
A row is one indivisible step of the block (95_what_each_step_holds.md). Its operands name the part it acts on and
carry whatever arrives from outside the block in that step (data, a pin level, an upset). -/

namespace Sys2Proof

/-- The origins of R28 that can make a register access. -/
inductive Origin where
  | ireg | synCore | hreg | dap
  | ctx (e : EngId) (k : CtxId)
  deriving DecidableEq, Repr

/-- What SECDED finds in a line that it reads (R242): one wrong bit, two wrong bits. -/
inductive LineErr where
  | ce | ue
  deriving DecidableEq, Repr

/-- The errors that an access meets, each with the place of its line among those that the access reads (an operand of the
model's, log entry 76). -/
structure Ecc where
  errs : List (Nat × LineErr)
  deriving DecidableEq, Repr

/-- No error; and one in the first line. -/
def Ecc.ok : Ecc := { errs := [] }
def Ecc.ce : Ecc := { errs := [(0, .ce)] }
def Ecc.ue : Ecc := { errs := [(0, .ue)] }
/-- The errors of the lines behind the first n. -/
def Ecc.from (k : Ecc) (n : Nat) : Ecc := { errs := (k.errs.filter (fun x => decide (n ≤ x.1))).map (fun x => (x.1 - n, x.2)) }

/-- What an access that may merge is about (a tag, a context, a beat), and what SECDED finds on the line its
merge reads (R242; an operand of the model's, log entry 76). -/
structure Merge (α : Type) where
  of : α
  ecc : Ecc
  deriving DecidableEq, Repr

/-- The bytes that a host-memory fetch of an image or package returned, or the byte offset at which a host
answer failed (R395 HOSTERR). -/
inductive Fetched where
  | bytes (b : List Byte)
  | failed (off : Nat)
  deriving DecidableEq, Repr

/-- The side of RING_MIRROR that the row shows (R377, R403). On the owner, the answer of the partner's Syntax core: the copy
ring it reserved, a refusal for want of a ring or entries, or none within the bound. On the partner, what an owner's Syntax
core asks for: a copy of its ring, of which it gives the record and the channel set for a takeover; or the release of a copy.
How the two cores speak to each other is not stated (log entry 45). -/
inductive MirrorAnswer where
  | reserved (copy : BitVec 12)
  | noResource
  | none
  | reserve (owner : BitVec 9) (ring : BitVec 12) (record : List Byte) (pchBase : Chan)
  | release (owner : BitVec 9) (copy : BitVec 12)
  deriving DecidableEq, Repr

/-- An Affix response (R70, R521). -/
structure AfxResponse where
  eng : BitVec 3
  ctx : CtxId
  tag : BitVec 5
  gen : BitVec 2
  result : Word
  flag : Bool
  err : Bool
  deriving DecidableEq, Repr

/-- The context registers whose register-port writes R76 restricts. -/
inductive CtxReg where
  | upc | stat | tenant | stkLo | stkHi
  deriving DecidableEq, Repr

/-- The shadow registers of a DMA channel (R285). -/
inductive DmaReg where
  | srcLo | srcHi | dstLo | dstHi | count | cfg | tag | jrefLo | jrefHi
  deriving DecidableEq, Repr

/-- The commands: one constructor per row of the opcode table, in the table's order. -/
inductive Instr where
  /-- NEXT (R91): Sequencer operation that continues at UPC + 1. -/
  | next (e : EngId) (k : CtxId)
  /-- JUMP (R91): Sequencer operation that continues at TARGET. -/
  | jump (e : EngId) (k : CtxId)
  /-- CALL (R100): Writes a call frame and a shadow-stack entry, then continues at the target. -/
  | call (e : EngId) (k : CtxId)
  /-- RET (R101): Checks the frame header against the shadow stack, restores the saved registers and returns. -/
  | ret (e : EngId) (k : CtxId)
  /-- RETX (R165): Returns from an exception bank, after the privilege and SSP checks. -/
  | retx (e : EngId) (k : CtxId)
  /-- TRAP (R91): Raises trap number AUX8. -/
  | trap (e : EngId) (k : CtxId)
  /-- WAIT (R50): Stops the context until a condition source is true or the timeout expires. -/
  | wait (e : EngId) (k : CtxId)
  /-- AT (R53): Times the word's external effects to the target tick in SRCA. -/
  | atW (e : EngId) (k : CtxId)
  /-- DISPATCH (R93): Jumps to TARGET plus a scaled index taken from SRCA. -/
  | dispatch (e : EngId) (k : CtxId)
  /-- LOOP (R94): Decrements LC and branches to TARGET while LC is not 0. -/
  | loop (e : EngId) (k : CtxId)
  /-- YIELD (R55): Stops the context until a latch admitted by the mask is set. -/
  | yield (e : EngId) (k : CtxId)
  /-- PARK (R61): Requests that the channel be spilled, with a wake tick and a wake mask. -/
  | park (e : EngId) (k : CtxId)
  /-- SYNC (R95): Arrives at a cluster barrier and waits for its release. -/
  | sync (e : EngId) (k : CtxId)
  /-- FENCE (R96): Holds the context until its earlier accesses of the selected classes are complete. -/
  | fence (e : EngId) (k : CtxId)
  /-- HALT (R465): Microword that halts the context or engine, or raises DEBUG, as the debug mode gives. -/
  | halt (e : EngId) (k : CtxId)
  /-- MOV (R104): ALU move of A to DST. -/
  | mov (e : EngId) (k : CtxId)
  /-- ADD (R117): ALU addition of A and B. -/
  | add (e : EngId) (k : CtxId)
  /-- ADC (R118): ALU addition of A, B and carry. -/
  | adc (e : EngId) (k : CtxId)
  /-- SUB (R117): ALU subtraction of B from A. -/
  | sub (e : EngId) (k : CtxId)
  /-- SBC (R118): ALU subtraction of B from A with borrow. -/
  | sbc (e : EngId) (k : CtxId)
  /-- CMP (R116): Compares A with B and sets flags only. -/
  | cmp (e : EngId) (k : CtxId)
  /-- NEG (R121): ALU negation of A. -/
  | neg (e : EngId) (k : CtxId)
  /-- ABS (R121): ALU absolute value of A. -/
  | abs (e : EngId) (k : CtxId)
  /-- ADDS_SUBS_NEGS_ABSS (R119): Saturating add, subtract, negate or absolute value. -/
  | addsSubsNegsAbss (e : EngId) (k : CtxId)
  /-- MIN_MAX (R123): Signed minimum or maximum of A and B. -/
  | minMax (e : EngId) (k : CtxId)
  /-- MINU_MAXU (R123): Unsigned minimum or maximum of A and B. -/
  | minuMaxu (e : EngId) (k : CtxId)
  /-- IDX (R123): Adds B multiplied by a scale to A. -/
  | idx (e : EngId) (k : CtxId)
  /-- AND_OR_XOR_ANDN (R104): Bitwise logical operation on A and B. -/
  | andOrXorAndn (e : EngId) (k : CtxId)
  /-- NOT (R104): Bitwise inversion of A. -/
  | not (e : EngId) (k : CtxId)
  /-- TST (R116): ANDs A with B and sets flags only. -/
  | tst (e : EngId) (k : CtxId)
  /-- SHL_SHR_SAR_ROL_ROR (R122): Shifts or rotates A by B[7:0]. -/
  | shlShrSarRolRor (e : EngId) (k : CtxId)
  /-- SHLI_SHRI_SARI_ROLI_RORI (R122): Shifts or rotates A by AUX8. -/
  | shliShriSariRoliRori (e : EngId) (k : CtxId)
  /-- CLZ (R123): Counts the leading zeros of A. -/
  | clz (e : EngId) (k : CtxId)
  /-- POPC (R123): Counts the ones in A. -/
  | popc (e : EngId) (k : CtxId)
  /-- SEXT (R123): Sign-extends A from bit AUX8[5:0]. -/
  | sext (e : EngId) (k : CtxId)
  /-- ZEXT (R123): Clears the bits of A above bit AUX8[5:0]. -/
  | zext (e : EngId) (k : CtxId)
  /-- BSWAP (R123): Reverses the byte order of A. -/
  | bswap (e : EngId) (k : CtxId)
  /-- BREV (R123): Reverses the bit order of A. -/
  | brev (e : EngId) (k : CtxId)
  /-- MUL_MULU (R124): Starts a signed or unsigned multiply into MPH:MPL. -/
  | mulMulu (e : EngId) (k : CtxId)
  /-- DIV_DIVU (R127): Claims the divider and starts a signed or unsigned divide. -/
  | divDivu (e : EngId) (k : CtxId)
  /-- MAC_MACU (R126): Starts a multiply-accumulate into an accumulator. -/
  | macMacu (e : EngId) (k : CtxId)
  /-- MSU (R126): Starts a multiply-subtract from an accumulator. -/
  | msu (e : EngId) (k : CtxId)
  /-- ACLR (R130): Clears an accumulator. -/
  | aclr (e : EngId) (k : CtxId)
  /-- AADD_ASUB (R130): Adds A to, or subtracts A from, an accumulator. -/
  | aaddAsub (e : EngId) (k : CtxId)
  /-- ASHR (R130): Shifts an accumulator right arithmetically. -/
  | ashr (e : EngId) (k : CtxId)
  /-- AHI (R130): Returns bits [95:48] of an accumulator. -/
  | ahi (e : EngId) (k : CtxId)
  /-- ASAT (R130): Returns an accumulator clipped to 48 bits. -/
  | asat (e : EngId) (k : CtxId)
  /-- CKADD (R131): Adds the three 16-bit halves of A to a checksum accumulator. -/
  | ckadd (e : EngId) (k : CtxId)
  /-- CKFOLD (R131): Folds an accumulator to 16 bits in ones' complement. -/
  | ckfold (e : EngId) (k : CtxId)
  /-- CRCB (R133): Performs one CRC-32C byte step. -/
  | crcb (e : EngId) (k : CtxId)
  /-- CRCW (R133): Performs six CRC-32C byte steps over A. -/
  | crcw (e : EngId) (k : CtxId)
  /-- CRCFIN (R133): Returns the final CRC-32C value. -/
  | crcfin (e : EngId) (k : CtxId)
  /-- AFX (R70): Affix operation that queues a request to the customer logic. -/
  | afx (e : EngId) (k : CtxId)
  /-- LD1_LD1S (R106): One-byte load. -/
  | ld1Ld1s (e : EngId) (k : CtxId)
  /-- LD2_LD2S (R106): Two-byte load. -/
  | ld2Ld2s (e : EngId) (k : CtxId)
  /-- LD4_LD4S (R106): Four-byte load, including register-window reads. -/
  | ld4Ld4s (e : EngId) (k : CtxId)
  /-- LD6 (R106): Six-byte load. -/
  | ld6 (e : EngId) (k : CtxId)
  /-- LD8_LD8S (R106): Eight-byte load into an accumulator. -/
  | ld8Ld8s (e : EngId) (k : CtxId)
  /-- LD12 (R106): Twelve-byte load into an accumulator. -/
  | ld12 (e : EngId) (k : CtxId)
  /-- ST1_ST2_ST4_ST6 (R106): Store of 1, 2, 4 or 6 bytes, including register-window writes. -/
  | st1St2St4St6 (e : EngId) (k : CtxId)
  /-- ST8_ST12 (R106): Store of 8 or 12 accumulator bytes. -/
  | st8St12 (e : EngId) (k : CtxId)
  /-- LR6 (R246): Load-reserve that takes or renews a lease. -/
  | lr6 (e : EngId) (k : CtxId)
  /-- SC6 (R247): Store-conditional that succeeds only under a live reservation. -/
  | sc6 (e : EngId) (k : CtxId)
  /-- REL (R247): Ends the context's reservation at the address. -/
  | rel (e : EngId) (k : CtxId)
  /-- MOVE (R142): Long instruction that copies bytes. -/
  | move (e : EngId) (k : CtxId)
  /-- FILL (R142): Long instruction that fills bytes with a pattern. -/
  | fill (e : EngId) (k : CtxId)
  /-- CKSUM16 (R132): Long instruction that sums a ones'-complement checksum over a range. -/
  | cksum16 (e : EngId) (k : CtxId)
  /-- CKCRC (R133): Long instruction that computes CRC-32C over a range. -/
  | ckcrc (e : EngId) (k : CtxId)
  /-- SCAN (R142): Long instruction that finds a byte value in a range. -/
  | scan (e : EngId) (k : CtxId)
  /-- PUSH (R262): Appends SRCB to a TX queue. -/
  | push (e : EngId) (k : CtxId)
  /-- POP (R262): Removes the head of an RX queue into DST. -/
  | pop (e : EngId) (k : CtxId)
  /-- PEEK (R262): Copies the head of an RX queue into DST. -/
  | peek (e : EngId) (k : CtxId)
  /-- SHO (R267): Starts or resumes a shift word out on a pin group. -/
  | sho (e : EngId) (k : CtxId)
  /-- SHI (R267): Starts or resumes a shift word in from a pin group. -/
  | shi (e : EngId) (k : CtxId)
  /-- SHX (R267): Starts or resumes a shift word out and in at once. -/
  | shx (e : EngId) (k : CtxId)
  /-- OUT (R259): Sets the selected LANE_OUT bits. -/
  | out (e : EngId) (k : CtxId)
  /-- OEN (R259): Sets the selected LANE_OEN bits. -/
  | oen (e : EngId) (k : CtxId)
  /-- IN (R259): Reads the 16 lane input levels. -/
  | inW (e : EngId) (k : CtxId)
  /-- RESETPROG (R277): Abandons a stopped or stalled shift word. -/
  | resetprog (e : EngId) (k : CtxId)
  /-- QFLUSH (R262): Empties a lane queue. -/
  | qflush (e : EngId) (k : CtxId)
  /-- CAPARM (R279): Arms the edge capture unit of a pin group. -/
  | caparm (e : EngId) (k : CtxId)
  /-- GETL (R111): Reads latches 40..63 into DST. -/
  | getl (e : EngId) (k : CtxId)
  /-- CLRL (R111): Clears the selected latches. -/
  | clrl (e : EngId) (k : CtxId)
  /-- GETEVM (R111): Reads CTX_EVMASK into DST. -/
  | getevm (e : EngId) (k : CtxId)
  /-- SETEVM (R111): Writes CTX_EVMASK. -/
  | setevm (e : EngId) (k : CtxId)
  /-- GETSTK (R111): Reads CTX_STKBASE into DST. -/
  | getstk (e : EngId) (k : CtxId)
  /-- SETSTK (R111): Writes CTX_STKBASE at system level. -/
  | setstk (e : EngId) (k : CtxId)
  /-- GETECAUSE (R111): Reads the bank's exception cause. -/
  | getecause (e : EngId) (k : CtxId)
  /-- GETEUPC (R111): Reads the bank's exception return address. -/
  | geteupc (e : EngId) (k : CtxId)
  /-- GETEINFO (R111): Reads the bank's exception information word. -/
  | geteinfo (e : EngId) (k : CtxId)
  /-- SETEUPC (R111): Writes the bank's exception return address. -/
  | seteupc (e : EngId) (k : CtxId)
  /-- GETET (R203): Reads the count of an engine timer. -/
  | getet (e : EngId) (k : CtxId)
  /-- SETETC (R203): Commits the compare value of an engine timer, which arms it and clears CMPF. -/
  | setetc (e : EngId) (k : CtxId)
  /-- MUL_PRODUCT_WRITE (R124): The multiplier writes MPH:MPL in cycle n + 8. -/
  | mulProductWrite (e : EngId) (k : CtxId)
  /-- MAC_ACCUMULATE (R126): The product of a MAC, MACU or MSU is added to its accumulator in cycle n + 8. -/
  | macAccumulate (e : EngId) (k : CtxId)
  /-- DIVIDE_RESULT (R128): The divider writes DVQ, DVR and its STAT bits and is freed. -/
  | divideResult (e : EngId)
  /-- MEMORY_LOAD_RESULT (R36): A bank response writes a load's destination and frees its tag. -/
  | memoryLoadResult (e : EngId) (tag : BitVec 5) (ecc : Ecc)
  /-- STORE_ACCEPTED (R108): A bank accepts a store or REL, and its tag is freed. -/
  | storeAccepted (e : EngId) (tag : Merge (BitVec 5))
  /-- AFFIX_REQUEST (R522): The cluster port transfers a queued Affix request to the integrator's logic. -/
  | affixRequest (c : CluId)
  /-- AFFIX_RESPONSE (R72): An Affix response writes its result, or raises AFXERR, and frees the tag. -/
  | affixResponse (c : CluId) (r : AfxResponse)
  /-- AFFIX_TIMEOUT (R73): No response within 4,096 engine cycles raises AFXTMO and advances GEN. -/
  | affixTimeout (e : EngId) (tag : BitVec 5)
  /-- LONG_STEP_END (R138): A long-instruction step is answered, and PROG.DONE advances. -/
  | longStepEnd (e : EngId) (k : CtxId) (ecc : Ecc)
  /-- CALL_FRAME_DONE (R100): The frame write of a CALL ends, and the shadow entry and SSP are set. -/
  | callFrameDone (e : EngId) (k : Merge CtxId)
  /-- RET_RESTORE_DONE (R101): The frame read of a RET ends, and the registers are restored. -/
  | retRestoreDone (e : EngId) (k : CtxId) (ecc : Ecc)
  /-- FENCE_COMPLETE (R235): The last access of a fenced class completes, and the context becomes eligible. -/
  | fenceComplete (e : EngId) (k : CtxId)
  /-- CONDITION_EVENT (R47): A stamped event sets a context latch, or a channel event table entry. -/
  | conditionEvent
  /-- WAIT_TIMEOUT (R52): The WAIT timeout expires, STAT.TMO is set and the context continues at TARGET. -/
  | waitTimeout (e : EngId) (k : CtxId)
  /-- SYNC_TIMEOUT (R95): The SYNC timeout expires, and the arrival is withdrawn. -/
  | syncTimeout (e : EngId) (k : CtxId)
  /-- AT_DUE (R54): An AT word becomes due 16 ticks before its target and takes a timed-effect entry. -/
  | atDue (e : EngId) (k : CtxId)
  /-- AT_TARGET (R53): The target tick is reached, and the timed effects are released with their stamp. -/
  | atTarget (e : EngId) (k : CtxId)
  /-- WAKEAT_REACHED (R62): A parked channel's wake tick is reached, and the channel joins the ready queue. -/
  | wakeatReached (ch : Chan)
  /-- PARK_SPILL_START (R61): The PARK conditions are met, and the spill or swap begins. -/
  | parkSpillStart (e : EngId) (k : CtxId)
  /-- CHANNEL_FILL_START (R63): A free context meets a queued channel, and a fill begins. -/
  | channelFillStart (e : EngId) (k : CtxId)
  /-- CHANNEL_SPILL_END (R63): A spill ends: latches move to the event table, and the wake conditions are tested. -/
  | channelSpillEnd (e : EngId) (k : CtxId) (ecc : Ecc)
  /-- CHANNEL_FILL_END (R63): A fill ends: latches are loaded from the table, and the channel is eligible. -/
  | channelFillEnd (e : EngId) (k : CtxId) (ecc : Ecc)
  /-- EXCEPTION_ENTRY (R157): A context takes a pending exception at a boundary and enters its shadow bank. -/
  | exceptionEntry (e : EngId) (k : CtxId)
  /-- SHADOW_BANK_GRANT (R161): A freed level-1 bank is granted to the earliest context in EXCWAIT. -/
  | shadowBankGrant (e : EngId)
  /-- MACHINE_CHECK (R188): A fetch fails parity, and the context stops with MCHK. -/
  | machineCheck (e : EngId) (k : CtxId) (flip : PWord) (stored : Bool)
  /-- CS_REPAIR (R189): The Syntax core repairs a failed control-store word from the golden copy. -/
  | csRepair (c : CluId) (readback : Bool) (bad0 bad1 : Bool)
  /-- CS_REPAIR_END (R190): Repair ends, and the stopped contexts continue under CLU_CS_RECOV.POLICY. -/
  | csRepairEnd (c : CluId)
  /-- PATCH_ACTIVATE (R184): An engine activates a committed patch table generation. -/
  | patchActivate (e : EngId)
  /-- TIMER_STEP (R204): A running timer's residue reaches 2^p, and the count steps. -/
  | timerStep (c : CluId) (x : BitVec 6)
  /-- TIMER_COMPARE_FIRE (R209): An armed compare fires, sets CMPF and raises its event. -/
  | timerCompareFire (c : CluId) (x : BitVec 6)
  /-- TIMER_GO_RELEASE (R212): A GO or GOAT release starts every armed timer and raises GOREL. -/
  | timerGoRelease
  /-- TICKSEC (R219): TICK_NOW reaches a multiple of 10^9 and raises TICKSEC. -/
  | ticksec
  /-- EVT_IN_EDGE (R220): An EVT_IN edge is stamped at rank 7. -/
  | evtInEdge (n : BitVec 5)
  /-- EVT_OUT_CHANGE (R222): EVT_OUT changes at the pin 8 ticks after the selected event. -/
  | evtOutChange (n : BitVec 5)
  /-- EVT_OUT_PULSE_END (R222): A pulse ends after WIDTH + 1 ticks. -/
  | evtOutPulseEnd (n : BitVec 5)
  /-- LEASE_EXPIRY (R248): A reservation reaches its expiry tick and ends with LEASE_LOST. -/
  | leaseExpiry (tbl : BitVec 4) (owner : CtxNo)
  /-- STARVATION_EVENT (R238): A non-engine request has waited 2^K cycles, so EVENTS increases and a record is sent. -/
  | starvationEvent (bank : BitVec 7)
  /-- ECC_WRITEBACK (R242): A corrected line is written back in a cycle free of engine requests. -/
  | eccWriteback (bank : BitVec 8)
  /-- PATROL_SCRUB (R244): A bank reads its next row for scrubbing. -/
  | patrolScrub (bank : BitVec 8) (ecc : Ecc)
  /-- PIN_GROUP_GRANT (R273): A pin group is granted to a waiting shift word. -/
  | pinGroupGrant (c : CluId) (g : BitVec 4)
  /-- SHIFT_BIT_START (R269): A bit time begins once queue data or room allows. -/
  | shiftBitStart (c : CluId) (g : BitVec 4)
  /-- SHIFT_BIT_END (R270): A bit time ends and updates PROG, BITPOS and ASM. -/
  | shiftBitEnd (c : CluId) (g : BitVec 4)
  /-- SHIFT_WORD_END (R271): A shift word ends and releases its pin group. -/
  | shiftWordEnd (c : CluId) (g : BitVec 4)
  /-- LANE_EDGE (R260): A lane input edge is stamped at rank 7. -/
  | laneEdge (c : CluId) (levels : BitVec 16)
  /-- INJECTED_WORD (R276): A pending injected word is selected and executed at the context's boundary. -/
  | injectedWord (e : EngId) (k : CtxId)
  /-- DMA_BEAT_ISSUE (R290): A DMA channel issues its next beat when a credit, a slot and a tag allow. -/
  | dmaBeatIssue (n : BitVec 8)
  /-- JOURNAL_APPEND (R334): The Concord unit appends a journal record before a ledgered host write. -/
  | journalAppend (n : BitVec 8)
  /-- DMA_BEAT_COMPLETE (R296): A beat's last local write is performed, or its host write is answered. -/
  | dmaBeatComplete (n : BitVec 8) (beat : Merge (BitVec 20))
  /-- DMA_IDLE_HANDOVER (R299): An IDLE channel with an armed shadow hands over in the next tick. -/
  | dmaIdleHandover (n : BitVec 8)
  /-- HOST_READ_RESPONSE (R515): A host port receives a read response for a tagged request. -/
  | hostReadResponse (p : Bool) (tag : BitVec 12) (status : BitVec 2) (data : Beat)
  /-- HOST_WRITE_RESPONSE (R515): A host port receives a write response for a tagged beat. -/
  | hostWriteResponse (p : Bool) (tag : BitVec 12) (status : BitVec 2)
  /-- HOST_TIMEOUT (R293): A host request has no response after 1,048,576 ticks and fails. -/
  | hostTimeout (p : Bool) (write : Bool) (slot : BitVec 10)
  /-- DESCRIPTOR_FETCH (R322): The ring front end fetches descriptors while the tail leads and the window has room. -/
  | descriptorFetch (r : BitVec 12)
  /-- DESCRIPTOR_COMMIT (R324): A fetched descriptor is consumed and committed to both ledger copies. -/
  | descriptorCommit (r : BitVec 12)
  /-- ACCEPT_HEAD_WRITE (R315): The Concord unit writes the latest accept head to host memory. -/
  | acceptHeadWrite (r : BitVec 12)
  /-- COMPLETION_RECORD_WRITE (R329): The Concord unit writes the completion record of a retirable item. -/
  | completionRecordWrite (r : BitVec 12)
  /-- HOST_RETRY (R331): A failed ring host access is repeated after 1,000 ticks, or sets HOSTERR. -/
  | hostRetry (r : BitVec 12)
  /-- REPLAY (R337): A HELD item with ACTSETS 0 is queued again as ACCEPTED with REPLAY set. -/
  | replay (entry : BitVec 13)
  /-- PAYLOAD_REFETCH (R342): After an uncorrectable payload error, the descriptor is fetched again. -/
  | payloadRefetch (entry : BitVec 13)
  /-- DATA (R359): A DATA flit is accepted into a receive slot, or answered BUSY. -/
  | data (p : BitVec 2) (f : Flit)
  /-- MIRROR (R378): A MIRROR flit updates the partner's copy ledger and is acknowledged. -/
  | mirror (p : BitVec 2) (f : Flit)
  /-- ACK (R357): An ACK flit frees the acknowledged flits from retransmission. -/
  | ack (p : BitVec 2) (f : Flit)
  /-- NAK (R358): A NAK causes the unacknowledged flits to be resent from the named SEQ. -/
  | nak (p : BitVec 2) (f : Flit)
  /-- BUSY (R358): A BUSY causes a resend after RTO ticks. -/
  | busy (p : BitVec 2) (f : Flit)
  /-- ANNOUNCE (R366): An ANNOUNCE flit updates routes and the master election. -/
  | announce (p : BitVec 2) (f : Flit)
  /-- HEARTBEAT (R379): A sequenced HEARTBEAT flit is accepted from a peer. -/
  | heartbeat (p : BitVec 2) (f : Flit)
  /-- JOIN (R355): A JOIN flit requests, accepts or refuses a join. -/
  | join (p : BitVec 2) (f : Flit)
  /-- LEAVE (R365): A LEAVE flit removes the leaving instance's routes and pair state. -/
  | leave (p : BitVec 2) (f : Flit)
  /-- TSYNC (R367): The parent receives a TSYNC and answers with a TRESP. -/
  | tsync (p : BitVec 2) (f : Flit) (t2 t3 : BitVec 52)
  /-- TRESP (R368): The child receives a TRESP, computes the offset and disciplines TICK_NOW. -/
  | tresp (p : BitVec 2) (f : Flit) (t4 : BitVec 52)
  /-- HOLDOVER_ALARM (R371): The holdover error bound exceeds 4 ticks and enters alarm. -/
  | holdoverAlarm
  /-- TIMED_DELIVERY (R362): A timed message reaches its DUE tick and is delivered with CJARR. -/
  | timedDelivery (slot : BitVec 11)
  /-- RETRANSMIT_TIMEOUT (R358): RTO passes without acknowledgement, so the flits are resent, or the route is LOST. -/
  | retransmitTimeout (peer : BitVec 9)
  /-- ACK_SEND (R357): An ACK flit is sent within 256 ticks of an acceptance. -/
  | ackSend (peer : BitVec 9)
  /-- ANNOUNCE_ROUND (R366): An ANNOUNCE round is sent on every UP port every 65,536 ticks. -/
  | announceRound
  /-- MASTER_TIMEOUT (R366): An unconfirmed master is dropped after 3 periods, and election runs again. -/
  | masterTimeout
  /-- TSYNC_SEND (R367): A TSYNC is sent on the parent port every 1,024 ticks. -/
  | tsyncSend (t1 : BitVec 52)
  /-- HEARTBEAT_SEND (R379): The owner sends a HEARTBEAT to the partner every LOSS / 8 ticks. -/
  | heartbeatSend (peer : BitVec 9)
  /-- PARTNER_LOSS (R379): No flit from the partner for LOSS ticks sets the mirrored rings HELD. -/
  | partnerLoss (peer : BitVec 9)
  /-- TAKEOVER (R380): The partner takes over the owner's copy rings after 2 × LOSS + 1,048,576 ticks. -/
  | takeover (peer : BitVec 9)
  /-- CJ_LINK_UP (R517): CJn_LINK_UP rises, and the port enters TRAINING. -/
  | cjLinkUp (p : BitVec 2)
  /-- CJ_LINK_DOWN (R517): CJn_LINK_UP falls, and the port enters DOWN. -/
  | cjLinkDown (p : BitVec 2)
  /-- CANARY_SAMPLE (R372): A crossing's canary sample is taken every 1,024 ticks. -/
  | canarySample (isl : BitVec 7) (sample : BitVec 16)
  /-- CROSSING_RETRAIN (R374): A drifted island crossing is measured again during a pause of at most 2 µs. -/
  | crossingRetrain (isl : BitVec 7)
  /-- LINK_RETRAIN (R374): A drifted link is measured again in LOOPBACK. -/
  | linkRetrain (p : BitVec 2)
  /-- EVENT_POST (R394): The Syntax core posts the next queued event into the event mailbox. -/
  | eventPost
  /-- CHANNEL_REBIND (R402): The Syntax core rebinds a channel from its binding record after a reset. -/
  | channelRebind (ch : Chan)
  /-- SYN_HEARTBEAT (R385): SYN_HEARTBEAT increments every 1,000,000 ticks while the core is READY. -/
  | synHeartbeat
  /-- QUERY_VERSION (R398): Command that returns the firmware and block versions. -/
  | queryVersion
  /-- MODE_REQ (R408): Command that requests a mode transition. -/
  | modeReq
  /-- LOAD_IMAGE (R177): Command that fetches, checks and loads a signed image. -/
  | loadImage (img : Fetched)
  /-- PATCH_APPLY (R183): Command that checks and applies a patch package. -/
  | patchApply (img : Fetched)
  /-- FENCE_SECTION (R411): Command that fences a section, optionally powering it off. -/
  | fenceSection
  /-- UNFENCE_SECTION (R412): Command that powers up, rebuilds and unfences a section. -/
  | unfenceSection
  /-- RING_CREATE (R311): Command that creates a Wenir-3 ring. -/
  | ringCreate
  /-- RING_DESTROY (R316): Command that drains a ring, or forcibly abandons it. -/
  | ringDestroy
  /-- RING_MIRROR (R403): Command that enables or removes mirroring to a partner. -/
  | ringMirror (answer : MirrorAnswer)
  /-- FEDERATE_JOIN (R363): Command that joins the instance to a federation. -/
  | federateJoin
  /-- FEDERATE_LEAVE (R365): Command that leaves the federation. -/
  | federateLeave
  /-- TIME_SET (R194): Command that steps TICK_NOW. -/
  | timeSet
  /-- HEAD_BIND (R402): Command that binds or unbinds a channel to a raster head. -/
  | headBind
  /-- CHANNEL_BIND (R401): Command that writes a CSB and places the channel in its ready queue. -/
  | channelBind
  /-- CHANNEL_UNBIND (R402): Command that waits for a park and then invalidates the channel. -/
  | channelUnbind
  /-- CHANNEL_WAKE (R402): Command that places a parked channel in its ready queue. -/
  | channelWake
  /-- INJECT (R275): Command that injects a microword through the Syntax core's slot. -/
  | inject
  /-- POWER_ON (R426): PORST_N rises, and the cold WAKE begins. -/
  | powerOn
  /-- FUSE_WORD (R526): A fuse word is returned during cold WAKE. -/
  | fuseWord (data : BitVec 32)
  /-- COLD_RESET (R418): PORST_N falls or a supply leaves its range, and the block enters OFF. -/
  | coldReset
  /-- BLOCK_RESET (R420): A block reset from BRST_N, INST_RESET or the Imperative partition. -/
  | blockReset (brst : Bool)
  /-- WARM_WAKE (R427): After a block reset the Syntax core restarts, and WAKE leads to RECOVER or LOAD. -/
  | warmWake
  /-- WAKE_END (R408): Clearing is done and Syntax is READY, so WAKE ends into TEST, LOAD or RECOVER. -/
  | wakeEnd (testReq : Bool)
  /-- WAKE_ACK_TIMEOUT (R426): A section's ACK is still low 9 µs into cold WAKE, so it stays fenced. -/
  | wakeAckTimeout (sec : SecId)
  /-- SECTION_CLEAR_END (R254): A section's bank clearing ends, and its fence bit clears. -/
  | sectionClearEnd (sec : SecId)
  /-- SEC_PWR_ACK_RISE (R413): SEC_PWR_ACK is sampled high, and the section is treated as powered. -/
  | secPwrAckRise (sec : SecId)
  /-- SEC_PWR_ACK_FALL (R414): SEC_PWR_ACK is sampled low, as unpowered or as a section fault. -/
  | secPwrAckFall (sec : SecId)
  /-- SEC_PWR_ACK_TIMEOUT (R414): ACK has not followed REQ within 1 ms, so an L2 record is sent. -/
  | secPwrAckTimeout (sec : SecId)
  /-- SECTION_FENCE (R411): A section is fenced and isolated at rank 1, and RECOVER begins. -/
  | sectionFence (sec : SecId)
  /-- RECOVER_END (R409): Every recovery window is closed, so the block returns to its return mode. -/
  | recoverEnd
  /-- RECOVER_OVERRUN (R412): RECOVER exceeds its budget, and the block stops. -/
  | recoverOverrun
  /-- QUIESCE_DONE (R415): The drain conditions hold, so QDONE is set. -/
  | quiesceDone
  /-- CONTEXT_RESET (R418): One context is reset at rank 1. -/
  | contextReset (e : EngId) (k : CtxId)
  /-- ENGINE_RESET (R418): An engine is reset at rank 1. -/
  | engineReset (e : EngId)
  /-- CLUSTER_RESET (R418): A cluster is reset at rank 1. -/
  | clusterReset (c : CluId)
  /-- SECTION_RESET (R418): A section is reset at rank 1. -/
  | sectionReset (sec : SecId)
  /-- CLUSTER_SLEEP (R431): The idle conditions hold for IDLE × 64 ticks, and the cluster sleeps. -/
  | clusterSleep (c : CluId)
  /-- CLUSTER_WAKE (R432): The sleeping island restarts after a wake trigger. -/
  | clusterWake (c : CluId) (slowEdges : Nat)
  /-- FAULT_REACTION (R443): The collector fixes the level of a held record, logs it and reacts. -/
  | faultReaction
  /-- FAULT_PIN_PULSE_END (R451): The FAULT_OUT_N pulse ends. -/
  | faultPinPulseEnd
  /-- WATCHDOG_BITE (R452): An engine watchdog runs out, and the engine is reset. -/
  | watchdogBite (e : EngId)
  /-- SYNTAX_WATCHDOG_BITE (R454): The Syntax watchdog bites, and the core fails and restarts. -/
  | syntaxWatchdogBite
  /-- SOURCE_WINDOW_MATURE (R448): A source's window leaves YOUNG after W ticks. -/
  | sourceWindowMature (src : BitVec 11)
  /-- CONTEXT_HALT (R466): A context that must halt stops at its next boundary. -/
  | contextHalt (e : EngId) (k : CtxId)
  /-- HALT_COMPLETE (R467): Every bound context is halted, so the engine halt is complete. -/
  | haltComplete (e : EngId)
  /-- HOLD_LEASE_END (R476): A lease held across a halt for 1 ms ends by expiry. -/
  | holdLeaseEnd (owner : CtxNo)
  /-- DEBUG_BUS_TIMEOUT (R478): A debug bus master access is not performed within 2^20 cycles and is withdrawn. -/
  | debugBusTimeout
  /-- FRAME (R487): A FRAME strobe updates the head statistics and raises its event. -/
  | frame (msg : BitVec 64)
  /-- LINE (R487): A LINE strobe updates HEAD_LINE, raises RLINE and sends line actions. -/
  | line (msg : BitVec 64)
  /-- UNDERRUN (R497): An UNDERRUN message reports a changed underrun count. -/
  | underrun (msg : BitVec 64)
  /-- CLONE (R497): A CLONE message reports a changed clone state. -/
  | clone (msg : BitVec 64)
  /-- RSTEV_BADMSG (R485): A malformed strobe message is dropped with a BADMSG record. -/
  | rstevBadmsg (msg : BitVec 64)
  /-- RCOM_SEND (R493): A queued SHADOW or COMMIT message transfers on RCOM_. -/
  | rcomSend
  /-- EXTEST (R464): TAP instruction for external boundary test. -/
  | extest
  /-- SAMPLE_PRELOAD (R464): TAP instruction that samples or preloads the boundary cells. -/
  | samplePreload
  /-- IDCODE (R464): TAP instruction that reads the identification code. -/
  | idcode
  /-- CLAMP (R464): TAP instruction that holds the boundary outputs. -/
  | clamp
  /-- HIGHZ (R464): TAP instruction that drives all lane OE low. -/
  | highz
  /-- TAP_SCAN (R464): TAP instruction that selects the internal scan chains. -/
  | tapScan
  /-- BYPASS (R464): TAP instruction that selects the 1-bit bypass. -/
  | bypass
  /-- TAP_RESET (R464): TRST_N or TMS puts the TAP in Test-Logic-Reset. -/
  | tapReset
  /-- REGISTER_WRITE (R9): A write to a register with no row of its own, under its access code. -/
  | registerWrite (o : Origin) (addr : BitVec 24) (data : Reg32)
  /-- READ_CLEAR_READ (R9): A read of an RCL counter returns its value, then clears it. -/
  | readClearRead (o : Origin) (addr : BitVec 24)
  /-- CTX_REGISTER_WRITE (R76): A context-register write lands only while the context is FREE or HALT. -/
  | ctxRegisterWrite (o : Origin) (e : EngId) (k : CtxId) (reg : CtxReg) (data : Reg32)
  /-- CTX_RESET_REQUEST (R418): An ENG_RESET.CTX write requests a context reset in the next tick. -/
  | ctxResetRequest (o : Origin) (e : EngId) (mask : BitVec 16)
  /-- ENGINE_RESET_REQUEST (R418): An ENG_RESET.ENGINE write requests an engine reset in the next tick. -/
  | engineResetRequest (o : Origin) (e : EngId)
  /-- ENG_LBUF_INVAL (R68): Invalidates the engine's loop buffer. -/
  | engLbufInval (o : Origin) (e : EngId)
  /-- ENG_XB_ESTAT_WRITE (R160): A write of a bank's saved STAT, landing only under the two allowed cases. -/
  | engXbEstatWrite (o : Origin) (e : EngId) (level2 : Bool) (data : Reg32)
  /-- TMR_CFG_WRITE (R208): A write of a timer configuration that may start the timer. -/
  | tmrCfgWrite (o : Origin) (c : CluId) (x : BitVec 6) (data : Reg32)
  /-- TMR_WHI_COMMIT (R201): Commits a 48-bit CMP, RLD or count through the wide port. -/
  | tmrWhiCommit (o : Origin) (c : CluId) (data : BitVec 16)
  /-- TMR_CAP_LO_READ (R213): Reads the capture low half and clears CAPF. -/
  | tmrCapLoRead (o : Origin) (c : CluId) (x : BitVec 6)
  /-- TIMER_GO (R212): A GO write that releases the armed timers in the next tick. -/
  | timerGo (o : Origin)
  /-- TIMER_GOAT (R212): A GOAT write that schedules a release at INST_GO_TICK. -/
  | timerGoat (o : Origin)
  /-- INST_SWEV (R219): Raises the selected software events. -/
  | instSwev (o : Origin) (ev : Reg32)
  /-- TIR_LO_READ (R197): A Tirnis-window low-half read that latches the high half. -/
  | tirLoRead (o : Origin) (off : BitVec 16)
  /-- LANE_QCFG_WRITE (R261): Joins or splits lane queues when they are idle. -/
  | laneQcfgWrite (o : Origin) (c : CluId) (data : Reg32)
  /-- LANE_TXPUSH (R281): A LANE_TXPUSH_HI write that pushes the staged entry into a TX queue. -/
  | laneTxpush (o : Origin) (c : CluId) (q : BitVec 3) (data : BitVec 16)
  /-- LANE_RXQ_POP (R281): A register write that removes the head of an RX queue. -/
  | laneRxqPop (o : Origin) (c : CluId) (q : BitVec 3)
  /-- LANE_QUEUE_FLUSH (R281): A register write that flushes a queue as QFLUSH does. -/
  | laneQueueFlush (o : Origin) (c : CluId) (lq : BitVec 4)
  /-- LANE_CAPT_LO_READ (R279): Reads a capture stamp and clears CAPF. -/
  | laneCaptLoRead (o : Origin) (c : CluId) (g : BitVec 4)
  /-- INJECT_GO (R275): Commits the origin's injection word for a context. -/
  | injectGo (o : Origin) (e : EngId) (k : CtxId) (sys : Bool)
  /-- INJECT_CANCEL (R275): Withdraws an injected word that has not been selected. -/
  | injectCancel (o : Origin) (e : EngId) (k : CtxId)
  /-- CLU_CS_RADDR_WRITE (R180): Starts a read of a control-store word into the data registers. -/
  | cluCsRaddrWrite (o : Origin) (c : CluId) (addr : CsAddr)
  /-- CS_READ_DONE (R180): An idle bank cycle performs the control-store read, and BUSY clears. -/
  | csReadDone (c : CluId)
  /-- DMA_START (R294): DMA_CTL.START adds one credit to the active set. -/
  | dmaStart (o : Origin) (n : BitVec 8)
  /-- DMA_PAUSE (R301): DMA_CTL.PAUSE requests a pause and drains. -/
  | dmaPause (o : Origin) (n : BitVec 8)
  /-- DMA_RESUME (R302): DMA_CTL.RESUME ends a pause. -/
  | dmaResume (o : Origin) (n : BitVec 8)
  /-- DMA_ABORT (R303): DMA_CTL.ABORT abandons the active set and drains to IDLE. -/
  | dmaAbort (o : Origin) (n : BitVec 8)
  /-- DMA_CLRERR (R306): DMA_CTL.CLRERR leaves ERROR for IDLE. -/
  | dmaClrerr (o : Origin) (n : BitVec 8)
  /-- DMA_SHADOW_WRITE (R286): A shadow-register write, with the tenant and owner forced when a context writes. -/
  | dmaShadowWrite (o : Origin) (n : BitVec 8) (reg : DmaReg) (data : Reg32)
  /-- RING_DB (R316): A ring doorbell write that moves the host tail, or is discarded with DBERR. -/
  | ringDb (o : Origin) (r : BitVec 12) (tail : Reg32)
  /-- RING_HOSTERR_CLEAR (R331): A W1C of HOSTERR that resumes the ring and repeats the failed access. -/
  | ringHosterrClear (o : Origin) (r : BitVec 12)
  /-- INST_CONC_TAKE (R326): A context read that takes the next item of its channel's work queue. -/
  | instConcTake (o : Origin)
  /-- INST_CONC_DONE (R327): A context write that completes a TAKEN entry. -/
  | instConcDone (o : Origin) (data : Reg32)
  /-- FED_TX_GO (R360): Sends the origin's staged DATA message. -/
  | fedTxGo (o : Origin) (timed : Bool)
  /-- FED_RXTAKE (R362): A context read that takes the head receive slot of its channel. -/
  | fedRxtake (o : Origin)
  /-- FED_RXFREE (R362): Frees a receive slot. -/
  | fedRxfree (o : Origin) (slot : BitVec 11)
  /-- MBX_DB (R391): A mailbox doorbell GO that queues the pair's command. -/
  | mbxDb (o : Origin) (m : BitVec 6)
  /-- SYN_EVACK (R394): The host acknowledges the posted event. -/
  | synEvack (o : Origin)
  /-- INST_RESET_BLOCK (R418): An INST_RESET write with KEY 0xA5 requests a block reset. -/
  | instResetBlock (o : Origin) (key : BitVec 8)
  /-- INST_RESET_SEC (R418): An INST_RESET.SEC write requests section resets. -/
  | instResetSec (o : Origin) (mask : BitVec 8)
  /-- CLU_RESET (R418): A CLU_RESET write requests a cluster reset. -/
  | cluReset (o : Origin) (c : CluId)
  /-- CLU_WDKICK (R452): A keyed kick that reloads the selected engine watchdogs. -/
  | cluWdkick (o : Origin) (c : CluId) (data : Reg32)
  /-- IMP_INJ_GO (R455): Injects one fault event of the configured source and code. -/
  | impInjGo (o : Origin) (data : Reg32)
  /-- IMP_MODECTL_STOP (R458): IREG stops the block in the next tick. -/
  | impModectlStop (o : Origin)
  /-- IMP_MODECTL_BRESET (R458): IREG requests a block reset with the key. -/
  | impModectlBreset (o : Origin) (key : BitVec 8)
  /-- IMP_KEYCTL_REVOKE (R457): IREG revokes the image key digest until a cold reset. -/
  | impKeyctlRevoke (o : Origin)
  /-- IMP_TESTLOCK_WRITE (R460): A keyed write that opens or closes injection and perturbation. -/
  | impTestlockWrite (o : Origin) (data : Reg32)
  /-- IMP_SRC_CFG_WRITE (R448): Sets a source's threshold and window, which makes the window YOUNG. -/
  | impSrcCfgWrite (o : Origin) (src : BitVec 11) (data : Reg32)
  /-- IMP_PIN_WRITE (R451): Sets the fault pin level used outside pulses. -/
  | impPinWrite (o : Origin) (level : Bool)
  /-- IMP_LOG_POP (R444): Returns the port's oldest unread log index and advances its pointer. -/
  | impLogPop (o : Origin)
  /-- IMP_PL_DATA_HI (R495): IREG sends a protected-layer shadow write. -/
  | impPlDataHi (o : Origin) (h : BitVec 8) (data : BitVec 16)
  /-- IMP_PL_COMMIT (R495): IREG sets the protected commit latch. -/
  | impPlCommit (o : Origin) (h : BitVec 8)
  /-- HEAD_SHW_HI (R489): Sends a shadow write, or queues a line action. -/
  | headShwHi (o : Origin) (h : BitVec 8) (data : Reg32)
  /-- HEAD_COMMIT (R491): Sets the head's ordinary commit latch. -/
  | headCommit (o : Origin) (h : BitVec 8)
  /-- DBG_HALT (R467): DBG_ENG_CTL.HALT requests an engine halt. -/
  | dbgHalt (o : Origin) (e : EngId)
  /-- DBG_CHALT (R465): DBG_ENG_CTL.CHALT requests halts of the named contexts. -/
  | dbgChalt (o : Origin) (e : EngId) (mask : BitVec 16)
  /-- DBG_RELEASE (R469): Releases the contexts that the debugger halted. -/
  | dbgRelease (o : Origin) (e : EngId)
  /-- DBG_STEP (R470): Releases one halted context for one step. -/
  | dbgStep (o : Origin) (e : EngId) (k : CtxId)
  /-- DBG_STEPABORT (R470): Ends a stepped wait early. -/
  | dbgStepabort (o : Origin) (e : EngId)
  /-- DBG_MDATA (R477): A debug bus master read or write of data memory. -/
  | dbgMdata (o : Origin) (write : Bool) (data : Reg32)
  /-- DBG_PCMP_ALLOC (R473): Gives a pool comparator to an engine, or refuses with AERR. -/
  | dbgPcmpAlloc (o : Origin) (c : CluId) (p : BitVec 4) (data : Reg32)
  /-- PERTURB_SEED_WRITE (R481): Loads the perturbation LFSR from the seed. -/
  | perturbSeedWrite (o : Origin) (seed : Reg32)
  /-- FLIT_CRC_DROP (R353): A received flit with a reserved TYPE or a mismatching CRC is dropped, FED_CRCERR is incremented and a link fault record is sent. -/
  | flitCrcDrop (p : BitVec 2) (f : Flit)
  /-- LINK_TRAINED (R351): A port in TRAINING finishes training and becomes UP, so it can carry data flits. -/
  | linkTrained (p : BitVec 2)
  /-- LINK_RETRAIN_END (R374): The LOOPBACK measurement of a retrained link ends, and the port returns to UP with new delay and asymmetry values. -/
  | linkRetrainEnd (p : BitVec 2) (delay : BitVec 16) (asym : BitVec 16)
  /-- RETRAIN_PAUSE_END (R375): The island pause of a crossing retrain ends; timers are advanced, a compare that fell due fires once and AT effects are released with LATE. -/
  | retrainPauseEnd (isl : BitVec 7) (delay : BitVec 16) (paused : Nat)
  /-- COMMAND_TIMEOUT (R397): A command's TIMEOUT or bound runs out and the command completes with BUSY or PEERFAIL; this covers CHANNEL_UNBIND, INJECT (with cancel), FEDERATE_JOIN and the 100 ms QUIESCE bound of R415. -/
  | commandTimeout
  /-- FUSE_TIMEOUT (R526): A fuse word that is not returned within 1,024 cycles of its address is taken as 0. -/
  | fuseTimeout
  /-- DEBUG_BUS_ACCESS_DONE (R477): The bank performs a debug bus master access: the DAP is answered, DBG_MSTAT is set, DBG_MADDR advances and a write ends reservations. -/
  | debugBusAccessDone (ecc : Ecc)
  /-- TX_FULL (R360): A send waits for more than 4,096 ticks under R356, and FED_TX_STAT becomes FULL. -/
  | txFull (o : Origin)
  /-- DMA_LOCAL_READ_DONE (R291): The row reads of an L2H or L2L beat are performed at their banks, and the beat's host write or local writes are then issued. -/
  | dmaLocalReadDone (n : BitVec 8) (beat : BitVec 20) (ecc : Ecc)
  deriving DecidableEq, Repr

end Sys2Proof
end

