-- ==== Sys2Proof/Decode.lean ====
section
/-! DEFINITION. The decoder of the opcode table's words. The table's rows give no bits: a row is a step of the block,
not a word (95_what_each_step_holds.md), so no word spells a command. The 160-bit microwords that engines fetch are
decoded in Machine/Microword.lean. -/

namespace Sys2Proof

/-- The command that a word spells by the opcode table's bits: none, since no row of the table has bits. -/
def decodeTableWord (_nbits _w : Nat) : Option Instr := none

end Sys2Proof
end

