-- ==== Sys2Proof/Config.lean ====
section
/-! DEFINITION. The values that the spec leaves open where the block goes on: opaque constants, so that nothing can
evaluate them and every statement holds for every value they may have. -/

namespace Sys2Proof.Config

/-- SYN_FWVER.THIRD, a constant of the firmware in the private memory (R385). Log entry 20. -/
opaque fwThird : BitVec 16
/-- The bytes of a frame slot that a faulting CALL leaves undefined, the k-th free byte (R102). Log entry 21. -/
opaque frameByte : Nat → Byte
/-- The destination bytes of a long-instruction step that a write fault leaves undefined (R141). Log entry 22. -/
opaque stepByte : Nat → Byte
/-- How many cycles a control-store bank refuses the k-th fetch before it grants it (R66): no command tells which fetches
meet in one engine cycle. Log entry 75. -/
opaque fetchRefusals : Nat → BitVec 3
/-- Whether a port A and a port B access of one line in one tick fall into one memory cycle, the k-th draw (R240). Log
entry 89. -/
opaque sameCycle : Nat → Bool
/-- Which bits of a byte an engine read gets as they were before a write on port B in the same memory cycle, the k-th draw
(R240). Log entry 89. -/
opaque mixBits : Nat → BitVec 8
/-- The rate term in 1/16 tick that the n-th exchange adds (R368), within what R369 corrects. Log entry 23. -/
opaque rate : Nat → BitVec 3
/-- Whether a half of 1/16 tick in θ, and in D, of the n-th exchange rounds up (R367). Log entry 25. -/
opaque roundUp : Nat → Bool
/-- FED_TOFS.OFS and DELAY of a θ or D that does not fit 16 bits (R383). Log entry 25. -/
opaque wideOfs : Int → BitVec 16
/-- SCHAN of a message that an origin other than a context sends (R360). Log entry 26. -/
opaque freeSchan : BitVec 16
/-- The levels of the data-out lanes of a pin group from its grant to its first bit, the k-th draw (R265). Log entry 27. -/
opaque laneIdle : Nat → BitVec 16
/-- HEAD_FPER, HEAD_L0OFS, HEAD_LPER16 or HEAD_LINES of a frame for which R487 gives no value that fits: the k-th draw.
Log entry 28. -/
opaque headOpen : Nat → BitVec 32
/-- IMP_SRC_STAT[i].COUNT of a count above 255 (R460). Log entry 29. -/
opaque wideCount : Nat → BitVec 8
/-- The level of TEST_REQ at a MODE_REQ LOAD in TEST, the k-th draw: no row carries it (R408, R428). Log entry 34. -/
opaque testReq : Nat → Bool
/-- The next value of the perturbation LFSR, the byte that a decision compares with its duty value, and the delay up to
MAXDLY that a value draws (R481). Log entry 24. -/
opaque lfsrNext : BitVec 32 → BitVec 32
opaque lfsrByte : BitVec 32 → BitVec 8
opaque lfsrDelay : BitVec 32 → BitVec 8 → BitVec 8

end Sys2Proof.Config
end

