-- ==== Sys2Proof/Machine/State.lean ====
section
/-! DEFINITION. The state of the block, as plain data: every register, buffer, counter and mode the spec names, and
the queue of waiting commands. Each field's default is its value after a cold reset (R417), which `State.reset` takes.
A default that the spec does not state is marked at the field. Sparse arrays (`Map`) read an unlisted index as the
reset value of their element. -/

namespace Sys2Proof.Machine

/-- Why the machine stops. No constructor: every command of the table has an effect that the spec gives, so no
command raises a fault (NOTES.md, Stops). -/
inductive Fault where
  deriving DecidableEq, Repr

/-- Why a command is not performed. -/
inductive Refusal where
  /-- A command whose meaning the model does not hold; safe. The mnemonic is the opcode table's. -/
  | notModelled (mnemonic : String)
  deriving DecidableEq, Repr

/-! ### Sparse maps -/

/-- A sparse array: (index, value) pairs with indexes strictly rising and no value equal to what an unlisted
index reads as. `Map.get` and `Map.set` (Machine/Map.lean) give the default. -/
abbrev Map (α : Type) := List (Nat × α)

/-! ### Accumulating state (R13, R26)

What was added in the present tick is kept apart from what stood before it, so that a read, a clear or an
acknowledgement acts on the contents before the tick. The operations are in Machine/Map.lean. -/

/-- A sticky flag: whether it was set before the tick of its last set, and the `now` of that set. -/
structure Flag where
  old : Bool := false
  at_ : Option Nat := none
  deriving DecidableEq, Repr

/-- Sticky bits: those set before the tick `at_`, and those set in it. -/
structure Marks (w : Nat) where
  old : BitVec w := 0
  new : BitVec w := 0
  at_ : Nat := 0
  deriving DecidableEq, Repr

/-- An event counter: its contents before the tick `at_`, and what that tick has added. -/
structure Tally (w : Nat) where
  old : BitVec w := 0
  new : BitVec w := 0
  at_ : Nat := 0
  deriving DecidableEq, Repr

/-! ### Contexts (02_engine_contexts.md, 03_microword.md, 05_exceptions.md) -/

/-- The register level at which a word issues: the program, or a shadow bank (R155). -/
inductive Lvl where
  | prog | bank1 | bank2
  deriving DecidableEq, Repr

/-- What a word read in its D stage (R83), kept while its effects are outstanding. -/
structure Snap where
  /-- the microword -/
  w : MWord
  /-- its address -/
  upc : CsAddr
  /-- the level that issued it -/
  lvl : Lvl
  /-- SRCA and SRCB as 48-bit values -/
  a : Word
  b : Word
  /-- SRCA and SRCB at 104 bits where they name an accumulator -/
  accA : Acc
  accB : Acc
  /-- the effective address of R107 -/
  ea : Word
  /-- the level of privilege it runs at -/
  priv : Bool
  /-- the injection slot it came from: 0 DAP, 1 Syntax core, 2 HREG; none for a fetched word (R276) -/
  inj : Option Nat
  /-- the frame of a CALL, from the registers it saves (R99) -/
  frame : List Byte
  /-- SSP, and EUPC and EPROG of the level's bank -/
  ssp : BitVec 6
  eupc : CsAddr
  eprog : Word
  /-- its place in the block's issue order -/
  seq : Nat
  deriving DecidableEq, Repr

/-- What a context is doing between issues. CTX_STATE of R75 is derived from it. -/
inductive Act where
  /-- ready for its next word, or FREE where no channel is bound -/
  | idle
  /-- R50: source, LQ of the word, deadline on `now` (none: no timeout), timeout target -/
  | wait (src : BitVec 6) (lq : BitVec 4) (deadline : Option Nat) (target : CsAddr)
  /-- R55: the mask -/
  | yieldOn (mask : BitVec 24)
  /-- R95: barrier, deadline on `now`, timeout target -/
  | sync (bar : BitVec 3) (deadline : Option Nat) (target : CsAddr)
  /-- R53: an AT word that is not yet due; issued fewer than 16 ticks before its target (R54)? -/
  | atWait (s : Snap) (target : Tick) (late : Bool)
  /-- R54: an AT word in the timed-effect buffer -/
  | atDue (s : Snap) (target : Tick) (late : Bool)
  /-- R138: a long-instruction step whose accesses are outstanding -/
  | longStep (s : Snap)
  /-- R138: between two steps of one issue of a long instruction (a boundary) -/
  | longNext (s : Snap)
  /-- R267: a shift word on its pin group -/
  | shift (s : Snap)
  /-- R103: a CALL whose frame transfer is outstanding -/
  | call (s : Snap)
  /-- R103: a RET whose frame transfer is outstanding -/
  | ret (s : Snap)
  /-- R61: a PARK that waits for its conditions -/
  | park (wakeAt : Tick) (wake : BitVec 9)
  /-- R96: a FENCE on the classes of AUX8[2:0], for requests whose sequence number is below `before` -/
  | fence (classes : BitVec 3) (before : Nat)
  /-- R63: state SWAP: the outgoing channel still to be spilled, with its wake tick and WAKE field, and the incoming
  one -/
  | swap (out : Option (Chan × Tick × BitVec 9)) (inc : Option Chan)
  deriving DecidableEq, Repr

/-- A pending exception (R145..R151, R158). -/
structure Exc where
  /-- cause code of R146 -/
  code : BitVec 6
  /-- 0 precise, 1 deferred, 2 trap, 3 interrupt -/
  kind : BitVec 2
  sub : BitVec 6
  fupc : CsAddr
  tag : BitVec 5 := 0
  einfo : Word := 0
  mult : Bool := false
  /-- raised by a step of a long instruction -/
  long : Bool := false
  /-- the level whose word or request raised it (R162) -/
  lvl : Lvl
  /-- `now` at which it became pending (R161) -/
  at_ : Nat := 0
  deriving DecidableEq, Repr

/-- A machine check that a context has taken: the failed address, and the ECAUSE and EINFO of R188. -/
structure Mchk where
  addr : CsAddr
  ecause : Word
  einfo : Word
  deriving DecidableEq, Repr

/-- A multiply in flight (R124, R126). -/
inductive Mul where
  /-- the 96-bit product for MPH:MPL -/
  | prod (p : BitVec 96)
  /-- the 104-bit term for an accumulator, already negated for MSU -/
  | mac (acc : BitVec 2) (p : Acc)
  deriving DecidableEq, Repr

/-- The debug halt of a context (R465..R470, R475). -/
structure Halt where
  /-- the context is in HALT by the debugger -/
  halted : Bool := false
  /-- a halt has been asked for and waits for the next boundary: DBG_ENG_CAUSE.CAUSE and CMP -/
  request : Option (BitVec 3 × BitVec 5) := none
  /-- released for one step (R470) -/
  stepping : Bool := false
  /-- the next selection skips the fetch comparators (R475) -/
  skipCmp : Bool := false
  deriving DecidableEq, Repr

/-- A word in a context's injection slot (R275). -/
structure Inj where
  w : MWord
  sys : Bool
  /-- the origin that committed it -/
  src : Origin
  deriving DecidableEq, Repr

/-- One context (R40..R48, R75). At a shadow bank's level the same record, with the bank's copies in place, is the
register file that the handler's words see (`view` of Machine/Ops.lean). -/
structure Ctx where
  /-- D0..D15: no reset value stated; DESIGN CHOICE 0 -/
  d : Vector Word 16 := Vector.replicate 16 0
  /-- A0..A15: no reset value stated; DESIGN CHOICE 0 -/
  a : Vector Word 16 := Vector.replicate 16 0
  /-- ACC0..ACC3 -/
  acc : Vector Acc 4 := Vector.replicate 4 0
  /-- STAT (R43) -/
  stat : Word := 0
  /-- UPC (R75) -/
  upc : CsAddr := 0
  /-- LC -/
  lc : BitVec 16 := 0
  /-- MPH, MPL: 0 until the first product (R125) -/
  mph : Word := 0
  mpl : Word := 0
  /-- DVQ, DVR: 0 until the first divide (R128) -/
  dvq : Word := 0
  dvr : Word := 0
  /-- PROG (R136) -/
  prog : Word := 0
  /-- a bank's private progress register (R155); 0 at program level -/
  hprog : Word := 0
  /-- CMAP, entry k in bits [6k+5:6k] (R45) -/
  cmap : BitVec 96 := 0
  /-- TENANT -/
  tenant : Tenant := 0
  /-- SSP -/
  ssp : BitVec 6 := 0
  /-- the shadow stack (R98, R168) -/
  shadow : Vector CsAddr 32 := Vector.replicate 32 0
  /-- CTX_STKBASE -/
  stkBase : Word := 0
  /-- CTX_EVMASK -/
  evMask : BitVec 16 := 0
  /-- CTX_CLATCH: sources 40..63 (R47) -/
  latch : Marks 24 := {}
  /-- the stamp of the last event delivered to each latch: events of one source and stamp count as one (R47) -/
  took : Map (Option (Tick × Nat)) := []
  /-- the bound channel; none when FREE -/
  chan : Option Chan := none
  /-- what the context is doing -/
  act : Act := .idle
  /-- multiplies in flight, oldest first -/
  muls : List Mul := []
  /-- FLAG of the last Affix response (source 13) -/
  afxFlag : Bool := false
  /-- pending exceptions, earliest first (R151) -/
  excs : List Exc := []
  /-- the level the context is at -/
  lvl : Lvl := .prog
  /-- EXCWAIT (R161) -/
  excWait : Bool := false
  /-- stopped by a machine check (R188) -/
  mchk : Option Mchk := none
  /-- debug halt -/
  halt : Halt := {}
  /-- the injection slot (R275) -/
  inj : Option Inj := none
  deriving DecidableEq, Repr

/-! ### Engines -/

/-- What a tag is pending for. -/
inductive PendKind where
  /-- a load, LR6, store, SC6 or REL of data memory: the MEMOP code -/
  | mem (op : BitVec 6)
  /-- a load or store of the register window: true for a store -/
  | window (write : Bool)
  /-- an Affix operation (R70) -/
  | affix
  /-- a load or store of Affix space: the MEMOP code (R226) -/
  | affixMem (op : BitVec 6)
  /-- a long memory operation, held for all its steps (R108) -/
  | long
  /-- an AT word that is due: its request leaves at the target (R38, R53) -/
  | timed
  deriving DecidableEq, Repr

/-- A request under a memory tag (R38, R70). -/
structure Pend where
  kind : PendKind
  k : CtxId
  /-- effective address, or OPA of an Affix request -/
  ea : Word
  /-- SRCB data, or OPB of an Affix request -/
  data : Acc
  /-- DST field -/
  dst : BitVec 6
  /-- ALUOP[3:0] of an Affix request -/
  opc : BitVec 4
  tenant : Tenant
  priv : Bool
  lvl : Lvl
  /-- address of the word that made it -/
  fupc : CsAddr
  /-- issue order in the block -/
  seq : Nat
  /-- made by an injected word (R276) -/
  inj : Bool := false
  /-- of an AT word: the tick of its target, and that tick's `now` (R219) -/
  target : Option (Tick × Nat) := none
  deriving DecidableEq, Repr

/-- The divide in progress (R127, R128). -/
structure Divide where
  k : CtxId
  a : Word
  b : Word
  sgn : Bool
  lvl : Lvl
  fupc : CsAddr
  inj : Bool := false
  deriving DecidableEq, Repr

/-- A shadow bank (R155, R159). Level 1 and level 2 have the same registers. -/
structure Bank where
  owner : CtxId := 0
  held : Bool := false
  ecause : Word := 0
  eupc : CsAddr := 0
  estat : Word := 0
  epriv : Bool := false
  einfo : Word := 0
  eprog : Word := 0
  stkBase : Word := 0
  /-- D12..D15 and A12..A15: 0 after engine reset -/
  d : Vector Word 4 := Vector.replicate 4 0
  a : Vector Word 4 := Vector.replicate 4 0
  stat : Word := 0
  lc : BitVec 16 := 0
  cmap : BitVec 96 := 0
  ssp : BitVec 6 := 0
  shadow : Vector CsAddr 8 := Vector.replicate 8 0
  /-- private long-instruction progress -/
  priv : Word := 0
  deriving DecidableEq, Repr

/-- A comparator: DBG_CMP_CTL, ADDR and COUNT; OWNED and OWNER of a pool comparator (R473, R474, R484). -/
structure Cmp where
  /-- EN [0], KIND [2:1], ACTION [4:3], LEN [10:5], CTXMASK [31:16] -/
  ctl : Reg32 := 0xFFFF0000
  addr : Word := 0
  count : Tally 16 := {}
  owned : Bool := false
  owner : BitVec 3 := 0
  deriving DecidableEq, Repr

/-- The debug registers of an engine (R465..R475, R484). -/
structure EngDebug where
  /-- DBG_ENG_CFG.MODE and HALTALL -/
  mode : BitVec 2 := 0
  haltAll : Bool := false
  /-- an engine halt is requested, and not released -/
  haltReq : Bool := false
  /-- the context that is stepping -/
  step : Option CtxId := none
  /-- DBG_ENG_STAT.ERR -/
  err : Flag := {}
  /-- DBG_ENG_CAUSE: CTX, CAUSE, CMP -/
  cause : BitVec 12 := 0
  injCause : Word := 0
  monIn : Reg32 := 0
  monOut : Reg32 := 0
  /-- the two own comparators -/
  cmp : Map Cmp := []
  deriving DecidableEq, Repr

/-- An engine (R30, R37, R38, R62, R67, R74). -/
structure Eng where
  /-- ENG_CTX_EN -/
  ctxEn : BitVec 16 := 0
  /-- ENG_IRQEN[k].MASK by k -/
  irqMask : Map (BitVec 24) := []
  /-- ENG_IRQEN[k].SWI -/
  swi : Marks 16 := {}
  /-- the engine is held in reset: ENG_STATUS.RUN reads 0b10 at reset (R74) -/
  inReset : Bool := true
  /-- halted by the debugger: RUN reads 0b01 -/
  halted : Bool := false
  /-- a reset of the engine falls due at this `now` (R164, R418) -/
  resetAt : Option Nat := none
  /-- resets of contexts fall due: the mask, and `now` -/
  ctxResetAt : Option (Nat × BitVec 16) := none
  /-- ENG_STATUS.WERR -/
  werr : Flag := {}
  /-- the round-robin pointers of R31, 15 after reset -/
  rrHi : BitVec 4 := 15
  rrLo : BitVec 4 := 15
  /-- the contexts of the last three issues, the last first (R30) -/
  recent : List CtxId := []
  /-- the channel-ready queue (R62) -/
  rdyHi : List Chan := []
  rdyLo : List Chan := []
  /-- ENG_SWAPCNT, ENG_CSCONF, ENG_ISSUE, ENG_AFXLATE -/
  swapCnt : Tally 32 := {}
  csConf : Tally 32 := {}
  issue : Tally 48 := {}
  afxLate : Tally 16 := {}
  /-- ENG_LBUF.BASE and LAST, and the words of the range captured so far by offset (R67) -/
  lbBase : CsAddr := 0
  lbLast : BitVec 6 := 0
  lbBuf : Map (Option PWord) := []
  /-- a range has been set since reset -/
  lbOn : Bool := false
  /-- ENG_EVSEL[k] -/
  evSel : Map Reg32 := []
  /-- requests pending under the 32 tags (R38) -/
  tags : Map (Option Pend) := []
  /-- GEN of each tag (R70) -/
  tagGen : Map (BitVec 2) := []
  /-- the Affix queue: the tags whose requests wait, in issue order (R70) -/
  afxQ : List (BitVec 5) := []
  /-- the divider (R37) -/
  div : Option Divide := none
  /-- the shadow banks -/
  xb1 : Bank := {}
  xb2 : Bank := {}
  /-- contexts waiting for the level-1 bank, earliest exception first (R161) -/
  waitq : List CtxId := []
  /-- the copy of ENG_INJ_D of each origin (R275) -/
  injD : Map MWord := []
  /-- ENG_INJ_CTL.CTX and SYS, DONE and ERR -/
  injCtx : CtxId := 0
  injSys : Bool := false
  injDone : Flag := {}
  injErr : Flag := {}
  /-- debug -/
  dbg : EngDebug := {}
  /-- the watchdog's deadline on `now` while it runs; its remaining ticks while it is held (R452, R453) -/
  wdDeadline : Option Nat := none
  wdHeld : Nat := 0
  deriving DecidableEq, Repr

/-! ### Timers (07_tense_timers.md) -/

/-- A timer (R199..R209). Its residue is `now - base` while it counts and `held` while it does not. -/
structure Timer where
  /-- TMR_CFG: RUN, ARM, MODE, PRESC, DBGRUN, CAPEN, CAPEDGE, CAPSEL in the register's bits [17:0] -/
  cfg : BitVec 18 := 0
  /-- the prescaler exponent of the step now running (R204) -/
  p : BitVec 4 := 0
  cmpf : Flag := {}
  wrap : Flag := {}
  capf : Flag := {}
  ovr : Flag := {}
  madeup : Flag := {}
  /-- DIR: counting down -/
  down : Bool := false
  count : Word := 0
  cmp : Word := 0
  rld : Word := 0xFFFFFFFFFFFF
  cap : Word := 0
  /-- the compare is armed (R208) -/
  armed : Bool := true
  /-- the `now` of the last tick in which evaluation is not yet allowed -/
  armedAt : Nat := 0
  /-- `now` at which the residue was 0, while it counts -/
  base : Nat := 0
  /-- the residue while it does not count -/
  held : Nat := 0
  /-- held by a debug halt (R216) -/
  frozen : Bool := false
  deriving DecidableEq, Repr

/-! ### Lane groups (09_lane_groups.md) -/

/-- A lane queue under its lowest member (R261, R262). -/
structure Queue where
  entries : List Word := []
  /-- BITPOS of a TX queue, ASM of an RX queue -/
  pos : BitVec 6 := 0
  /-- the partial entry of an RX queue -/
  part : Word := 0
  /-- a completed RX entry held back because the queue is full (R270) -/
  back : Option Word := none
  deriving DecidableEq, Repr

/-- A pin group: its descriptor registers, its shifter and its capture unit (R264..R279). -/
structure PinGroup where
  /-- LANE_PGA, LANE_PGB, LANE_PGC -/
  pga : Reg32 := 0
  pgb : BitVec 24 := 0
  pgc : BitVec 24 := 0
  /-- the context that holds the group, and the level of its shift word -/
  owner : Option CtxNo := none
  lvl : Lvl := .prog
  /-- the descriptor that the shifter latched at the grant (R266) -/
  dA : Reg32 := 0
  dB : BitVec 24 := 0
  dC : BitVec 24 := 0
  /-- LANEOP 4 SHO, 5 SHI, 6 SHX; the word's LQ -/
  op : BitVec 5 := 0
  lq : BitVec 4 := 0
  /-- bit times to run, and completed -/
  bits : Nat := 0
  done : Nat := 0
  /-- `now` at which the present bit time began, and before which the next one does not begin -/
  began : Option Nat := none
  notBefore : Nat := 0
  /-- the input levels sampled in the present bit time -/
  sample : Option (BitVec 16) := none
  /-- stopped at a boundary (R272) -/
  stopped : Bool := false
  /-- levels of the data-out lanes in the last bit time, and in the present one -/
  outPrev : BitVec 16 := 0
  outCur : BitVec 16 := 0
  /-- the last release: `now`, descriptor, operation and LQ of the word that held the group -/
  rel : Option (Nat × Reg32 × BitVec 5 × BitVec 4) := none
  /-- capture unit (R279) -/
  armed : Bool := false
  capf : Flag := {}
  ovr : Flag := {}
  capOwner : Chan := 0
  capTick : Tick := 0
  capLevel : BitVec 16 := 0
  capEdges : BitVec 16 := 0
  deriving DecidableEq, Repr

/-- A shift word that waits for its pin group (R273). -/
structure ShiftReq where
  n : CtxNo
  g : BitVec 4
  op : BitVec 5
  lq : BitVec 4
  bits : Nat
  /-- the bit that it begins with (R137) -/
  done : Nat
  lvl : Lvl
  at_ : Nat
  deriving DecidableEq, Repr

/-- A lane group (R257, R281). -/
structure Lanes where
  out : BitVec 16 := 0
  oen : BitVec 16 := 0
  /-- the sampled input levels; no level at reset is stated: DESIGN CHOICE 0 -/
  levels : BitVec 16 := 0
  qcfg : BitVec 15 := 0
  qerr : Flag := {}
  qfault : Flag := {}
  tx : Map Queue := []
  rx : Map Queue := []
  pgs : Map PinGroup := []
  /-- requests for pin groups, earliest first -/
  reqs : List ShiftReq := []
  /-- the staged LANE_TXPUSH bits, by origin and queue -/
  staged : Map Reg32 := []
  deriving DecidableEq, Repr

/-! ### Clusters (06_control_store.md) -/

/-- CLU_CS_VERSION.STATE (R179). -/
inductive CsState where
  | empty | loading | loaded | patching | repair | out
  deriving DecidableEq, Repr

/-- A barrier generation (R95). -/
structure Barrier where
  n : Nat := 0
  members : List CtxNo := []
  deriving DecidableEq, Repr

/-- A control-store repair that waits or runs (R189, R190). -/
structure Repair where
  /-- the address that was read -/
  addr : CsAddr
  /-- the repair has ended and its contexts wait for CS_REPAIR_END -/
  ended : Bool := false
  deriving DecidableEq, Repr

/-- A cluster: its control-store registers, timer block, lanes, barriers and sleep state. -/
structure Clu where
  patch : BitVec 16 := 0
  body : BitVec 4 := 0
  state : CsState := .empty
  image : Reg32 := 0
  /-- CLU_PM_ACTIVE -/
  pmActive : BitVec 8 := 0
  raddr : CsAddr := 0
  rbusy : Bool := false
  /-- CLU_CS_RDATA: no reset value stated; DESIGN CHOICE 0 -/
  rdata : PWord := 0
  policy : BitVec 2 := 0
  perr : Tally 16 := {}
  mchk : Reg32 := 0
  /-- the committed patch table CLU_PM[i], and the generation before it -/
  pm : Map Reg32 := []
  pmOld : Map Reg32 := []
  /-- engines that have not activated the committed generation (R184) -/
  pmWait : BitVec 8 := 0
  /-- the generation in progress is a repair: PATCH does not increment (R189) -/
  pmRepair : Bool := false
  /-- the staged golden generation: a package's words, by patch-area offset (R183 step 1) -/
  stagedPm : List (BitVec 9 × PWord) := []
  /-- PATCH_APPLY has answered with this cluster waiting: PATCHDONE is owed (R399) -/
  pmLate : Bool := false
  /-- CLU_XVBASE -/
  xvBase : BitVec 8 := 0
  xvValid : Bool := false
  /-- repairs in the order of their detection -/
  repairs : List Repair := []
  /-- the last repair of each address: `now` (R189 step 3) -/
  lastRepair : Map Nat := []
  /-- timers by index (R198) -/
  timers : Map Timer := []
  /-- TMR_WSEL and the staged bits, by origin (R201) -/
  wsel : Map (BitVec 10) := []
  wlo : Map Reg32 := []
  lanes : Lanes := {}
  bars : Map Barrier := []
  /-- CLU_SLEEP: EN and IDLE in the register's bits (R435) -/
  sleepCfg : Reg32 := 0x00400000
  asleep : Bool := false
  /-- `now` since which the idle conditions hold, and `now` of the last wake trigger since the cluster last slept -/
  idleSince : Option Nat := none
  trigAt : Option Nat := none
  /-- a reset of the cluster falls due at this `now` (R418) -/
  resetAt : Option Nat := none
  /-- the cluster enters OUT at this `now`; true by a reaction, which enters RECOVER with it (R191, R445) -/
  outAt : Option (Nat × Bool) := none
  /-- CLUSTER_SLEEP has come in the tick of this `now`: the cluster sleeps unless a trigger comes in it (R431, R432) -/
  sleepAt : Option Nat := none
  /-- the Affix port's round-robin pointer over the engines (R522, R535) -/
  afxRr : BitVec 3 := 7
  /-- the pool comparators, DBG_POOL.AERR, DBG_MONVEC (R473, R484) -/
  pool : Map Cmp := []
  aerr : Flag := {}
  monEntry : CsAddr := 0
  monValid : Bool := false
  deriving DecidableEq, Repr

/-! ### Data memory (08_data_memory.md) -/

/-- A region entry (R250): BASE, LIMIT and CTL registers. -/
structure Rgn where
  base : BitVec 14 := 0
  limit : BitVec 14 := 0
  ctl : Reg32 := 0
  deriving DecidableEq, Repr

/-- The registers of one memory unit: a section's main banks (0..7), or the dual-port region (8). -/
structure MemUnit where
  /-- SEC_CHBASE.BASE: 4s + 3 for section s at reset (R58) -/
  chBase : BitVec 5 := 0
  ilv : Bool := false
  act : Bool := false
  lease : BitVec 24 := 0x003E80
  expired : Tally 16 := {}
  full : Tally 16 := {}
  starvK : BitVec 5 := 0b01110
  eccCe : Tally 32 := {}
  eccUe : Tally 16 := {}
  eccLast : BitVec 24 := 0
  scrubEn : Bool := true
  scrubRate : BitVec 4 := 0b0110
  /-- next row to scrub of each bank -/
  scrubRow : Map Nat := []
  starv : Map (Tally 16) := []
  /-- SEC_REPAIR / INST_DPR_REPAIR, from the fuses -/
  repair : Map (BitVec 4) := []
  rgn : Map Rgn := []
  /-- INST_DPR_SUSP and INST_DPR_SUSP_LAST (R241) -/
  susp : Tally 16 := {}
  suspLast : BitVec 19 := 0
  deriving DecidableEq, Repr

/-- An access to a line of the dual-port region in the present tick (R240). -/
structure Touch where
  /-- address / 8 -/
  line : Nat
  /-- on port B, the spine's; else on port A, the engines' -/
  spine : Bool
  write : Bool
  /-- the line's bytes before the access -/
  old : List (BitVec 8)
  deriving DecidableEq, Repr

/-- A leased reservation (R245). -/
structure Lease where
  /-- the unit whose table holds it: 0..7 a section, 8 the dual-port region -/
  unit : Nat
  owner : CtxNo
  addr : Nat
  /-- expiry on `now` -/
  expiry : Nat
  /-- `now` at which the owner's debug halt began to hold it (R476), and the ticks held before -/
  heldSince : Option Nat := none
  held : Nat := 0
  deriving DecidableEq, Repr

/-! ### Event fabric (01_fabric.md R22, 02 R47, 07 R219..R222) -/

/-- An event of R46 and R219. -/
inductive Ev where
  /-- a numbered event that is not local -/
  | num (n : BitVec 10)
  /-- compare, and wrap or turn at zero, of a cluster timer: cluster, i -/
  | ctmr (c : CluId) (i : BitVec 3)
  | cwrap (c : CluId) (i : BitVec 3)
  /-- compare of engine timer k of an engine -/
  | etmr (e : EngId) (k : BitVec 2)
  /-- a channel-addressed event of source 40 + s -/
  | chan (s : BitVec 3) (ch : Chan)
  deriving DecidableEq, Repr

/-- A stamped event on its way to its latches (R22). -/
structure Stamped where
  stamp : Tick
  /-- the same instant on `now`, and the count of steps of TICK_NOW before it: stamps on either side of a step are not comparable (R194) -/
  at_ : Nat
  era : Nat := 0
  ev : Ev
  deriving DecidableEq, Repr

/-- A pin change that an event has scheduled on EVT_OUT[n] (R222). -/
structure PinChange where
  n : BitVec 5
  /-- `now` at whose end the pin changes -/
  at_ : Nat
  stamp : Tick
  era : Nat := 0
  toggle : Bool
  deriving DecidableEq, Repr

/-- The event fabric and the Tense registers (R193, R219..R222). -/
structure Fabric where
  /-- stamped events not yet delivered, in stamp and precedence order -/
  queue : List Stamped := []
  /-- the channel event table: entries of sources 40..47 by channel (R47) -/
  chEv : Map (BitVec 8) := []
  goTick : Tick := 0
  /-- a GO release falls due at this `now` -/
  goAt : Option Nat := none
  /-- INST_TIMER_GO.PEND, and `now` of the write -/
  goatAt : Option Nat := none
  /-- the first tick after that write lay past INST_GO_TICK (R212) -/
  goatLate : Bool := false
  /-- timers whose count a write has left above RLD, with the `now` of the write: corrected in the next tick (R207) -/
  fixes : List (CluId × Nat × Nat) := []
  stepped : Flag := {}
  /-- how many steps TICK_NOW has taken (R194, R363) -/
  era : Nat := 0
  golate : Flag := {}
  /-- `now` of the last TICKSEC, and a multiple of 10^9 that R368 skipped and TICKSEC has not yet raised (R219) -/
  ticksecAt : Option Nat := none
  /-- R368 has skipped the value before the present one, and this is the first tick after -/
  skipped : Bool := false
  ticksecSkip : Bool := false
  /-- INST_EVTOUT[n] -/
  evtOut : Map Reg32 := []
  /-- EVT_OUT pin levels, and the `now` at which a running pulse ends -/
  pins : BitVec 32 := 0
  pulseEnd : Map Nat := []
  /-- levels that a change of MODE drives from the next tick, and `now` + 1 of the last write that changed MODE or SEL -/
  drives : List (BitVec 5 × Bool) := []
  evtWrit : Map Nat := []
  sched : List PinChange := []
  /-- EVT_IN levels sampled last; no level at reset is stated: DESIGN CHOICE 0 -/
  evtIn : BitVec 32 := 0
  deriving DecidableEq, Repr

/-! ### The Imperative partition (15_imperative_faults.md) -/

/-- A record in a source's holding slot (R442, R455). -/
structure Slot where
  /-- tick of detection, and the same instant on `now` -/
  stamp : Tick
  at_ : Nat
  code : Byte
  info : BitVec 24
  mult : BitVec 8 := 0
  inj : Bool := false
  real : Bool := true
  /-- real events that count towards promotion -/
  counts : Nat := 1
  /-- of an injected event: its code, REACT and COUNT -/
  injCode : Byte := 0
  injReact : Bool := false
  /-- how many held records were ahead of it at its detection (R442) -/
  queue : Nat := 0
  deriving DecidableEq, Repr

/-- A logged record (R441). -/
structure LogRec where
  stamp : Tick := 0
  src : BitVec 16 := 0
  code : Byte := 0
  lvl : Byte := 0
  seq : BitVec 16 := 0
  mult : Byte := 0
  info : BitVec 24 := 0
  deriving DecidableEq, Repr

/-- A watchdog's configuration (R460 IMP_WDOG). -/
structure Wdog where
  en : Bool := false
  per : BitVec 5 := 0b11011
  deriving DecidableEq, Repr

/-- A source's promotion state (R447, R448, R460). -/
structure SrcState where
  /-- IMP_SRC_CFG[i]: THRESH, WEXP, LOGOFF -/
  cfg : BitVec 14 := 0b00_1010_0001_0000
  count : Nat := 0
  /-- window start on `now` -/
  start : Nat := 0
  young : Bool := true
  /-- `now` from which W counts for YOUNG -/
  youngAt : Nat := 0
  deriving DecidableEq, Repr

/-- The Imperative partition (R436, R460). -/
structure Imp where
  slots : Map (Option Slot) := []
  srcs : Map SrcState := []
  log : Map LogRec := []
  /-- number of records logged so far (SEQ is its low 16 bits) -/
  logged : Nat := 0
  /-- `now` of the last reaction (one every 5 ticks) -/
  lastReact : Option Nat := none
  /-- read pointers as counts of records, and lost counts, of HREG and IREG -/
  rdH : Nat := 0
  rdI : Nat := 0
  lostH : Tally 16 := {}
  lostI : Tally 16 := {}
  unack : Marks 16 := {}
  /-- IMP_CLASS_CFG[k]: bit 0 L3POL, bit 1 ESCEN -/
  classCfg : Map (BitVec 2) := []
  /-- IMP_PIN.LEVEL, the level that the pin now takes, the `now` of a level change, and of a pulse's start and end -/
  pinLevel : Bool := true
  pulse : Option (Nat × Nat) := none
  pinWrite : Option (Nat × Bool) := none
  pinHold : Bool := true
  /-- IMP_WDOG_CFG -/
  dbgFreeze : Bool := true
  synEn : Bool := true
  synPer : BitVec 5 := 0b11000
  /-- deadline of the Syntax watchdog on `now` -/
  synDeadline : Option Nat := none
  bites : Tally 16 := {}
  wdogs : Map Wdog := []
  /-- IMP_INJ fields SRC, CODE, REACT, COUNT in the register's bits; ERR; INFO -/
  inj : Reg32 := 0
  injErr : Flag := {}
  injInfo : BitVec 24 := 0
  testOpen : Bool := false
  /-- IMP_MODECTL.STOP -/
  stopReq : Bool := false
  keyValid : Bool := false
  keyRevoked : Bool := false
  /-- the key digest, byte i in bits [8i+7:8i] -/
  keyDig : BitVec 384 := 0
  deriving DecidableEq, Repr

/-! ### DMA channels (10_dma.md) -/

/-- A descriptor set (R285, R287). -/
structure DmaSet where
  src : BitVec 52 := 0
  dst : BitVec 52 := 0
  /-- COUNT of a shadow set; beats not yet issued of the active set -/
  count : BitVec 20 := 0
  cfg : Reg32 := 0
  tenant : Tenant := 0
  owner : Chan := 0
  ownv : Bool := false
  csn : Word := 0
  ring : BitVec 12 := 0
  deriving DecidableEq, Repr

/-- DMA_STAT.STATE (R285). -/
inductive DmaState where
  | idle | armed | run | waitc | pausing | paused | error
  deriving DecidableEq, Repr

/-- Where an issued beat stands (R291). -/
inductive BeatStage where
  /-- its host read is outstanding -/
  | hostRead
  /-- its row reads are outstanding -/
  | localRead
  /-- its host write is outstanding -/
  | hostWrite
  /-- its row writes are outstanding, with their bytes -/
  | localWrite (bytes : List Byte)
  deriving DecidableEq, Repr

/-- An issued beat. -/
structure DmaBeat where
  idx : Nat
  stage : BeatStage
  deriving DecidableEq, Repr

/-- A DMA channel (R285). -/
structure Dma where
  sh : DmaSet := { cfg := 0x3FF00000 }
  arm : Bool := false
  act : DmaSet := {}
  aBeat : BitVec 20 := 0
  aDone : BitVec 20 := 0
  st : DmaState := .idle
  errCode : BitVec 3 := 0
  pauseReq : Bool := false
  aborted : Flag := {}
  povr : Flag := {}
  credits : BitVec 8 := 0
  /-- `now` of the last credit that an event added: events of one stamp count as one (R294) -/
  creditAt : Option Nat := none
  /-- the set's first credit has been spent -/
  started : Bool := false
  /-- beats that spent credits have released and the channel has not issued -/
  released : Nat := 0
  /-- an ABORT drains (R303) -/
  aborting : Bool := false
  errBeat : BitVec 20 := 0
  beats : Tally 32 := {}
  skips : Tally 32 := {}
  /-- beats issued and not yet answered; OUTST is their number -/
  out : List DmaBeat := []
  /-- failed beats of the set: index and ERRCODE -/
  failed : List (Nat × BitVec 3) := []
  /-- `now` of the last tick in which the channel became IDLE or its ARM was written (R299) -/
  armAt : Nat := 0
  /-- the item and SETNO of the active ledgered set, until it ends (R333) -/
  item : Option (BitVec 13 × Byte) := none
  deriving DecidableEq, Repr

/-! ### Host ports (10 R290..R293, 18 R514, R515) -/

/-- An access of a ring to host memory (R322, R315, R329). -/
inductive RingAccess where
  | fetch (first : Word) (n : Nat)
  | head
  | compl (csn : Word)
  deriving DecidableEq, Repr

/-- Who made a host request. -/
inductive HostUser where
  /-- beat `i` of DMA channel `n` -/
  | dma (n : BitVec 8) (i : Nat)
  /-- the descriptor of count `c` of a ring, in the fetch that begins at `first` -/
  | desc (r : BitVec 12) (first c : Word)
  /-- an accept-head write, and a completion-record write, with the repeats already made -/
  | head (r : BitVec 12) (tries : Nat)
  | compl (r : BitVec 12) (csn : Word) (tries : Nat)
  /-- a payload refetch of an entry, for the item with this CSN -/
  | refetch (entry : BitVec 13) (csn : Word)
  /-- a requester that a reset has abandoned: the response is discarded (R310) -/
  | orphan
  deriving DecidableEq, Repr

/-- An outstanding host request under a tag (R293, R514). -/
structure HostReq where
  user : HostUser
  /-- host byte address -/
  addr : BitVec 52
  tenant : Tenant
  /-- the bytes that a write carries -/
  data : List Byte
  /-- issue tick on `now` -/
  at_ : Nat
  deriving DecidableEq, Repr

/-- A host port: outstanding reads and writes by slot, and the generation of each slot (R293, R515). -/
structure HostPort where
  reads : Map (Option HostReq) := []
  writes : Map (Option HostReq) := []
  rdGen : Map (BitVec 2) := []
  wrGen : Map (BitVec 2) := []
  deriving DecidableEq, Repr

/-! ### The Concord unit: what it keeps outside the ledger in the dual-port region (11_concord_ledger.md) -/

/-- A failed access of a ring to host memory that waits for its repeat (R331). -/
structure RingRetry where
  acc : RingAccess
  /-- the repeats that will have been made after it -/
  tries : Nat
  /-- the bytes of a write -/
  data : List Byte
  /-- `now` at which it is repeated; none while HOSTERR holds it -/
  due : Option Nat
  deriving DecidableEq, Repr

/-- A descriptor fetch (R322): the descriptors from count `first` on that are not yet consumed. -/
structure DescFetch where
  first : Word
  n : Nat
  /-- beats not yet answered -/
  left : Nat
  /-- a beat of it has failed -/
  bad : Bool := false
  /-- repeats already made -/
  tries : Nat := 0
  /-- descriptors that have arrived, by count -/
  data : Map Beat := []
  deriving DecidableEq, Repr

/-- What the Concord unit keeps of a ring outside its record. -/
structure Ring where
  tail : Reg32 := 0
  /-- the accept head as RING_ACC shows it: behind NEXTCSN while a partner's acknowledgement is awaited (R346) -/
  acc : Word := 0
  dberr : Flag := {}
  hosterr : Flag := {}
  limit : Flag := {}
  /-- both copies of one of its structures are uncorrectable: the ring is HELD (R341) -/
  bad : Bool := false
  /-- the ring drains under a partial QUIESCE: no fetch (R416) -/
  quiet : Bool := false
  fetches : List DescFetch := []
  /-- the accept head has changed since its last write; a write of it is outstanding (R315) -/
  headDirty : Bool := false
  headOut : Bool := false
  /-- completion records written and not answered OK, and answered OK but not yet retired, by CSN (R329) -/
  sent : List Word := []
  okd : List Word := []
  /-- entries whose DONE the partner has acknowledged (R378) -/
  doneAck : List (BitVec 13) := []
  retries : List RingRetry := []
  /-- HELD because its partner is lost: the state it had before (R379) -/
  lostFrom : Option (BitVec 3) := none
  /-- items that a forced RING_DESTROY has retired (R398) -/
  abandoned : Nat := 0
  deriving DecidableEq, Repr

/-- What waits for the acknowledgement of a MIRROR update (R378). -/
inductive MirAct where
  | commit (e : BitVec 13)
  | append (n : BitVec 8)
  | done (e : BitVec 13)
  | retire (r : BitVec 12) (e : BitVec 13)
  | none
  deriving DecidableEq, Repr

/-- A MIRROR update sent to `peer`, complete once the flit numbered `last` is acknowledged. -/
structure MirWait where
  peer : BitVec 9
  last : Nat
  act : MirAct
  deriving DecidableEq, Repr

/-- The Concord unit. -/
structure Concord where
  rings : Map Ring := []
  /-- work queues by channel: entries, the head first (R325) -/
  queues : Map (List (BitVec 13)) := []
  /-- entries assigned to rings: EBASE, WIN and ring (R311, R376) -/
  ranges : List (Nat × Nat × BitVec 12) := []
  /-- items HELD, waiting for their ACTSETS (R337) -/
  held : List (BitVec 13) := []
  /-- payloads being fetched again (R342) -/
  refetch : List (BitVec 13) := []
  /-- entries of rings taken over whose payloads lie only in host memory (R377, R380) -/
  missing : List (BitVec 13) := []
  mirWaits : List MirWait := []
  jfull : Flag := {}
  /-- a beat waits for a journal record: one record an episode (R335) -/
  jWaiting : Bool := false
  mirfix : Flag := {}
  /-- lower-copy offsets of the structures whose two copies have been found bad: one record each (R341) -/
  bothBad : List Nat := []
  /-- free journal records -/
  jfree : Nat := 8192
  accepts : Tally 32 := {}
  rejects : Tally 32 := {}
  replays : Tally 32 := {}
  retires : Tally 32 := {}
  deriving DecidableEq, Repr

/-- The registers that exist once for each origin (R350, R383, R197, R489, R201). -/
structure OrgRegs where
  icsn : Word := 0
  iring : BitVec 12 := 0
  rval : Reg32 := 0
  dstat : BitVec 2 := 0
  txD : Map Reg32 := []
  txDst : BitVec 25 := 0
  txDue : Word := 0
  txStat : BitVec 3 := 0
  /-- Tirnis holding register: which pair was read last, and its high half -/
  tirPair : Option Nat := none
  tirHi : Reg32 := 0
  /-- HEAD_SHW_ADDR and HEAD_SHW_LO by head -/
  shwAddr : Map Reg32 := []
  shwLo : Map Reg32 := []
  deriving DecidableEq, Repr

/-! ### Federation (12_conjunction.md) -/

/-- A sequenced flit not yet acknowledged, with its number (R356). -/
structure TxFlit where
  num : Nat
  flit : Flit
  port : BitVec 2
  deriving DecidableEq, Repr

/-- A sequenced send that waits for room (R356, R360): its flit, number, the FED_TX origin, the time it began. -/
structure TxWait where
  num : Nat
  flit : Flit
  org : Option Nat
  at_ : Nat
  deriving DecidableEq, Repr

/-- The two directions of the pair with a peer (R356..R358, R379). -/
structure Pair where
  /-- number of the next sequenced flit, and of the oldest that is not acknowledged; SEQ is the number modulo 2^16 -/
  next : Nat := 0
  acked : Nat := 0
  buf : List TxFlit := []
  wait : List TxWait := []
  /-- `now` from which RTO counts -/
  sentAt : Nat := 0
  /-- resends that covered nothing new -/
  resends : Nat := 0
  /-- a BUSY names this number, and its resend is due at this `now` -/
  busy : Option (Nat × Nat) := none
  /-- next SEQ expected from the peer -/
  rxNext : BitVec 16 := 0
  nakAt : Option Nat := none
  /-- `now` of the first acceptance that no flit has acknowledged yet -/
  ackDue : Option Nat := none
  /-- `now` of the last flit accepted from the peer, and of the last HEARTBEAT sent -/
  heard : Nat := 0
  beatAt : Nat := 0
  /-- the partner counts as lost (R379); its rings have been taken over (R380) -/
  lost : Bool := false
  taken : Bool := false
  deriving DecidableEq, Repr

/-- FED_PORT[n].STATE (R351). -/
inductive LinkState where
  | down | training | up | loopback
  deriving DecidableEq, Repr

/-- The master that a peer announces (R366): PRIO, ID, hops, and `now` of the announcement. -/
structure Announced where
  prio : Byte
  id : BitVec 9
  hops : Nat
  at_ : Nat
  deriving DecidableEq, Repr

/-- A calibrated item: an island crossing, or a link (R372..R374). -/
structure Calib where
  /-- calibrated delay in 1/1024 of its unit: receiving-island cycles of a crossing, 1/16 tick of a link -/
  value : Nat := 0
  young : Bool := true
  /-- samples since the present series began, and their sum -/
  samples : Nat := 0
  sum : Nat := 0
  /-- last sample -/
  last : Nat := 0
  /-- samples that the present TRIM still wants -/
  want : Nat := 0
  /-- a value has been measured in a TRIM -/
  trimmed : Bool := false
  /-- `now` of the last canary sample, and of the last retraining -/
  sampledAt : Option Nat := none
  retrainAt : Option Nat := none
  /-- a retraining runs -/
  busy : Bool := false
  deriving DecidableEq, Repr

/-- A conjunction port (R351, R383, R516, R518). -/
structure Port where
  st : LinkState := .down
  peer : BitVec 9 := 0
  /-- a flit has told the peer's ID (R355) -/
  known : Bool := false
  /-- FED_ASYM[n] -/
  asym : BitVec 16 := 0
  cal : Calib := {}
  ann : Option Announced := none
  /-- FEDERATE_JOIN asked for the port; its peer has accepted, or refused (R355, R363) -/
  asked : Bool := false
  accepted : Bool := false
  refused : Bool := false
  /-- flits sent on the port, oldest first: the outside world's view; nothing in the block reads it -/
  wire : List Flit := []
  deriving DecidableEq, Repr

/-- A timed message that waits for its DUE tick (R362), or for the end of an alarm (R371). -/
structure TimedMsg where
  slot : BitVec 11
  due : Tick
  chan : Chan
  /-- an alarm has held it: it is delivered LATE -/
  held : Bool := false
  deriving DecidableEq, Repr

/-- The federation unit (12_conjunction.md). -/
structure Fed where
  instId : BitVec 9 := 0
  joined : Bool := false
  master : Bool := false
  alarm : Bool := false
  parent : Option (BitVec 2) := none
  masterId : BitVec 9 := 0
  masterPrio : Byte := 0
  /-- `now` of the master's last confirmation -/
  masterAt : Nat := 0
  hops : Nat := 0
  prio : Byte := 0
  cfg : Reg32 := 0x08202000
  ofs : BitVec 16 := 0
  delay : BitVec 16 := 0
  alarmed : Flag := {}
  lateAt : Flag := {}
  retx : Tally 32 := {}
  crcerr : Tally 32 := {}
  ports : Map Port := []
  /-- PFLAGS of the last TRESP taken -/
  pflags : BitVec 3 := 0
  /-- FED_ROUTE[i]: PORT, VALID, HOPS, LOST in the register's bits -/
  routes : Map (BitVec 8) := []
  pairs : Map Pair := []
  round : BitVec 16 := 0
  annAt : Nat := 0
  /-- exchange number, `now` and send stamp of the last TSYNC -/
  xseq : BitVec 16 := 0
  syncAt : Nat := 0
  t1 : BitVec 52 := 0
  /-- consecutive exchanges with |θ| ≤ 32 (R371) -/
  good : Nat := 0
  /-- fractional phase in 1/16 tick, and exchanges made (R368) -/
  phase : BitVec 4 := 0
  exchanges : Nat := 0
  /-- what the next tick adds to the phase, and the whole ticks that TICK_NOW has still to be corrected by (R368): +1 a skip, −1
  a hold -/
  corr : Int := 0
  adjust : Int := 0
  /-- the last rate term, and `now` of its last use (R368, R370) -/
  rate : Int := 0
  rateAt : Nat := 0
  /-- `now` of the last end of an alarm (R371) -/
  calmAt : Option Nat := none
  /-- step of TICK_NOW that the next tick makes (R194, R363) -/
  load : Option Tick := none
  /-- `now` at which the present holdover began (R370) -/
  holdSince : Option Nat := none
  /-- receive slots in use, queues by channel, timed messages (R361, R362) -/
  slots : Map Bool := []
  rxq : Map (List (BitVec 11)) := []
  timed : List TimedMsg := []
  deriving DecidableEq, Repr

/-! ### The Syntax core (13_syntax_interfaces.md) -/

/-- SYN_STAT.STATE (R385). -/
inductive SynState where
  | reset | boot | ready | failed
  deriving DecidableEq, Repr

/-- A mailbox pair (R389). -/
structure Mbx where
  req : Map Reg32 := []
  rsp : Map Reg32 := []
  /-- 0 IDLE, 1 QUEUED, 2 RUNNING, 3 DONE -/
  st : BitVec 2 := 0
  werr : Flag := {}
  tag : BitVec 16 := 0
  deriving DecidableEq, Repr

/-- The binding record of a channel (R401). -/
structure Binding where
  upc : BitVec 16 := 0
  tenant : BitVec 16 := 0
  modeBits : Byte := 0
  stkBase : Word := 0
  evMask : BitVec 16 := 0
  wake : BitVec 16 := 0
  arg : Word := 0
  deriving DecidableEq, Repr

/-- A rebind that the Syntax core owes (R402): the cause of R404's REBOUND. -/
structure Rebind where
  chan : Chan
  cause : Byte
  /-- the tick of the reset or unfence (R404), and its `now` -/
  stamp : Tick := 0
  at_ : Nat := 0
  deriving DecidableEq, Repr

/-- A queued event of R404. -/
structure SynEvent where
  kind : BitVec 16
  stamp : Tick
  data : List Byte
  deriving DecidableEq, Repr

/-- The command that runs (R392): its pair, `now` of its start, EFFECT, a count or mask that it keeps, and how far it
has come. -/
structure Running where
  pair : BitVec 6
  since : Nat
  effect : Tick := 0
  aux : Nat := 0
  stage : Nat := 0
  deriving DecidableEq, Repr

/-- The Syntax core. -/
structure Syn where
  st : SynState := .reset
  /-- SYN_CFG: MBXIRQ, EVIRQ, G1EN in the register's bits -/
  cfg : BitVec 7 := 0b1001000
  mbx : Map Mbx := []
  /-- accepted commands by pair, the first to run first (R392) -/
  queue : List (BitVec 6) := []
  run : Option Running := none
  done : Marks 64 := {}
  evLost : Tally 16 := {}
  heartbeat : Reg32 := 0
  beatAt : Nat := 0
  evq : List SynEvent := []
  evSeq : BitVec 16 := 0
  /-- the event that is posted and not acknowledged; `now` of the last EVACK -/
  posted : Option SynEvent := none
  evackAt : Option Nat := none
  hirqPend : Marks 8 := {}
  hirqEn : Byte := 0
  binds : Map (Option Binding) := []
  rebinds : List Rebind := []
  /-- bodies of the loaded image, as the header gives them (R178): COUNT of each -/
  bodies : Map Nat := []
  deriving DecidableEq, Repr

/-! ### Raster heads (17_raster_heads.md) -/

/-- A line action (R490): line, message without stamp, `now` of the write. -/
structure LineAction where
  line : BitVec 16
  msg : BitVec 96
  deriving DecidableEq, Repr

/-- A message on its way to RCOM_ (R492, R493). -/
structure RcomMsg where
  stamp : Tick
  at_ : Nat
  shadow : Bool
  msg : BitVec 96
  deriving DecidableEq, Repr

/-- A raster head (R487..R501). -/
structure Head where
  en : Bool := false
  tol : BitVec 20 := 0x003E8
  /-- FRAME strobes seen since the head became YOUNG: 0, 1, or 2 and more -/
  frames : Nat := 0
  discont : Flag := {}
  clean : BitVec 2 := 0
  hold : Bool := false
  latch : Bool := false
  ovf : Flag := {}
  pviol : Flag := {}
  ladrop : Flag := {}
  foreign : Flag := {}
  chan : Option Chan := none
  frame : Word := 0
  line : BitVec 16 := 0
  fstamp : Tick := 0
  fper : Reg32 := 0
  l0ofs : Reg32 := 0
  lper16 : Reg32 := 0
  lines : BitVec 16 := 0
  lcmp : BitVec 16 := 0xFFFF
  /-- LINE strobes since the last FRAME, the stamp of line 0 where it has come, and of the last one -/
  lcount : Nat := 0
  l0 : Option Tick := none
  lstamp : Tick := 0
  laq : List LineAction := []
  underrun : BitVec 16 := 0
  clone : BitVec 9 := 0
  /-- IMP_PL_: EN, LAYER, ADDR, DATA, the protected latch, commits forwarded -/
  plEn : Bool := false
  plLayer : BitVec 4 := 0xF
  plAddr : BitVec 12 := 0
  plData : Word := 0
  plLatch : Bool := false
  plCnt : Tally 16 := {}
  deriving DecidableEq, Repr

/-- The raster unit. -/
structure Raster where
  heads : Map Head := []
  /-- the outbound queue in sending order -/
  rcom : List RcomMsg := []
  /-- `now` of the last message sent, and the message with its LATE bit: the outside world's view -/
  sentAt : Option Nat := none
  sent : Option (BitVec 96) := none
  deriving DecidableEq, Repr

/-! ### Debug access (16_debug.md) -/

/-- A debug bus master access that waits for its bank (R477). -/
structure BusAccess where
  write : Bool
  addr : Word
  size : Nat
  data : Reg32
  at_ : Nat
  deriving DecidableEq, Repr

/-- The TAP's instruction register (R464). -/
inductive TapIr where
  | extest | sample | idcode | clamp | highz | scan | bypass
  deriving DecidableEq, Repr

/-- The instance's debug registers (R483) and the TAP (R464). -/
structure Dbg where
  side : Bool := false
  holdLease : Bool := false
  fuseEn : Bool := false
  /-- the manufacturer code of the fuses (R526) -/
  mfr : BitVec 11 := 0
  maddr : Word := 0
  mctl : BitVec 15 := 0x2000
  mdata : Reg32 := 0
  merr : BitVec 3 := 0
  sticky : Flag := {}
  bus : Option BusAccess := none
  pEn : Bool := false
  pActive : Bool := false
  pSeed : Reg32 := 1
  /-- the perturbation LFSR -/
  lfsr : Reg32 := 1
  pMem : BitVec 18 := 0
  pHost : BitVec 12 := 0
  pQueue : BitVec 23 := 0
  pXing : BitVec 9 := 0
  pDma : BitVec 20 := 0
  pCnt : Tally 32 := {}
  /-- PERTURB_DMA: the present window of 1,024 ticks, and the beats that each channel has issued in it -/
  dmaWin : Nat := 0
  dmaCnt : Map Nat := []
  tap : TapIr := .bypass
  /-- the selected data register's captured value: IDCODE, or 0 for the bypass bit -/
  tapDr : Reg32 := 0
  /-- the boundary cells: LGnn_ O and OE by cluster, then I by cluster, EVT_IN, EVT_OUT, HIRQ and FAULT_OUT_N -/
  cells : List Reg32 := []
  deriving DecidableEq, Repr

/-! ### Modes, sections and resets (14_modes_startup.md) -/

/-- The eight modes (R406). -/
inductive Mode where
  | off | wake | test | load | trim | service | recover | quiesce
  deriving DecidableEq, Repr

/-- A section (R411..R414). -/
structure Sec where
  fenced : Bool := true
  powered : Bool := false
  req : Bool := false
  ack : Bool := false
  /-- `now` of the last change of REQ that ACK has not followed -/
  reqAt : Option Nat := none
  /-- its banks are being cleared (R254) -/
  clearing : Bool := false
  /-- the control stores and golden slots must be rebuilt before the unfence (R412) -/
  rebuild : Bool := false
  /-- a golden slot has missed a commit while the section was fenced (R183) -/
  stale : Bool := false
  /-- a fence, a section reset falls due at this `now` -/
  fenceAt : Option Nat := none
  resetAt : Option Nat := none
  deriving DecidableEq, Repr

/-- The mode supervisor (R408..R434). -/
structure Sup where
  stopped : Bool := false
  qdone : Bool := false
  trimv : Bool := false
  ret : Mode := .service
  /-- the mode before the last block reset; none after a cold start -/
  before : Option Mode := none
  /-- in block reset, BRST_N low: no warm WAKE yet -/
  inReset : Bool := false
  brst : Bool := false
  cause : BitVec 4 := 0
  count : BitVec 16 := 0
  /-- a block reset falls due at this `now`, with its RSTCAUSE; a stop falls due -/
  resetAt : Option (Nat × BitVec 4) := none
  stopAt : Option Nat := none
  /-- `now` at which RECOVER was entered, and sections fenced in it -/
  recoverAt : Nat := 0
  recoverSecs : Nat := 0
  /-- SECMASK of the QUIESCE in force -/
  secMask : Byte := 0
  /-- next fuse word to be returned (R526), and whether the repair fuses have been applied -/
  fuseIdx : Nat := 0
  fuseDone : Bool := false
  /-- `now` of the last block reset -/
  resetTick : Nat := 0
  deriving DecidableEq, Repr

/-! ### The register port -/

/-- A window with the offset inside it. -/
inductive Win where
  | inst (r : Nat)
  | imp (r : Nat)
  | tir (r : Nat)
  | syn (r : Nat)
  | mbx (m : BitVec 6) (r : Nat)
  | ring (n : BitVec 12) (r : Nat)
  | dma (n : BitVec 8) (r : Nat)
  | head (h : BitVec 8) (r : Nat)
  | fed (r : Nat)
  | sec (s : SecId) (r : Nat)
  | clu (c : CluId) (r : Nat)
  | eng (e : EngId) (r : Nat)
  | none
  deriving DecidableEq, Repr

/-- A read, or a write of a value. -/
inductive Acc32 where
  | read
  | write (d : Reg32)
  deriving DecidableEq, Repr

/-- An access that waits at its port: for a sleeping cluster, or behind another access (R432, R477, R512). -/
structure HeldAcc where
  org : Origin
  /-- its address is misaligned (R512) -/
  bad : Bool
  win : Win
  acc : Acc32
  deriving DecidableEq, Repr

/-! ### The block -/

/-- Everything of the block but the command queue. -/
structure Block where
  /-- CLK_FAB cycles since the block left OFF: what timers, timeouts, leases and watchdogs count (R194) -/
  now : Nat := 0
  /-- TICK_NOW (R20, R192) -/
  tick : Tick := 0
  /-- issue order of requests -/
  seq : Nat := 0
  /-- the parts that a rank 1 event of the present tick has reset or fenced, as runs of part numbers (R27) -/
  gone : List (Nat × Nat) := []
  /-- the model's own: how many free values (Config) have been drawn; no statement rests on it. DESIGN CHOICE 0 -/
  free : Nat := 0
  /-- the engine last granted by each bank of the control stores, by 16 × cluster + bank (R66, R535) -/
  csRr : Map (BitVec 3) := []
  mode : Mode := .off
  secs : Map Sec := []
  /-- contexts by context number, engines by engine ID, clusters by cluster ID -/
  ctxs : Map Ctx := []
  engs : Map Eng := []
  clus : Map Clu := []
  /-- control-store words: cluster ID × 16384 + address (R169); 0 after WAKE (R170) -/
  cs : Map PWord := []
  /-- memory units: sections 0..7, 8 the dual-port region -/
  units : Map MemUnit := []
  /-- data memory by address; an unlisted byte reads 0 (R254) -/
  mem : List Host.Cell := []
  /-- poisoned lines, as address / 8, rising (R243) -/
  poison : List Nat := []
  /-- corrected lines that wait for their write-back (R242) -/
  wbs : List Nat := []
  leases : List Lease := []
  /-- the accesses to the dual-port region in the present tick (R240) -/
  touched : List Touch := []
  fab : Fabric := {}
  imp : Imp := {}
  dma : Map Dma := []
  con : Concord := {}
  fed : Fed := {}
  syn : Syn := {}
  ras : Raster := {}
  dbg : Dbg := {}
  sup : Sup := {}
  /-- HP0 and HP1 -/
  hp : Map HostPort := []
  /-- per-origin registers: 0 HREG, 1 DAP, 2 Syntax core, 3 IREG, 16 + n context n -/
  org : Map OrgRegs := []
  /-- island crossings by island number (R439) -/
  xing : Map Calib := []
  /-- islands paused for a crossing retrain, with the `now` at which the pause began (R374) -/
  paused : Map (Option Nat) := []
  /-- the last answer of each register port: data, and STATUS (R511): 0 HREG, 1 DAP, 2 Syntax core, 3 IREG -/
  rsp : Map (Option (Reg32 × Bool)) := []
  /-- the accesses that wait at their ports, oldest first (R432, R512) -/
  held : List HeldAcc := []
  deriving DecidableEq, Repr

/-- The machine: the block, and the commands that wait, first in, first out. -/
structure State where
  pending : List Instr := []
  /-- the place, in the order of R24 and R28, of the last effect of the present tick; 0 before the first -/
  turn : Nat := 0
  blk : Block := {}
  deriving DecidableEq, Repr

/-- The machine right after power is applied: OFF, every field at its cold-reset value, no command waiting. -/
def State.reset : State := {}

end Sys2Proof.Machine
end

