-- ==== Sys2Proof/Machine/Map.lean ====
section
/-! DEFINITION. Sparse arrays, bit fields and bytes: the small operations that every other file of Machine/ uses. -/

namespace Sys2Proof.Machine

/-! ### Sparse arrays -/

/-- The value at index `k`; `d` where the array does not list `k`. -/
def Map.get {α : Type} (d : α) : Map α → Nat → α
  | [], _ => d
  | (i, v) :: m, k => if i = k then v else Map.get d m k

/-- The array without index `k`. -/
def Map.erase {α : Type} : Map α → Nat → Map α
  | [], _ => []
  | (i, v) :: m, k => if i = k then Map.erase m k else (i, v) :: Map.erase m k

/-- The array with `(k, v)` put before the first greater index. -/
def Map.insert {α : Type} : Map α → Nat → α → Map α
  | [], k, v => [(k, v)]
  | (i, w) :: m, k, v => if k < i then (k, v) :: (i, w) :: m else (i, w) :: Map.insert m k v

/-- Index `k` set to `v`: writing what an unlisted index reads as removes the entry. -/
def Map.set {α : Type} [DecidableEq α] (d : α) (m : Map α) (k : Nat) (v : α) : Map α :=
  if v = d then Map.erase m k else Map.insert (Map.erase m k) k v

/-- Index `k` changed by `f`. -/
def Map.mod {α : Type} [DecidableEq α] (d : α) (m : Map α) (k : Nat) (f : α → α) : Map α :=
  Map.set d m k (f (Map.get d m k))

/-- The canonical form: indexes strictly rising, no value equal to what an unlisted index reads as. -/
def Map.wf {α : Type} [DecidableEq α] (d : Nat → α) : Map α → Bool
  | [] => true
  | [(i, v)] => decide (v ≠ d i)
  | (i, v) :: (j, w) :: m => decide (v ≠ d i) && decide (i < j) && Map.wf d ((j, w) :: m)

/-! ### Bit fields of register words -/

/-- A Boolean as one bit at position `n` of a register. -/
def bit (n : Nat) (p : Bool) : Reg32 := if p then BitVec.ofNat 32 (2 ^ n) else 0

/-- A field placed at bit `n` of a register. -/
def fld {w : Nat} (n : Nat) (v : BitVec w) : Reg32 := (v.setWidth 32) <<< n

/-- A count placed at bit `n` of a register. -/
def fldN (n v : Nat) : Reg32 := BitVec.ofNat 32 (v * 2 ^ n)

/-- Bits [63:32] and [31:0] of a wide value. -/
def hi32 {w : Nat} (v : BitVec w) : Reg32 := v.extractLsb' 32 32
def lo32 {w : Nat} (v : BitVec w) : Reg32 := v.extractLsb' 0 32

/-- A 48-bit value with its low or its high half replaced. -/
def setLo (v : Word) (d : Reg32) : Word := (v.extractLsb' 32 16 ++ d : BitVec 48)
def setHi (v : Word) (d : Reg32) : Word := (d.extractLsb' 0 16 ++ v.extractLsb' 0 32 : BitVec 48)

/-- The bits of `old` under `mask` replaced by those of `new`. -/
def under {w : Nat} (mask old new : BitVec w) : BitVec w := (old &&& ~~~mask) ||| (new &&& mask)

/-- Bit `i` of a vector set to `p`. -/
def putBit {w : Nat} (v : BitVec w) (i : Nat) (p : Bool) : BitVec w :=
  if p then v ||| (BitVec.ofNat w (2 ^ i)) else v &&& ~~~(BitVec.ofNat w (2 ^ i))

/-- Number of ones. -/
def popcount {w : Nat} (v : BitVec w) : Nat := ((List.range w).filter (fun i => v.getLsbD i)).length

/-- Parity of a vector: true where the number of ones is odd. -/
def odd {w : Nat} (v : BitVec w) : Bool := popcount v % 2 == 1

/-- A counter field that wraps at its width. -/
def inc {w : Nat} (v : BitVec w) : BitVec w := v + 1

/-! ### Accumulating state (R13, R26) -/

/-- The flag is set. -/
def Flag.on (f : Flag) : Bool := f.old || f.at_.isSome
/-- It was set before the tick `now`: what a read in that tick returns. -/
def Flag.pre (now : Nat) (f : Flag) : Bool := f.old || f.at_.any (fun t => t != now)
/-- It is set in the tick `now`. -/
def Flag.set (now : Nat) (f : Flag) : Flag := { old := f.pre now, at_ := some now }
def Flag.setIf (now : Nat) (p : Bool) (f : Flag) : Flag := if p then f.set now else f
/-- It is cleared in the tick `now`: a set of the same tick survives. -/
def Flag.clear (now : Nat) (f : Flag) : Flag := if f.at_ = some now then { at_ := some now } else {}
def Flag.clearIf (now : Nat) (p : Bool) (f : Flag) : Flag := if p then f.clear now else f

/-- The bits that are set. -/
def Marks.on {w : Nat} (m : Marks w) : BitVec w := m.old ||| m.new
/-- The bits set before the tick `now`. -/
def Marks.pre {w : Nat} (now : Nat) (m : Marks w) : BitVec w := if m.at_ = now then m.old else m.on
/-- The bits set in the tick `now`. -/
def Marks.fresh {w : Nat} (now : Nat) (m : Marks w) : BitVec w := if m.at_ = now then m.new else 0
/-- Bits are set in the tick `now`. -/
def Marks.set {w : Nat} (now : Nat) (v : BitVec w) (m : Marks w) : Marks w :=
  { old := m.pre now, new := m.fresh now ||| v, at_ := now }
/-- Bits are cleared in the tick `now`: those set in the same tick survive. -/
def Marks.clear {w : Nat} (now : Nat) (v : BitVec w) (m : Marks w) : Marks w :=
  { old := m.pre now &&& ~~~v, new := m.fresh now, at_ := now }
/-- Bits leave, whenever they were set: what a WAIT consumes (R50), and what a reset or a spill takes away. -/
def Marks.drop {w : Nat} (v : BitVec w) (m : Marks w) : Marks w := { m with old := m.old &&& ~~~v, new := m.new &&& ~~~v }

/-- The count. -/
def Tally.val {w : Nat} (c : Tally w) : BitVec w := c.old + c.new
/-- The count before the tick `now`. -/
def Tally.pre {w : Nat} (now : Nat) (c : Tally w) : BitVec w := if c.at_ = now then c.old else c.val
/-- What the tick `now` has added. -/
def Tally.fresh {w : Nat} (now : Nat) (c : Tally w) : BitVec w := if c.at_ = now then c.new else 0
/-- The tick `now` adds `n`. -/
def Tally.count {w : Nat} (now : Nat) (n : BitVec w) (c : Tally w) : Tally w :=
  { old := c.pre now, new := c.fresh now + n, at_ := now }
/-- A write in the tick `now` puts `v`: what the same tick adds is added to it. -/
def Tally.put {w : Nat} (now : Nat) (v : BitVec w) (c : Tally w) : Tally w := { old := v, new := c.fresh now, at_ := now }
/-- A read in the tick `now` clears it: what the same tick adds survives. -/
def Tally.clear {w : Nat} (now : Nat) (c : Tally w) : Tally w := { new := c.fresh now, at_ := now }

/-! ### Time -/

/-- The half-range test of R53, R195, R209 and R212: `t` has been reached at `now`. -/
def reached (now t : Tick) : Bool := decide ((now - t).toNat < 2 ^ 47)

/-! ### Bytes, least significant first -/

/-- The `n` low bytes of a value. -/
def bytesOf {w : Nat} (n : Nat) (v : BitVec w) : List Byte :=
  (List.range n).map (fun i => v.extractLsb' (8 * i) 8)

/-- The number that bytes spell, the first the least significant. -/
def natOfBytes : List Byte → Nat
  | [] => 0
  | x :: xs => x.toNat + 256 * natOfBytes xs

/-- The number that bytes spell, the first the most significant. -/
def natOfBytesBE (l : List Byte) : Nat := natOfBytes l.reverse

/-- A value of `w` bits from bytes. -/
def ofBytes (w : Nat) (l : List Byte) : BitVec w := BitVec.ofNat w (natOfBytes l)

/-! ### Lists -/

/-- The value at a position of a list; `d` beyond its end. -/
def nth {α : Type} (d : α) : List α → Nat → α
  | [], _ => d
  | x :: _, 0 => x
  | _ :: xs, n + 1 => nth d xs n

/-- `f` applied to each index below `n` in turn. -/
def times {α : Type} (n : Nat) (f : Nat → α → α) (s : α) : α := (List.range n).foldl (fun s i => f i s) s

/-- A number inserted into a strictly rising list. -/
def insertNat (n : Nat) : List Nat → List Nat
  | [] => [n]
  | m :: l => if n < m then n :: m :: l else if n = m then m :: l else m :: insertNat n l

end Sys2Proof.Machine
end

