-- ==== Sys2Proof/Machine/Microword.lean ====
section
/-! DEFINITION. The microword: its fields (R77), its parity (R78), its operands' classes (R80) and the checks that its
D stage makes on the word alone (R79, R87, R105, R106, R135). -/

namespace Sys2Proof
open Machine

/-! ### Fields (R77) -/

def MWord.csel (w : MWord) : BitVec 4 := w.extractLsb' 156 4
def MWord.cpol (w : MWord) : Bool := w.getLsbD 155
def MWord.seq (w : MWord) : BitVec 4 := w.extractLsb' 151 4
def MWord.target (w : MWord) : CsAddr := w.extractLsb' 137 14
def MWord.aluop (w : MWord) : BitVec 7 := w.extractLsb' 130 7
def MWord.dst (w : MWord) : BitVec 6 := w.extractLsb' 124 6
def MWord.srca (w : MWord) : BitVec 6 := w.extractLsb' 118 6
def MWord.srcb (w : MWord) : BitVec 6 := w.extractLsb' 112 6
def MWord.memop (w : MWord) : BitVec 6 := w.extractLsb' 106 6
def MWord.mbase (w : MWord) : BitVec 4 := w.extractLsb' 102 4
def MWord.mmode (w : MWord) : BitVec 3 := w.extractLsb' 99 3
def MWord.mtag (w : MWord) : BitVec 5 := w.extractLsb' 94 5
def MWord.laneop (w : MWord) : BitVec 5 := w.extractLsb' 89 5
def MWord.lq (w : MWord) : BitVec 4 := w.extractLsb' 85 4
def MWord.xfer (w : MWord) : BitVec 6 := w.extractLsb' 79 6
def MWord.setf (w : MWord) : Bool := w.getLsbD 78
def MWord.wsel (w : MWord) : BitVec 6 := w.extractLsb' 72 6
def MWord.aux8 (w : MWord) : BitVec 8 := w.extractLsb' 64 8
def MWord.disp16 (w : MWord) : BitVec 16 := w.extractLsb' 48 16
def MWord.imm48 (w : MWord) : Word := w.extractLsb' 0 48

/-- The fields of a microword, in the order of R77. -/
structure MFields where
  csel : BitVec 4 := 0
  cpol : Bool := false
  seq : BitVec 4 := 0
  target : CsAddr := 0
  aluop : BitVec 7 := 0
  dst : BitVec 6 := 0
  srca : BitVec 6 := 0
  srcb : BitVec 6 := 0
  memop : BitVec 6 := 0
  mbase : BitVec 4 := 0
  mmode : BitVec 3 := 0
  mtag : BitVec 5 := 0
  laneop : BitVec 5 := 0
  lq : BitVec 4 := 0
  xfer : BitVec 6 := 0
  setf : Bool := false
  wsel : BitVec 6 := 0
  aux8 : BitVec 8 := 0
  disp16 : BitVec 16 := 0
  imm48 : Word := 0
  deriving DecidableEq, Repr

/-- The microword with given fields. -/
def MFields.word (f : MFields) : MWord :=
  (f.csel ++ BitVec.ofBool f.cpol ++ f.seq ++ f.target ++ f.aluop ++ f.dst ++ f.srca ++ f.srcb ++ f.memop ++ f.mbase ++ f.mmode ++
    f.mtag ++ f.laneop ++ f.lq ++ f.xfer ++ BitVec.ofBool f.setf ++ f.wsel ++ f.aux8 ++ f.disp16 ++ f.imm48 : BitVec 160)

/-- The fields that the engine reads from a microword. -/
def MWord.fields (w : MWord) : MFields :=
  { csel := w.csel, cpol := w.cpol, seq := w.seq, target := w.target, aluop := w.aluop, dst := w.dst, srca := w.srca
    srcb := w.srcb, memop := w.memop, mbase := w.mbase, mmode := w.mmode, mtag := w.mtag, laneop := w.laneop, lq := w.lq
    xfer := w.xfer, setf := w.setf, wsel := w.wsel, aux8 := w.aux8, disp16 := w.disp16, imm48 := w.imm48 }

/-! ### Parity (R78) -/

/-- P[9:0]: bit k is the parity of slice k. -/
def parity (w : MWord) : BitVec 10 :=
  BitVec.ofNat 10 ((List.range 10).foldl (fun n k => n + (if odd (w.extractLsb' (16 * k) 16) then 2 ^ k else 0)) 0)

/-- A microword with its parity, as the control store holds it. -/
def stored (w : MWord) : PWord := (parity w ++ w : BitVec 170)

/-- The microword of a control-store word. -/
def PWord.word (p : PWord) : MWord := p.extractLsb' 0 160

/-- SLICE of R188: bit k is 1 where slice k fails its check. -/
def PWord.bad (p : PWord) : BitVec 10 := parity p.word ^^^ p.extractLsb' 160 10

/-- The filler word, TRAP with AUX8 = 0xFF. Its SEQ is the code that R77 and R91 give TRAP (log entry 30). -/
def fillerWord : MWord := BitVec.ofNat 160 (5 * 2 ^ 151 + 0xFF * 2 ^ 64)

/-! ### Operand classes (R80, R81) -/

/-- A literal with a reserved index (R81). -/
def resLit (o : BitVec 6) : Bool := o.extractLsb' 4 2 == 3 && decide (10 ≤ (o.extractLsb' 0 4).toNat)
/-- A D or A register. -/
def isDA (o : BitVec 6) : Bool := decide ((o.extractLsb' 4 2).toNat ≤ 1)
/-- An A register. -/
def isA (o : BitVec 6) : Bool := o.extractLsb' 4 2 == 1
/-- ACC0..ACC3. -/
def isAcc (o : BitVec 6) : Bool := o.extractLsb' 2 4 == 0b1000
/-- An operand of the class 0b10 with index `i`. -/
def isSpec (o : BitVec 6) (i : Nat) : Bool := o.extractLsb' 4 2 == 2 && (o.extractLsb' 0 4).toNat == i
/-- MPH, MPL, DVQ, DVR and UPC, which no word may name as DST (R41). -/
def dstIllegal (o : BitVec 6) : Bool :=
  isSpec o 6 || isSpec o 7 || isSpec o 8 || isSpec o 9 || isSpec o 13
/-- PROG, TENANT and SSP, which only a system-level word may name as DST (R44). -/
def dstSystem (o : BitVec 6) : Bool := isSpec o 10 || isSpec o 11 || isSpec o 12

/-! ### Classes of operations -/

/-- An Affix operation (R70). -/
def MWord.isAfx (w : MWord) : Bool := w.aluop.extractLsb' 4 3 == 7
/-- A long memory operation (R134). -/
def MWord.isLongMem (w : MWord) : Bool := decide (0x20 ≤ w.memop.toNat ∧ w.memop.toNat ≤ 0x24)
/-- A shift word (R110, R134). -/
def MWord.isShift (w : MWord) : Bool := decide (4 ≤ w.laneop.toNat ∧ w.laneop.toNat ≤ 6)
/-- A long instruction. -/
def MWord.isLong (w : MWord) : Bool := w.isLongMem || w.isShift
/-- DIV or DIVU. -/
def MWord.isDiv (w : MWord) : Bool := w.aluop == 0x42 || w.aluop == 0x43
/-- A memory operation other than NONE: the word allocates MTAG (R108). -/
def MWord.isMem (w : MWord) : Bool := w.memop != 0
/-- The word allocates MTAG: a memory word or an Affix word (R38). -/
def MWord.takesTag (w : MWord) : Bool := w.isMem || w.isAfx
/-- The PROG.OP of a long instruction (R136). -/
def MWord.longOp (w : MWord) : Byte :=
  if w.isLongMem then w.memop.setWidth 8 else 0x40 + w.laneop.setWidth 8
/-- CSEL = 0 and CPOL = 0: the word always acts. -/
def MWord.always (w : MWord) : Bool := w.csel == 0 && !w.cpol
/-- A scalar load, LR6 included: its result is written to DST (R106). -/
def isLoadOp (op : BitVec 6) : Bool := decide (1 ≤ op.toNat ∧ op.toNat ≤ 0x0A) || op == 0x18
/-- A store of R106, SC6 included. -/
def isStoreOp (op : BitVec 6) : Bool := decide (0x10 ≤ op.toNat ∧ op.toNat ≤ 0x15) || op == 0x19
/-- Bytes that a scalar memory operation accesses (R106). -/
def opSize (op : BitVec 6) : Nat :=
  match op.toNat with
  | 0x01 | 0x02 | 0x10 => 1
  | 0x03 | 0x04 | 0x11 => 2
  | 0x05 | 0x06 | 0x12 => 4
  | 0x07 | 0x13 | 0x18 | 0x19 | 0x1A => 6
  | 0x08 | 0x09 | 0x14 => 8
  | 0x0A | 0x15 => 12
  | _ => 0

/-! ### Checks of the word alone -/

/-- ALU codes that R104 reserves. -/
def aluReserved (a : BitVec 7) : Bool :=
  let n := a.toNat
  decide ((0x12 ≤ n ∧ n ≤ 0x17) ∨ n = 0x1E ∨ n = 0x1F ∨ (0x25 ≤ n ∧ n ≤ 0x27) ∨ (0x2D ≤ n ∧ n ≤ 0x2F) ∨
    (0x36 ≤ n ∧ n ≤ 0x3F) ∨ n = 0x47 ∨ n = 0x4E ∨ n = 0x4F ∨ (0x55 ≤ n ∧ n ≤ 0x6F))

/-- ALU operations that write DST: all but NONE, CMP, TST, MUL, MULU, DIV and DIVU (R87). -/
def aluWritesDst (a : BitVec 7) : Bool :=
  let n := a.toNat
  decide (n ≠ 0 ∧ n ≠ 6 ∧ n ≠ 0x1D ∧ n ≠ 0x40 ∧ n ≠ 0x41 ∧ n ≠ 0x42 ∧ n ≠ 0x43)

/-- ALU operations that read SRCA. -/
def aluReadsA (a : BitVec 7) : Bool := decide (a.toNat ≠ 0 ∧ a.toNat ≠ 0x48 ∧ a.toNat ≠ 0x4B)
/-- ALU operations that read SRCB. -/
def aluReadsB (a : BitVec 7) : Bool :=
  let n := a.toNat
  decide ((2 ≤ n ∧ n ≤ 6) ∨ n = 9 ∨ n = 0xA ∨ (0xD ≤ n ∧ n ≤ 0x11) ∨ (0x18 ≤ n ∧ n ≤ 0x1B) ∨ n = 0x1D ∨
    (0x20 ≤ n ∧ n ≤ 0x24) ∨ (0x40 ≤ n ∧ n ≤ 0x46) ∨ 0x70 ≤ n)

/-- Memory operations that write DST: the loads, LR6, SC6, CKSUM16, CKCRC and SCAN (R87). -/
def memWritesDst (m : BitVec 6) : Bool := isLoadOp m || m == 0x19 || m == 0x22 || m == 0x23 || m == 0x24
/-- Lane operations POP, PEEK and IN (R87). -/
def laneWritesDst (l : BitVec 5) : Bool := l == 2 || l == 3 || l == 9
/-- XFER get codes (R111). -/
def xferGets (x : BitVec 6) : Bool :=
  x == 1 || x == 3 || x == 5 || x == 8 || x == 9 || x == 0x0A || decide (0x10 ≤ x.toNat ∧ x.toNat ≤ 0x13)
/-- XFER set codes, which read SRCB (R111). -/
def xferSets (x : BitVec 6) : Bool :=
  x == 2 || x == 4 || x == 6 || x == 0x0B || decide (0x14 ≤ x.toNat ∧ x.toNat ≤ 0x17)
/-- The XFER codes of the shadow bank (R111). -/
def xferBank (x : BitVec 6) : Bool := decide (8 ≤ x.toNat ∧ x.toNat ≤ 0x0B)

/-- How many DST writers the word holds (R87). -/
def MWord.dstWriters (w : MWord) : Nat :=
  (if aluWritesDst w.aluop then 1 else 0) + (if memWritesDst w.memop then 1 else 0) +
  (if laneWritesDst w.laneop then 1 else 0) + (if xferGets w.xfer then 1 else 0)

/-- The word reads SRCA: an ALU or Affix operation, an index mode, a long operation's source, AT, DISPATCH, PARK or
an indirect CALL. -/
def MWord.readsA (w : MWord) : Bool :=
  aluReadsA w.aluop || (w.isMem && (w.mmode == 3 || w.mmode == 4)) ||
  w.memop == 0x20 || w.memop == 0x21 || w.memop == 0x24 ||
  w.seq == 7 || w.seq == 8 || w.seq == 11 || (w.seq == 2 && w.aux8.getLsbD 0)

/-- The word reads SRCB: an ALU or Affix operation, store data, a long operation's count, PUSH, OUT, OEN or a set. -/
def MWord.readsB (w : MWord) : Bool :=
  aluReadsB w.aluop || isStoreOp w.memop || w.isLongMem || w.laneop == 1 || w.laneop == 7 || w.laneop == 8 ||
  xferSets w.xfer

/-- A reserved value in a field that the word uses: ILLOP SUB 0x01 (R79, R81, R82, R91, R93, R95, R96, R97, R106,
R107, R110, R111). -/
def MWord.reserved (w : MWord) : Bool :=
  w.seq == 15 || aluReserved w.aluop ||
  decide ((0x0B ≤ w.memop.toNat ∧ w.memop.toNat ≤ 0x0F) ∨ w.memop.toNat = 0x16 ∨ w.memop.toNat = 0x17 ∨
    (0x1B ≤ w.memop.toNat ∧ w.memop.toNat ≤ 0x1F) ∨ 0x25 ≤ w.memop.toNat) ||
  (w.isMem && decide (6 ≤ w.mmode.toNat)) || decide (0x0D ≤ w.laneop.toNat) ||
  w.xfer == 7 || decide ((0x0C ≤ w.xfer.toNat ∧ w.xfer.toNat ≤ 0x0F) ∨ 0x18 ≤ w.xfer.toNat) ||
  (w.dstWriters != 0 && resLit w.dst) || (w.readsA && resLit w.srca) || (w.readsB && resLit w.srcb) ||
  (w.seq == 8 && (w.aux8.extractLsb' 4 2 == 3 || w.aux8.extractLsb' 6 2 != 0)) ||
  (w.seq == 2 && (w.aux8.extractLsb' 1 7 != 0 || w.imm48.extractLsb' 16 2 == 3 ||
    (w.imm48.extractLsb' 16 2 == 2 && w.imm48.extractLsb' 8 8 != 0))) ||
  (w.seq == 12 && (w.imm48.extractLsb' 3 8 == 0 || decide (128 < (w.imm48.extractLsb' 3 8).toNat))) ||
  (w.seq == 13 && (w.aux8.extractLsb' 0 3 == 0 || w.aux8.extractLsb' 3 5 != 0))

/-- A combination that R87 forbids: ILLOP SUB 0x02. -/
def MWord.forbidden (w : MWord) : Bool :=
  decide (1 < w.dstWriters) || (w.isAfx && w.isMem) || (w.isLongMem && w.isShift) ||
  (w.isLong && w.seq != 0 && w.seq != 1 && w.seq != 9 && w.seq != 11) ||
  (w.isMem && (w.mmode == 1 || w.mmode == 2) && w.dstWriters != 0 && isA w.dst && w.dst.extractLsb' 0 4 == w.mbase) ||
  (w.seq == 9 && w.dstWriters != 0 && isSpec w.dst 5)

/-- ALU operations that require an accumulator as DST (R105). -/
def aluAccDst (a : BitVec 7) : Bool :=
  let n := a.toNat
  decide ((0x44 ≤ n ∧ n ≤ 0x46) ∨ (0x48 ≤ n ∧ n ≤ 0x4B) ∨ n = 0x50 ∨ n = 0x52 ∨ n = 0x53)
/-- ALU operations that require an accumulator as SRCA (R105). -/
def aluAccSrc (a : BitVec 7) : Bool := a == 0x4C || a == 0x4D || a == 0x51 || a == 0x54
/-- MOV, ADD, SUB and IDX, the ALU operations that may have an A register as DST (R40). -/
def aluADst (a : BitVec 7) : Bool := a == 1 || a == 2 || a == 4 || a == 0x11

/-- An operand class that its position does not allow: ILLOP SUB 0x03 (R40, R41, R105, R106). -/
def MWord.badClass (w : MWord) : Bool :=
  (w.dstWriters != 0 && dstIllegal w.dst) ||
  (aluWritesDst w.aluop && isA w.dst && !aluADst w.aluop) ||
  (aluAccDst w.aluop && !isAcc w.dst) || (aluAccSrc w.aluop && !isAcc w.srca) ||
  ((decide (1 ≤ w.memop.toNat ∧ w.memop.toNat ≤ 7) || w.memop == 0x18 || w.memop == 0x19 || w.memop == 0x24) &&
    !isDA w.dst) ||
  ((w.memop == 8 || w.memop == 9 || w.memop == 0x0A || w.memop == 0x22 || w.memop == 0x23) && !isAcc w.dst) ||
  ((w.memop == 0x14 || w.memop == 0x15) && !isAcc w.srcb)

/-- A lane operation on a queue of the wrong direction: ILLOP SUB 0x04 (R110). SHX with LQ[3] = 1 is one too: R110's table asks
LQ[3] = 0 of it, and its sentence on the illegal cases does not name it (the model's choice, log entry 102). -/
def MWord.wrongQueue (w : MWord) : Bool :=
  ((w.laneop == 1 || w.laneop == 4 || w.laneop == 6) && w.lq.getLsbD 3) ||
  ((w.laneop == 2 || w.laneop == 3 || w.laneop == 5) && !w.lq.getLsbD 3)

/-- The first illegal-operation sub-code that the word alone carries; the order among them is the sub-codes' own
(log entry 31). -/
def MWord.illop (w : MWord) : Option (BitVec 6) :=
  if w.reserved then some 1
  else if w.forbidden then some 2
  else if w.badClass then some 3
  else if w.wrongQueue then some 4
  else if w.isLongMem && (w.mmode == 1 || w.mmode == 2) then some 6
  else none

end Sys2Proof
end

