-- ==== Sys2Proof/Machine/Ops.lean ====
section
/-! DEFINITION. The named operations over the block's state: its parts by their numbers (R14), register levels (R155),
data memory (R223..R250), fault detections (R439..R442) and events (R22, R47, R219, R222, R294). -/

namespace Sys2Proof.Machine
open Sys2Proof

/-! ### Identifiers (R14) -/

def ctxNo (e : EngId) (k : CtxId) : CtxNo := (e ++ k : BitVec 13)
def engOf (n : CtxNo) : EngId := n.extractLsb' 4 9
def ctxOf (n : CtxNo) : CtxId := n.extractLsb' 0 4
def cluOf (e : EngId) : CluId := e.extractLsb' 3 6
def engIn (e : EngId) : BitVec 3 := e.extractLsb' 0 3
def secOf (e : EngId) : SecId := e.extractLsb' 6 3
def cluSec (c : CluId) : SecId := c.extractLsb' 3 3
def mkEng (c : CluId) (i : BitVec 3) : EngId := (c ++ i : BitVec 9)
def homeOf (ch : Chan) : EngId := ch.extractLsb' 7 9
def allCtx : List CtxId := (List.range 16).map (BitVec.ofNat 4)
def allEngIn : List (BitVec 3) := (List.range 8).map (BitVec.ofNat 3)

/-! ### The block's parts -/

def Block.ctx (b : Block) (n : CtxNo) : Ctx := Map.get {} b.ctxs n.toNat
def Block.setCtx (b : Block) (n : CtxNo) (c : Ctx) : Block := { b with ctxs := Map.set {} b.ctxs n.toNat c }
def Block.modCtx (b : Block) (n : CtxNo) (f : Ctx → Ctx) : Block := b.setCtx n (f (b.ctx n))
def Block.eng (b : Block) (e : EngId) : Eng := Map.get {} b.engs e.toNat
def Block.setEng (b : Block) (e : EngId) (v : Eng) : Block := { b with engs := Map.set {} b.engs e.toNat v }
def Block.modEng (b : Block) (e : EngId) (f : Eng → Eng) : Block := b.setEng e (f (b.eng e))
def Block.clu (b : Block) (c : CluId) : Clu := Map.get {} b.clus c.toNat
def Block.setClu (b : Block) (c : CluId) (v : Clu) : Block := { b with clus := Map.set {} b.clus c.toNat v }
def Block.modClu (b : Block) (c : CluId) (f : Clu → Clu) : Block := b.setClu c (f (b.clu c))
/-- The reset value of a memory unit: SEC_CHBASE.BASE is 4s + 3 (R58). -/
def unitReset (u : Nat) : MemUnit := { chBase := if u < 8 then BitVec.ofNat 5 (4 * u + 3) else 0 }
def Block.unit (b : Block) (u : Nat) : MemUnit := Map.get (unitReset u) b.units u
def Block.modUnit (b : Block) (u : Nat) (f : MemUnit → MemUnit) : Block :=
  { b with units := Map.set (unitReset u) b.units u (f (b.unit u)) }
def Block.sec (b : Block) (s : SecId) : Sec := Map.get {} b.secs s.toNat
def Block.modSec (b : Block) (s : SecId) (f : Sec → Sec) : Block :=
  { b with secs := Map.set {} b.secs s.toNat (f (b.sec s)) }
def Block.chan (b : Block) (n : BitVec 8) : Dma := Map.get {} b.dma n.toNat
def Block.modChan (b : Block) (n : BitVec 8) (f : Dma → Dma) : Block :=
  { b with dma := Map.set {} b.dma n.toNat (f (b.chan n)) }
def Block.timer (b : Block) (c : CluId) (x : Nat) : Timer := Map.get {} (b.clu c).timers x
def Block.modTimer (b : Block) (c : CluId) (x : Nat) (f : Timer → Timer) : Block :=
  b.modClu c (fun v => { v with timers := Map.mod {} v.timers x f })
def Block.fenced (b : Block) (s : SecId) : Bool := (b.sec s).fenced
/-- The next number of the block's issue order. -/
def Block.bump (b : Block) : Block := { b with seq := b.seq + 1 }

/-! ### Parts that rank 1 events of the tick have reset (R27)

Section s has the part numbers from 4096s: 256 for each of its clusters, of which the first 128 are the contexts, from 2,048 on
its 32 channels, and from 2,080 on its banks' region entries. A part is a run of numbers, so that an engine holds its contexts,
a cluster its engines and its own units, and a section everything. -/

abbrev Piece := Nat × Nat
def partCtx (n : CtxNo) : Piece := (256 * (n.toNat / 128) + n.toNat % 128 + 2048 * (n.toNat / 1024), 1)
def partEng (e : EngId) : Piece := (256 * (e.toNat / 8) + 16 * (e.toNat % 8) + 2048 * (e.toNat / 64), 16)
/-- Every engine of a cluster. -/
def partEngs (c : CluId) : Piece := (256 * c.toNat + 2048 * (c.toNat / 8), 128)
def partClu (c : CluId) : Piece := (256 * c.toNat + 2048 * (c.toNat / 8), 256)
/-- Timer x of a cluster: an engine timer is its engine's (R198, R418). -/
def partTimer (c : CluId) (x : Nat) : Piece := if x < 8 then partClu c else partEng (mkEng c (BitVec.ofNat 3 ((x - 8) / 4)))
def partDma (n : BitVec 8) : Piece := (4096 * (n.toNat / 32) + 2048 + n.toNat % 32, 1)
def partRgn (s : SecId) : Piece := (4096 * s.toNat + 2080, 1)
def partSec (s : SecId) : Piece := (4096 * s.toNat, 4096)
/-- The whole block but its Imperative partition. -/
def partBlock : Piece := (0, 2 ^ 16)
/-- A unit of the spine. -/
def partSpine : Piece := (2 ^ 15, 1)

/-- A rank 1 event of this tick has reset or fenced the part. -/
def Block.cut (b : Block) (p : Piece) : Block := { b with gone := p :: b.gone }
/-- Each engine of the block has been reset. -/
def Block.cutEngines (b : Block) : Block := times 64 (fun i b => b.cut (partEngs (BitVec.ofNat 6 i))) b
/-- The part lies in one that was reset or fenced in this tick. -/
def Block.isGone (b : Block) (p : Piece) : Bool := b.gone.any (fun g => decide (g.1 ≤ p.1 ∧ p.1 + p.2 ≤ g.1 + g.2))
/-- It lies in a wider one (R419). -/
def Block.inWider (b : Block) (p : Piece) : Bool :=
  b.gone.any (fun g => decide (g.1 ≤ p.1 ∧ p.1 + p.2 ≤ g.1 + g.2 ∧ p.2 < g.2))

/-! ### Fault detections (R439..R442) -/

/-- The base level of a source's code (R440; raster heads under R497). -/
def baseLevel (src : BitVec 11) (code : Byte) : Nat :=
  let s := src.toNat
  let k := code.toNat
  if s < 0x200 then (if k = 0x20 then 1 else 0)
  else if s < 0x400 then 1
  else if s < 0x440 then (if k = 2 then 1 else if k = 3 then 2 else 0)
  else if s < 0x480 then 0
  else if s < 0x510 then (if k = 1 then 1 else if k = 2 then 2 else 0)
  else if s < 0x518 then (if k = 4 then 1 else 2)
  else if s < 0x560 then (if k = 2 then 1 else 0)
  else if s < 0x562 then 0
  else if s = 0x562 then (if k = 3 ∨ k = 5 ∨ k = 6 then 1 else if k = 4 then 2 else 0)
  else if s = 0x563 then 0
  else if s = 0x564 then (if k = 2 then 2 else 1)
  else if s = 0x565 then 2
  else if s < 0x56A then (if k = 2 ∨ k = 4 then 1 else 0)
  else if s = 0x56A then (if k = 3 then 2 else 1)
  else if 0x700 ≤ s ∧ k = 5 then 1
  else 0

/-- The place of a source's origin in the order of R28. -/
def srcOrigin (s : BitVec 11) : Nat :=
  let n := s.toNat
  if (0x200 ≤ n ∧ n < 0x400) ∨ n = 0x565 ∨ n = 0x56B then 1
  else if n = 0x564 then 2
  else if (0x510 ≤ n ∧ n < 0x560) ∨ n = 0x562 ∨ n = 0x563 ∨ n = 0x56A then 5
  else if (0x480 ≤ n ∧ n < 0x510) ∨ n = 0x560 ∨ n = 0x561 ∨ (0x600 ≤ n ∧ n < 0x700) then 6
  else if 0x566 ≤ n ∧ n ≤ 0x569 then 7
  else if 0x700 ≤ n then 8
  else 9

/-- The order of held records: detection, then origin, then source ID. -/
def ahead (x y : Nat × Slot) : Bool :=
  let ox := srcOrigin (BitVec.ofNat 11 x.1)
  let oy := srcOrigin (BitVec.ofNat 11 y.1)
  decide (x.2.at_ < y.2.at_) || (x.2.at_ == y.2.at_ && (decide (ox < oy) || (ox == oy && decide (x.1 < y.1))))

/-- A record enters its source's slot. It waits for the records that are ahead of it; those of the same tick that it is ahead of
wait for it (R442). -/
def enterSlot (s : Nat) (x : Slot) (m : Map (Option Slot)) : Map (Option Slot) :=
  let n := (m.filter (fun y => y.2.any (fun v => ahead (y.1, v) (s, x)))).length
  Map.set none (m.map (fun y => (y.1, y.2.map (fun v => if ahead (s, x) (y.1, v) then { v with queue := v.queue + 1 } else v))))
    s (some { x with queue := n })

/-- A detection enters its source's slot, or merges into the record held there (R442). -/
def detect (src : Nat) (code : Nat) (info : BitVec 24) (b : Block) : Block :=
  let s : BitVec 11 := BitVec.ofNat 11 src
  let k : Byte := BitVec.ofNat 8 code
  let slots := match Map.get none b.imp.slots s.toNat with
    | none => enterSlot s.toNat { stamp := b.tick, at_ := b.now, code := k, info := info } b.imp.slots
    | some h =>
      let take := (h.inj && !h.real) || decide (baseLevel s h.code < baseLevel s k)
      Map.set none b.imp.slots s.toNat (some { h with
        stamp := if b.now < h.at_ then b.tick else h.stamp, at_ := min h.at_ b.now
        mult := if h.mult = 255 then 255 else h.mult + 1, real := true, counts := h.counts + 1
        code := if take then k else h.code, info := if take then info else h.info })
  { b with imp := { b.imp with slots := slots } }

/-! ### Events (R22, R47, R219, R222, R294) -/

/-- A credit for the active set (R294, R301). -/
def dmaAddCredit (now : Nat) (d : Dma) : Dma :=
  if d.st = .idle ∨ d.aborting then d
  else if d.act.cfg.extractLsb' 2 2 ≠ 2 ∧ (d.started ∨ d.credits ≠ 0) then d
  else if d.credits = 255 then { d with povr := d.povr.set now }
  else { d with
    credits := d.credits + 1
    st := if d.st = .armed ∨ d.st = .waitc then (if d.pauseReq then .paused else .run) else d.st }

/-- Event number `n` credits every channel whose TRIG names it, but for its own completion (R288, R294). -/
def creditEvent (n : BitVec 10) (b : Block) : Block :=
  times 256 (fun i b =>
    let ch : BitVec 8 := BitVec.ofNat 8 i
    let d := b.chan ch
    if d.act.cfg.extractLsb' 20 10 = n ∧ n.toNat ≠ i ∧ d.creditAt ≠ some b.now then
      b.modChan ch (fun d => { dmaAddCredit b.now d with creditAt := some b.now })
    else b) b

/-- INST_EVTOUT[n] fields (R221). -/
def Block.evtReg (b : Block) (n : BitVec 5) : Reg32 := Map.get 0x3FF b.fab.evtOut n.toNat

/-- Event number `n` schedules the pin changes of every EVT_OUT that selects it, 8 ticks on; events of one stamp count as
one, and a pin whose MODE or SEL a write of this tick has changed takes none (R222). -/
def schedEvent (n : BitVec 10) (b : Block) : Block :=
  times 32 (fun i b =>
    let p : BitVec 5 := BitVec.ofNat 5 i
    let r := b.evtReg p
    let md := r.extractLsb' 10 2
    if r.extractLsb' 0 10 = n ∧ (md = 1 ∨ md = 2) ∧ Map.get 0 b.fab.evtWrit i ≠ b.now + 1 ∧
        ¬ (b.fab.sched.any (fun c => c.n == p && c.stamp == b.tick && c.era == b.fab.era)) then
      { b with fab := { b.fab with
          sched := b.fab.sched ++ [{ n := p, at_ := b.now + 8, stamp := b.tick, era := b.fab.era, toggle := md == 2 }] } }
    else b) b

/-- A numbered event that fires: not local, not reserved, not 0x3FF (R219). -/
def liveEvent (n : BitVec 10) : Bool :=
  decide (n.toNat < 0x140 ∨ (0x180 ≤ n.toNat ∧ n.toNat < 0x1E4) ∨ (0x200 ≤ n.toNat ∧ n.toNat < 0x300))

/-- An event is stamped with the present tick (R22): it credits DMA channels and schedules pins at once, and waits in
the fabric for its delivery to latches (CONDITION_EVENT). -/
def raise (ev : Ev) (b : Block) : Block :=
  let b := { b with fab := { b.fab with queue := b.fab.queue ++ [{ stamp := b.tick, at_ := b.now, era := b.fab.era, ev := ev }] } }
  match ev with
  | .num n => if liveEvent n then schedEvent n (creditEvent n b) else b
  | _ => b

/-- A numbered event. -/
def raiseN (n : Nat) (b : Block) : Block := raise (.num (BitVec.ofNat 10 n)) b

/-! ### Register levels (R155) -/

/-- The bank of a level. -/
def Eng.bank (g : Eng) (l : Lvl) : Bank := if l = .bank2 then g.xb2 else g.xb1
def Eng.setBank (g : Eng) (l : Lvl) (k : Bank) : Eng := if l = .bank2 then { g with xb2 := k } else { g with xb1 := k }
def Eng.modBank (g : Eng) (l : Lvl) (f : Bank → Bank) : Eng := g.setBank l (f (g.bank l))

/-- Registers 12..15 of a file replaced by four others. -/
def withHigh (v : Vector Word 16) (h : Vector Word 4) : Vector Word 16 :=
  (((v.set 12 h[0]).set 13 h[1]).set 14 h[2]).set 15 h[3]
/-- Registers 12..15 of a file. -/
def highOf (v : Vector Word 16) : Vector Word 4 := #v[v[12], v[13], v[14], v[15]]
/-- A bank's 8-entry shadow stack in the place of the 32-entry one. -/
def withShadow (v : Vector CsAddr 32) (h : Vector CsAddr 8) : Vector CsAddr 32 :=
  ((((((((v.set 0 h[0]).set 1 h[1]).set 2 h[2]).set 3 h[3]).set 4 h[4]).set 5 h[5]).set 6 h[6]).set 7 h[7])
def shadowOf (v : Vector CsAddr 32) : Vector CsAddr 8 := #v[v[0], v[1], v[2], v[3], v[4], v[5], v[6], v[7]]

/-- The register file that a level's words see: the context's, with the bank's copies where R155 puts them. -/
def view (c : Ctx) (g : Eng) : Lvl → Ctx
  | .prog => c
  | l =>
    let k := g.bank l
    { c with
      d := withHigh c.d k.d, a := withHigh c.a k.a, stat := k.stat, lc := k.lc, cmap := k.cmap, ssp := k.ssp,
      shadow := withShadow c.shadow k.shadow, prog := k.eprog, hprog := k.priv, tenant := c.tenant,
      stkBase := c.stkBase }

/-- The context after a level's words changed the file `v`. -/
def unviewCtx (c v : Ctx) : Lvl → Ctx
  | .prog => v
  | _ => { v with
      d := withHigh v.d (highOf c.d), a := withHigh v.a (highOf c.a), stat := c.stat, lc := c.lc, cmap := c.cmap,
      ssp := c.ssp, shadow := c.shadow, prog := c.prog, hprog := c.hprog }

/-- The engine after a level's words changed the file `v`. -/
def unviewEng (g : Eng) (v : Ctx) : Lvl → Eng
  | .prog => g
  | l => g.modBank l (fun k => { k with
      d := highOf v.d, a := highOf v.a, stat := v.stat, lc := v.lc, cmap := v.cmap, ssp := v.ssp,
      shadow := shadowOf v.shadow, eprog := v.prog, priv := v.hprog })

/-- The file of context `n` at level `l`, and its update. -/
def Block.file (b : Block) (n : CtxNo) (l : Lvl) : Ctx := view (b.ctx n) (b.eng (engOf n)) l
def Block.setFile (b : Block) (n : CtxNo) (l : Lvl) (v : Ctx) : Block :=
  let c := b.ctx n
  (b.modEng (engOf n) (fun g => unviewEng g v l)).setCtx n (unviewCtx c v l)
def Block.modFile (b : Block) (n : CtxNo) (l : Lvl) (f : Ctx → Ctx) : Block := b.setFile n l (f (b.file n l))

/-- STAT.PRIV and the other STAT bits that hardware tests. -/
def statPriv (st : Word) : Bool := st.getLsbD 16
def statIE (st : Word) : Bool := st.getLsbD 20

/-! ### Data memory (R223..R250) -/

/-- The memory unit of an address: 0..7 a section's banks, 8 the dual-port region. -/
def unitOf (a : Nat) : Option Nat :=
  if a < 0x4000000 then some (a / 0x800000) else if a < 0x4200000 then some 8 else none

/-- The block's bank number of an address: 16s + b (R227), 128 + k (R229). -/
def bankOf (b : Block) (a : Nat) : Nat :=
  if a < 0x4000000 then
    let s := a / 0x800000
    let off := a % 0x800000
    16 * s + (if (b.unit s).act then off / 0x80000 else off / 32 % 16)
  else 128 + (a - 0x4000000) / 0x20000

/-- The fault source of a bank (R439). -/
def bankSrc (bank : Nat) : Nat := 0x480 + bank

/-- The line field of a bank's record: address bits [25:3], or region offset bits [20:3] (R440). -/
def lineInfo (a : Nat) : BitVec 24 :=
  if a < 0x4000000 then BitVec.ofNat 24 (a / 8 % 2 ^ 23) else BitVec.ofNat 24 ((a - 0x4000000) / 8 % 2 ^ 18)

def readByte (b : Block) (a : Nat) : Byte := Map.get 0 b.mem a
def readBytes (b : Block) (a n : Nat) : List Byte := (List.range n).map (fun i => readByte b (a + i))
def writeByte (b : Block) (a : Nat) (v : Byte) : Block := { b with mem := Map.set 0 b.mem a v }
def writeBytesAt (b : Block) (a : Nat) : List Byte → Block
  | [] => b
  | v :: l => writeBytesAt (writeByte b a v) (a + 1) l

/-- Lines `lo..hi` that a run of bytes covers, as address / 8. -/
def linesOf (a n : Nat) : List Nat := if n = 0 then [] else (List.range ((a + n - 1) / 8 - a / 8 + 1)).map (· + a / 8)

/-- A line wholly inside the bytes a..a + n − 1. -/
def covered (a n l : Nat) : Bool := decide (a ≤ 8 * l ∧ 8 * l + 8 ≤ a + n)

/-- Bytes are written: whole lines lose their poison (R243), and a write-back of a written line is dropped (R242). -/
def memWrite (b : Block) (a : Nat) (bytes : List Byte) : Block :=
  let b := writeBytesAt b a bytes
  { b with
    poison := b.poison.filter (fun l => !(covered a bytes.length l))
    wbs := b.wbs.filter (fun l => !(decide (a / 8 ≤ l ∧ 8 * l < a + bytes.length))) }

/-- A run of bytes touches a poisoned line. -/
def poisoned (b : Block) (a n : Nat) : Bool := (linesOf a n).any (fun l => b.poison.contains l)
/-- A write of a run of bytes meets a poisoned line that it does not cover whole (R243). -/
def poisonedPart (b : Block) (a n : Nat) : Bool :=
  (linesOf a n).any (fun l => b.poison.contains l && !(covered a n l))

/-- A byte lies in a bank of a fenced section (R224 order 7). -/
def inFenced (b : Block) (a n : Nat) : Bool :=
  (linesOf a n).any (fun l => decide (8 * l < 0x4000000) && b.fenced (BitVec.ofNat 3 (8 * l / 0x800000)))

/-- Region entry `k` of a unit. -/
def MemUnit.entry (u : MemUnit) (k : Nat) : Rgn := Map.get {} u.rgn k
def Rgn.en (r : Rgn) : Bool := r.ctl.getLsbD 31
def Rgn.deny (r : Rgn) : Bool := r.ctl.getLsbD 26
def Rgn.locked (r : Rgn) : Bool := r.ctl.getLsbD 27
/-- The entry is enabled and covers the page (R250). -/
def Rgn.covers (r : Rgn) (p : Nat) : Bool := r.en && decide (r.base.toNat ≤ p ∧ p ≤ r.limit.toNat)
/-- The entry admits the tenant for a read or a write. -/
def Rgn.admits (r : Rgn) (t : Tenant) (wr : Bool) : Bool :=
  !r.deny && (t &&& r.ctl.extractLsb' 12 12) == (r.ctl.extractLsb' 0 12 &&& r.ctl.extractLsb' 12 12) &&
  (if wr then r.ctl.getLsbD 25 else r.ctl.getLsbD 24)

/-- The region check of one 4 KB page (R250), the page numbered as the unit's entries number it. -/
def pageOk (u : MemUnit) (n : Nat) (t : Tenant) (rd wr : Bool) (p : Nat) : Bool :=
  let es := (List.range n).map u.entry
  !(es.any (fun r => r.covers p && r.deny)) &&
  (t == 0 ||
    ((!rd || es.any (fun r => r.covers p && r.admits t false)) &&
     (!wr || es.any (fun r => r.covers p && r.admits t true))))

/-- The region check of the 4 KB page that holds an address. -/
def addrOk (b : Block) (t : Tenant) (rd wr : Bool) (a : Nat) : Bool :=
  if a < 0x4000000 then pageOk (b.unit (a / 0x800000)) 64 t rd wr (a / 4096)
  else pageOk (b.unit 8) 16 t rd wr ((a - 0x4000000) / 4096)

/-- The first address of a run, or of a later page that it touches, that the region check refuses. -/
def refusedAt (b : Block) (t : Tenant) (rd wr : Bool) (a n : Nat) : Option Nat :=
  if n = 0 then none
  else ((List.range ((a + n - 1) / 4096 - a / 4096 + 1)).map (fun i => if i = 0 then a else (a / 4096 + i) * 4096)).find?
    (fun x => !(addrOk b t rd wr x))

/-- A reservation covers some of the bytes a..a + n − 1. -/
def Lease.touches (l : Lease) (a n : Nat) : Bool := decide (l.addr < a + n ∧ a < l.addr + 6)

/-- The parts of an access in the order of its bytes: one for each section that it touches (R230). -/
def partsOf (a n : Nat) : List (Nat × Nat) :=
  let m := (a / 0x800000 + 1) * 0x800000
  if a + n ≤ m ∨ 0x4000000 ≤ a then [(a, n)] else [(a, m - a), (m, a + n - m)]

/-- A write by `w` (none: not a context) ends the reservations of others on the words it touches (R248). -/
def breakLeases (b : Block) (w : Option CtxNo) (a n : Nat) : Block :=
  { b with leases := b.leases.filter (fun l => !(l.touches a n && decide (some l.owner ≠ w))) }

/-- What the bank finds on a read of the line at `a` (R242): a corrected error is counted, recorded and queued for its
write-back; an uncorrectable one poisons the line. -/
def eccEvent (a : Nat) (k : LineErr) (b : Block) : Block :=
  match k, unitOf a with
  | _, none => b
  | .ce, some u =>
    let last : BitVec 24 := if u = 8 then lineInfo a &&& 0x3FFFF else lineInfo a &&& 0x7FFFFF
    detect (bankSrc (bankOf b a)) 1 (lineInfo a)
      { b.modUnit u (fun m => { m with eccCe := m.eccCe.count b.now 1, eccLast := last }) with wbs := insertNat (a / 8) b.wbs }
  | .ue, some u =>
    let last : BitVec 24 := if u = 8 then (lineInfo a &&& 0x3FFFF) ||| 0x40000 else (lineInfo a &&& 0x7FFFFF) ||| 0x800000
    detect (bankSrc (bankOf b a)) 2 (lineInfo a)
      { b.modUnit u (fun m => { m with eccUe := m.eccUe.count b.now 1, eccLast := last }) with poison := insertNat (a / 8) b.poison }

/-- The lines of the rows that hold a run of bytes: what a row access reads (R231). -/
def rowLines (a n : Nat) : List Nat := if n = 0 then [] else linesOf (a / 32 * 32) (((a + n - 1) / 32 - a / 32 + 1) * 32)

/-- The lines that a write reads in order to merge its bytes into them: those that it writes in part or, of a row access,
those of the rows that it writes in part (R231). -/
def mergeLines (row : Bool) (a n : Nat) : List Nat :=
  if row then (rowLines a n).filter (fun l => !(decide (a ≤ l / 4 * 32 ∧ l / 4 * 32 + 32 ≤ a + n)))
  else (linesOf a n).filter (fun l => !(covered a n l))

/-- The error that a read meets in line `l`, the i-th that it reads: a poisoned line fails on every read (R242, R243). -/
def lineErr (b : Block) (k : Ecc) (i l : Nat) : Option LineErr :=
  if b.poison.contains l then some .ue else (k.errs.find? (fun x => x.1 == i)).map (fun x => x.2)

/-- The lines `ls` are read, from the i-th on. -/
def eccFrom (k : Ecc) : Nat → List Nat → Block → Block
  | _, [], b => b
  | i, l :: ls, b => eccFrom k (i + 1) ls (match lineErr b k i l with
    | some e => eccEvent (8 * l) e b
    | none => b)
def eccAt (ls : List Nat) (k : Ecc) (b : Block) : Block := eccFrom k 0 ls b

/-- The outcome of checks 7 to 9 of R224 at the banks. -/
inductive BankCheck where
  | pass | bus | region | memue
  deriving DecidableEq, Repr

/-- Checks 7 to 9 of R224, on an access of `n` bytes at `a`. -/
def bankCheck (b : Block) (t : Tenant) (rd wr : Bool) (a n : Nat) : BankCheck :=
  if inFenced b a n then .bus
  else match refusedAt b t rd wr a n with
    | some _ => .region
    | none => if (rd && poisoned b a n) || (wr && poisonedPart b a n) then .memue else .pass

/-- Checks 7 and 8 pass: a request that one of them refuses reads nothing (R250). -/
def admitted (b : Block) (t : Tenant) (rd wr : Bool) (a n : Nat) : Bool :=
  !(inFenced b a n) && (refusedAt b t rd wr a n).isNone

/-- The record of a bank that refuses a request (R250, R440). -/
def regionRecord (x : Nat) (b : Block) : Block := detect (bankSrc (bankOf b x)) 4 (lineInfo x) b

/-- An access arrives at its banks, a request at each section that it touches (R230): one that a region entry refuses sends the
bank's record and reads nothing; the lines of the others, among `ls`, are read. -/
def arrive (b : Block) (t : Tenant) (rd wr : Bool) (a n : Nat) (ls : List Nat) (k : Ecc) : Block :=
  let parts := partsOf a n
  let ls := ls.filter (fun l => parts.any (fun x =>
    admitted b t rd wr x.1 x.2 && (8 * l / 0x800000 == x.1 / 0x800000 || decide (0x4000000 ≤ x.1))))
  let bad := parts.filterMap (fun x => if inFenced b x.1 x.2 then none else refusedAt b t rd wr x.1 x.2)
  bad.foldl (fun b x => regionRecord x b) (eccAt ls k b)

/-! ### The ports of the dual-port region (R239..R241) -/

/-- The lines of a run of bytes that lie in the dual-port region. -/
def dprLines (a n : Nat) : List Nat := (linesOf a n).filter (fun l => decide (0x800000 ≤ l ∧ l < 0x840000))

/-- A busy access on port B: it is counted, and a record names its line and its kind (R241, R440). -/
def busyAt (l : Nat) (wr : Bool) (b : Block) : Block :=
  let info := lineInfo (8 * l) ||| (if wr then 0x40000 else 0)
  detect (bankSrc (bankOf b (8 * l))) 3 info
    (b.modUnit 8 (fun m => { m with susp := m.susp.count b.now 1, suspLast := info.extractLsb' 0 19 }))

/-- The access of this tick on the other port that an access to the line meets in one memory cycle, if any: of an engine's,
only a read meets a write of the spine; an engine's access that comes first is met by a later one of the spine. -/
def meet (spine wr : Bool) (l : Nat) (b : Block) : Block × Option Touch :=
  match b.touched.find? (fun t => t.line == l && t.spine != spine && (t.write || wr) && (spine || !wr)) with
  | none => (b, none)
  | some t =>
    let d := { b with free := b.free + 1 }
    if Config.sameCycle b.free then (busyAt l (if spine then wr else true) { d with touched := d.touched.erase t }, some t)
    else (d, none)

/-- The access is noted for the rest of the tick. -/
def noteTouch (spine wr : Bool) (l : Nat) (b : Block) : Block :=
  { b with touched := b.touched ++ [{ line := l, spine := spine, write := wr, old := readBytes b (8 * l) 8 }] }

/-- An access on a port, before it is performed: a spine access, or an engine's write. A busy read of the spine is repeated,
so that it gets the line as the engine leaves it (R241). -/
def touch (spine wr : Bool) (a n : Nat) (b : Block) : Block :=
  (dprLines a n).foldl (fun b l => noteTouch spine wr l (meet spine wr l b).1) b

/-- A write by a spine unit or the debug bus master, which ends reservations on its bytes (R248). -/
def spineWrite (a : Nat) (l : List Byte) (b : Block) : Block :=
  breakLeases (memWrite (touch true true a l.length b) a l) none a l.length

/-- The lines of an engine's read that a write of the spine meets, with their bytes before that write. -/
def touchRead (a n : Nat) (b : Block) : Block × List (Nat × List Byte) :=
  (dprLines a n).foldl (fun x l =>
    let m := meet false false l x.1
    (noteTouch false false l m.1, match m.2 with
      | some t => x.2 ++ [(l, t.old)]
      | none => x.2)) (b, [])

/-- An engine's read: of a line that the spine writes in the same memory cycle each bit is the old or the new one (R240). -/
def portARead (a n : Nat) (b : Block) : Block × List Byte :=
  let x := touchRead a n b
  let l := readBytes x.1 a n
  if x.2 = [] then (x.1, l)
  else ({ x.1 with free := x.1.free + n }, (List.range n).map (fun i =>
    let v := nth 0 l i
    match x.2.find? (fun y => y.1 == (a + i) / 8) with
    | some y =>
      let m := Config.mixBits (x.1.free + i)
      (nth 0 y.2 ((a + i) % 8) &&& m) ||| (v &&& ~~~m)
    | none => v))

/-- TICK_NOW is at `t`, or at the first value after `t` was skipped (R368). -/
def onTime (b : Block) (t : Tick) : Bool := b.tick == t || (b.fab.skipped && b.tick == t + 1)

/-- A channel-state range holds one of the bytes (R57). -/
def inChState (b : Block) (a n : Nat) : Bool :=
  (List.range 8).any (fun s =>
    let base := (b.unit s).chBase.toNat * 0x200000
    decide (n ≠ 0 ∧ a < base + 0x200000 ∧ base < a + n))

/-! ### Perturbation (R480, R481) -/

/-- One item delayed or refused (PERTURB_CNT). -/
def countPerturb (b : Block) : Block := { b with dbg := { b.dbg with pCnt := b.dbg.pCnt.count b.now 1 } }

/-- A decision of a duty value, from the LFSR. -/
def perturbHit (duty : Byte) (b : Block) : Block × Bool :=
  let v := b.dbg.lfsr
  let b := { b with dbg := { b.dbg with lfsr := Config.lfsrNext v } }
  if (Config.lfsrByte v).toNat < duty.toNat then (countPerturb b, true) else (b, false)

/-- The response of an access at `a` is delayed, where PERTURB_MEM selects its bank. -/
def memPerturb (a : Nat) (b : Block) : Block :=
  let r := b.dbg.pMem
  let on := match unitOf a with
    | none => false
    | some u => if u = 8 then r.getLsbD 8 else r.getLsbD u
  let max : Byte := r.extractLsb' 9 8
  if b.dbg.pActive && on && max != 0 then
    if r.getLsbD 17 then
      let v := b.dbg.lfsr
      let b := { b with dbg := { b.dbg with lfsr := Config.lfsrNext v } }
      if Config.lfsrDelay v max = 0 then b else countPerturb b
    else countPerturb b
  else b

/-- A host port refuses a request (PERTURB_HOST). -/
def hostPerturb (p write : Bool) (b : Block) : Block × Bool :=
  let r := b.dbg.pHost
  if b.dbg.pActive && r.getLsbD p.toNat && r.getLsbD (if write then 3 else 2) then perturbHit (r.extractLsb' 4 8) b else (b, false)

/-- PERTURB_QUEUE selects the cluster. -/
def queueSel (c : CluId) (b : Block) : Bool :=
  b.dbg.pActive && (b.dbg.pQueue.getLsbD 6 || b.dbg.pQueue.extractLsb' 0 6 == c)

/-- A channel of a selected section has issued its beats of the present 1,024 ticks (PERTURB_DMA); an issued beat counts. -/
def dmaSel (n : BitVec 8) (b : Block) : Bool := b.dbg.pActive && b.dbg.pDma.getLsbD (n.extractLsb' 5 3).toNat
def dmaBeats (n : BitVec 8) (b : Block) : Nat := if b.dbg.dmaWin = b.now / 1024 then Map.get 0 b.dbg.dmaCnt n.toNat else 0
def dmaThrottled (n : BitVec 8) (b : Block) : Bool :=
  dmaSel n b && decide ((b.dbg.pDma.extractLsb' 8 12).toNat ≤ dmaBeats n b)
def dmaNote (n : BitVec 8) (b : Block) : Block :=
  if dmaSel n b then
    let m := if b.dbg.dmaWin = b.now / 1024 then b.dbg.dmaCnt else []
    { b with dbg := { b.dbg with dmaWin := b.now / 1024, dmaCnt := Map.mod 0 m n.toNat (· + 1) } }
  else b

end Sys2Proof.Machine
end

