-- ==== Sys2Proof/Machine/Host.lean ====
section
/-! DEFINITION. The host ports' slots and tags (R290, R293, R514, R515), the Syntax core's event queue (R394, R404), the
host interrupt lines (R386) and the registers that exist once for each origin (R28, R201). -/

namespace Sys2Proof.Machine
open Sys2Proof

/-! ### Origins -/

/-- The key of an origin's copies. -/
def orgKey : Origin → Nat
  | .hreg => 0
  | .dap => 1
  | .synCore => 2
  | .ireg => 3
  | .ctx e k => 16 + (ctxNo e k).toNat

def Block.orgRegs (b : Block) (o : Nat) : OrgRegs := Map.get {} b.org o
def Block.modOrg (b : Block) (o : Nat) (f : OrgRegs → OrgRegs) : Block := { b with org := Map.mod {} b.org o f }

/-! ### Identity (R1, R385) -/

def blockId : Reg32 := 0x4B575052
def blockVersion : Reg32 := 0x00030001
/-- SYN_FWVER: version 3.1, and the release's third field. -/
def fwVersion : Reg32 := ((0x0301 : BitVec 16) ++ Config.fwThird : BitVec 32)

/-! ### Host ports -/

def Block.port (b : Block) (p : Bool) : HostPort := Map.get {} b.hp p.toNat
def Block.modPort (b : Block) (p : Bool) (f : HostPort → HostPort) : Block :=
  { b with hp := Map.mod {} b.hp p.toNat f }

/-- The lowest free slot of 1,024. -/
def freeSlot (m : Map (Option HostReq)) : Option Nat :=
  (List.range 1024).find? (fun i => (Map.get none m i).isNone)

/-- A request takes a slot of the port, where one is free and no perturbation refuses it; the second component tells
whether it did. -/
def hostIssue (p write : Bool) (q : HostReq) (b : Block) : Block × Bool :=
  let h := b.port p
  let x := hostPerturb p write b
  if x.2 then (x.1, false) else
  let b := x.1
  match freeSlot (if write then h.writes else h.reads) with
  | none => (b, false)
  | some i =>
    (b.modPort p (fun h =>
      if write then { h with writes := Map.set none h.writes i (some q) }
      else { h with reads := Map.set none h.reads i (some q) }), true)

/-- A request of a unit at a host address, issued now. -/
def hostReq (b : Block) (u : HostUser) (addr : BitVec 52) (t : Tenant) (data : List Byte) : HostReq :=
  { user := u, addr := addr, tenant := t, data := data, at_ := b.now }

/-- The request that a full tag names: slot in [9:0], generation in [11:10] (R515). -/
def tagged (h : HostPort) (write : Bool) (tag : BitVec 12) : Option HostReq :=
  let i := (tag.extractLsb' 0 10).toNat
  if Map.get 0 (if write then h.wrGen else h.rdGen) i = tag.extractLsb' 10 2 then
    Map.get none (if write then h.writes else h.reads) i
  else none

/-- A slot is freed; after a timeout its generation advances (R293, R515). -/
def freeHost (p write : Bool) (i : Nat) (timeout : Bool) (b : Block) : Block :=
  b.modPort p (fun h =>
    if write then { h with
      writes := Map.set none h.writes i none
      wrGen := if timeout then Map.mod 0 h.wrGen i (· + 1) else h.wrGen }
    else { h with
      reads := Map.set none h.reads i none
      rdGen := if timeout then Map.mod 0 h.rdGen i (· + 1) else h.rdGen })

/-- A block reset: every request is gone and every slot's generation advances (R515). -/
def resetPort (h : HostPort) : HostPort :=
  { reads := [], writes := []
    rdGen := (List.range 1024).foldl (fun m i => Map.mod 0 m i (· + 1)) h.rdGen
    wrGen := (List.range 1024).foldl (fun m i => Map.mod 0 m i (· + 1)) h.wrGen }

/-- No request is outstanding on either port (R415). -/
def portsIdle (b : Block) : Bool :=
  [false, true].all (fun p => (b.port p).reads.isEmpty && (b.port p).writes.isEmpty)

/-! ### Events and interrupt lines -/

/-- An event of R404 enters the queue of 256, or is counted as lost (R394). -/
def queueEventAt (stamp : Tick) (kind : BitVec 16) (data : List Byte) (b : Block) : Block :=
  { b with syn :=
      if 256 ≤ b.syn.evq.length then { b.syn with evLost := b.syn.evLost.count b.now 1 }
      else { b.syn with evq := b.syn.evq ++ [{ kind := kind, stamp := stamp, data := data }] } }
/-- Its cause lies in this tick. -/
def queueEvent (kind : BitVec 16) (data : List Byte) (b : Block) : Block := queueEventAt b.tick kind data b

/-- A source of HIRQ line n fires (R386). -/
def raiseIrq (n : BitVec 3) (b : Block) : Block :=
  { b with syn := { b.syn with hirqPend := b.syn.hirqPend.set b.now (BitVec.ofNat 8 (2 ^ n.toNat)) } }

/-- INST_HIRQ_LINE (R386). -/
def hirqLine (b : Block) : Byte := b.syn.hirqPend.on &&& b.syn.hirqEn

end Sys2Proof.Machine
end

