-- ==== Sys2Proof/Machine/Flags.lean ====
section
/-! DEFINITION. What the ALU computes: results and flags of every operation of R104 (04_datapath.md). -/

namespace Sys2Proof.Machine
open Sys2Proof

/-- A result with the flags that R117 gives its operation. -/
structure AluRes where
  /-- the 48-bit result -/
  val : Word := 0
  /-- the 104-bit result of an accumulator operation -/
  acc : Option Acc := none
  z : Bool := false
  n : Bool := false
  c : Bool := false
  v : Bool := false
  /-- the operation clipped its result (R119) -/
  sat : Bool := false
  deriving DecidableEq, Repr

/-- A signed value does not fit `w` bits. -/
def sover (w : Nat) (i : Int) : Bool := decide (i < -(2 ^ (w - 1) : Int) ∨ (2 ^ (w - 1) : Int) ≤ i)

def b2n (p : Bool) : Nat := if p then 1 else 0

/-- A sum, its carry out and its signed overflow. -/
def addc {w : Nat} (x y : BitVec w) (ci : Bool) : BitVec w × Bool × Bool :=
  (x + y + BitVec.ofNat w (b2n ci), decide (2 ^ w ≤ x.toNat + y.toNat + b2n ci),
    sover w (x.toInt + y.toInt + (b2n ci : Int)))

/-- A difference, its borrow and its signed overflow (R115). -/
def subb {w : Nat} (x y : BitVec w) (bi : Bool) : BitVec w × Bool × Bool :=
  (x - y - BitVec.ofNat w (b2n bi), decide (x.toNat < y.toNat + b2n bi),
    sover w (x.toInt - y.toInt - (b2n bi : Int)))

/-- The clipped value of an exact result, and whether it was clipped (R119). -/
def clip (i : Int) : Word × Bool :=
  if (2 ^ 47 : Int) ≤ i then (0x7FFFFFFFFFFF, true)
  else if i < -(2 ^ 47 : Int) then (0x800000000000, true)
  else (BitVec.ofInt 48 i, false)

/-- A 48-bit result with its Z and N. -/
def res48 (x : Word) (c : Bool := false) (v : Bool := false) (sat : Bool := false) : AluRes :=
  { val := x, z := x == 0, n := x.getLsbD 47, c := c, v := v, sat := sat }

/-- A 104-bit result with its Z and N. -/
def res104 (x : Acc) (c : Bool := false) (v : Bool := false) : AluRes :=
  { val := x.extractLsb' 0 48, acc := some x, z := x == 0, n := x.getLsbD 103, c := c, v := v }

/-- A result and flags of an addition or a subtraction. -/
def resAdd (r : Word × Bool × Bool) : AluRes := res48 r.1 r.2.1 r.2.2
def resClip (r : Word × Bool) (c : Bool) : AluRes := res48 r.1 c r.2 r.2

/-- The most negative word. -/
def minWord : Word := 0x800000000000

/-- The scale of IDX (R104). -/
def idxScale (a : BitVec 8) : Nat := nth 256 [1, 2, 4, 6, 8, 12, 16, 256] (a.extractLsb' 0 3).toNat

/-! ### Shifts and rotates (R122) -/

def shl (a : Word) (k : Nat) : AluRes :=
  res48 (a <<< k) (decide (1 ≤ k ∧ k ≤ 48) && a.getLsbD (48 - k))
def shr (a : Word) (k : Nat) : AluRes :=
  res48 (a >>> k) (decide (1 ≤ k ∧ k ≤ 48) && a.getLsbD (k - 1))
def sar (a : Word) (k : Nat) : AluRes :=
  res48 (a.sshiftRight k) (decide (k ≠ 0) && (if k ≤ 47 then a.getLsbD (k - 1) else a.getLsbD 47))
def rol (a : Word) (k : Nat) : AluRes :=
  let r := a.rotateLeft (k % 48)
  res48 r (decide (k % 48 ≠ 0) && r.getLsbD 0)
def ror (a : Word) (k : Nat) : AluRes :=
  let r := a.rotateRight (k % 48)
  res48 r (decide (k % 48 ≠ 0) && r.getLsbD 47)

/-- The shift that ALUOP[2:0] selects: SHL, SHR, SAR, ROL, ROR. -/
def shift (op : BitVec 3) (a : Word) (k : Nat) : AluRes :=
  match op.toNat with
  | 0 => shl a k
  | 1 => shr a k
  | 2 => sar a k
  | 3 => rol a k
  | _ => ror a k

/-! ### The other single-cycle operations (R123) -/

def clz (a : Word) : Word :=
  BitVec.ofNat 48 (((List.range 48).find? (fun i => a.getLsbD (47 - i))).getD 48)
def sextAt (a : Word) (p : Nat) : Word := if 47 ≤ p then a else (a <<< (47 - p)).sshiftRight (47 - p)
def zextAt (a : Word) (p : Nat) : Word := if 47 ≤ p then a else a &&& BitVec.ofNat 48 (2 ^ (p + 1) - 1)
def bswap (a : Word) : Word := ofBytes 48 (bytesOf 6 a).reverse
def brev (a : Word) : Word := a.reverse

/-! ### Checksums and CRC-32C (R131, R133) -/

/-- CKADD: the three 16-bit halves added. -/
def ckadd (acc : Acc) (a : Word) : Acc :=
  acc + (a.extractLsb' 0 16).setWidth 104 + (a.extractLsb' 16 16).setWidth 104 + (a.extractLsb' 32 16).setWidth 104

/-- CKFOLD: carries added back until the sum fits 16 bits; eight rounds bring 104 bits there. -/
def ckfold (s : Nat) : Nat → Nat
  | 0 => s
  | n + 1 => if 0xFFFF < s then ckfold (s % 0x10000 + s / 0x10000) n else s

/-- One round of R133. -/
def crcBit (crc : BitVec 32) : BitVec 32 := if crc.getLsbD 0 then (crc >>> 1) ^^^ 0x82f63b78 else crc >>> 1

/-- One byte step of CRC-32C. -/
def crcStep (acc : Acc) (x : Byte) : Acc :=
  let c := acc.extractLsb' 0 32 ^^^ x.setWidth 32
  (crcBit (crcBit (crcBit (crcBit (crcBit (crcBit (crcBit (crcBit c)))))))).setWidth 104

/-! ### The operations (R104, R117) -/

/-- ABS, and the exact values behind NEGS and ABSS. -/
def abs48 (a : Word) : Word := if a.getLsbD 47 then -a else a

/-- ALU operation `op` on A, B, the accumulators that SRCA and DST name, AUX8 and the carry. -/
def alu (op : BitVec 7) (aux : BitVec 8) (a b : Word) (accA accD : Acc) (ci : Bool) : AluRes :=
  match op.toNat with
  | 0x01 => res48 a
  | 0x02 => resAdd (addc a b false)
  | 0x03 => resAdd (addc a b ci)
  | 0x04 => resAdd (subb a b false)
  | 0x05 => resAdd (subb a b ci)
  | 0x06 => resAdd (subb a b false)
  | 0x07 => res48 (-a) (a != 0) (a == minWord)
  | 0x08 => res48 (abs48 a) false (a == minWord)
  | 0x09 => resClip (clip (a.toInt + b.toInt)) (addc a b false).2.1
  | 0x0A => resClip (clip (a.toInt - b.toInt)) (subb a b false).2.1
  | 0x0B => resClip (clip (-a.toInt)) (a != 0)
  | 0x0C => resClip (clip (if a.toInt < 0 then -a.toInt else a.toInt)) false
  | 0x0D => res48 (if b.toInt < a.toInt then b else a)
  | 0x0E => res48 (if a.toInt < b.toInt then b else a)
  | 0x0F => res48 (if b.toNat < a.toNat then b else a)
  | 0x10 => res48 (if a.toNat < b.toNat then b else a)
  | 0x11 => resAdd (addc a (b * BitVec.ofNat 48 (idxScale aux)) false)
  | 0x18 => res48 (a &&& b)
  | 0x19 => res48 (a ||| b)
  | 0x1A => res48 (a ^^^ b)
  | 0x1B => res48 (a &&& ~~~b)
  | 0x1C => res48 (~~~a)
  | 0x1D => res48 (a &&& b)
  | 0x20 | 0x21 | 0x22 | 0x23 | 0x24 => shift (op.extractLsb' 0 3) a (b.extractLsb' 0 8).toNat
  | 0x28 | 0x29 | 0x2A | 0x2B | 0x2C => shift (op.extractLsb' 0 3) a aux.toNat
  | 0x30 => res48 (clz a)
  | 0x31 => res48 (BitVec.ofNat 48 (popcount a))
  | 0x32 => res48 (sextAt a (aux.extractLsb' 0 6).toNat)
  | 0x33 => res48 (zextAt a (aux.extractLsb' 0 6).toNat)
  | 0x34 => res48 (bswap a)
  | 0x35 => res48 (brev a)
  | 0x48 => res104 0
  | 0x49 => let r := addc accD (a.signExtend 104) false; res104 r.1 r.2.1 r.2.2
  | 0x4A => let r := subb accD (a.signExtend 104) false; res104 r.1 r.2.1 r.2.2
  | 0x4B =>
    let k := aux.toNat
    res104 (accD.sshiftRight k) (decide (k ≠ 0) && (if k ≤ 103 then accD.getLsbD (k - 1) else accD.getLsbD 103))
  | 0x4C => res48 (accA.extractLsb' 48 48)
  | 0x4D => let r := clip accA.toInt; res48 r.1 false r.2 r.2
  | 0x50 => res104 (ckadd accD a)
  | 0x51 => res48 (BitVec.ofNat 48 (ckfold accA.toNat 8))
  | 0x52 => res104 (crcStep accD (a.extractLsb' 0 8))
  | 0x53 => res104 ((bytesOf 6 a).foldl crcStep accD)
  | 0x54 => res48 ((accA.extractLsb' 0 32 ^^^ 0xFFFFFFFF).setWidth 48)
  | _ => {}

/-- The operation updates flags under SETF: every one but NONE, the multiplies, the divides and Affix (R89, R117). -/
def aluFlags (op : BitVec 7) : Bool :=
  let n := op.toNat
  decide (n ≠ 0 ∧ ¬ (0x40 ≤ n ∧ n ≤ 0x46) ∧ n < 0x70)

/-- STAT with Z, N, C and V of a result. -/
def withFlags (st : Word) (r : AluRes) : Word :=
  putBit (putBit (putBit (putBit st 0 r.z) 1 r.n) 2 r.c) 3 r.v

/-! ### Multiply and divide (R124..R128) -/

/-- The 96-bit product of MUL (signed) or MULU. -/
def product (sgn : Bool) (a b : Word) : BitVec 96 :=
  if sgn then BitVec.ofInt 96 (a.toInt * b.toInt) else BitVec.ofNat 96 (a.toNat * b.toNat)

/-- Quotient and remainder of DIV (signed, truncating) or DIVU, with the results of R121 for a zero divisor. -/
def divide (sgn : Bool) (a b : Word) : Word × Word :=
  if b = 0 then
    (if sgn then (if a.getLsbD 47 then 0x800000000000 else 0x7FFFFFFFFFFF) else 0xFFFFFFFFFFFF, a)
  else if sgn then (BitVec.ofInt 48 (Int.tdiv a.toInt b.toInt), BitVec.ofInt 48 (Int.tmod a.toInt b.toInt))
  else (BitVec.ofNat 48 (a.toNat / b.toNat), BitVec.ofNat 48 (a.toNat % b.toNat))

/-- The one quotient that wraps: 0x8000_0000_0000 by −1. -/
def divWraps (sgn : Bool) (a b : Word) : Bool := sgn && a == minWord && b == 0xFFFFFFFFFFFF

end Sys2Proof.Machine
end

