-- ==== Sys2Proof/Machine/Queues.lean ====
section
/-! DEFINITION. Lane queues (R261..R263) and the levels that a lane group drives (R258, R265). -/

namespace Sys2Proof.Machine
open Sys2Proof

/-- The join fields of one direction: pairs [3:0], quads [5:4], all [6]. -/
def joinOf (cfg : BitVec 15) (rx : Bool) : BitVec 7 := if rx then cfg.extractLsb' 8 7 else cfg.extractLsb' 0 7

/-- The lowest member and the depth code (0: 4, 1: 8, 2: 16, 3: 32 entries) of the queue that `q` belongs to (R261). -/
def joined (j : BitVec 7) (q : Nat) : Nat × Nat :=
  if j.getLsbD 6 then (0, 3)
  else if j.getLsbD (4 + q / 4) then (q / 4 * 4, 2)
  else if j.getLsbD (q / 2) then (q / 2 * 2, 1)
  else (q, 0)

def depthOf (code : Nat) : Nat := 4 * 2 ^ code

/-- The queue that LQ selects, TX below 8 and RX from 8 on (R109). -/
def Lanes.queue (l : Lanes) (lq : BitVec 4) : Queue :=
  let rx := lq.getLsbD 3
  let i := (joined (joinOf l.qcfg rx) (lq.extractLsb' 0 3).toNat).1
  if rx then Map.get {} l.rx i else Map.get {} l.tx i
def Lanes.setQueue (l : Lanes) (lq : BitVec 4) (v : Queue) : Lanes :=
  let rx := lq.getLsbD 3
  let i := (joined (joinOf l.qcfg rx) (lq.extractLsb' 0 3).toNat).1
  if rx then { l with rx := Map.set {} l.rx i v } else { l with tx := Map.set {} l.tx i v }
def Lanes.depth (l : Lanes) (lq : BitVec 4) : Nat :=
  depthOf (joined (joinOf l.qcfg (lq.getLsbD 3)) (lq.extractLsb' 0 3).toNat).2
def Lanes.full (l : Lanes) (lq : BitVec 4) : Bool := decide (l.depth lq ≤ (l.queue lq).entries.length)
def Lanes.empty (l : Lanes) (lq : BitVec 4) : Bool := (l.queue lq).entries.isEmpty

def Block.lanes (b : Block) (c : CluId) : Lanes := (b.clu c).lanes
def Block.modLanes (b : Block) (c : CluId) (f : Lanes → Lanes) : Block :=
  b.modClu c (fun v => { v with lanes := f v.lanes })

/-- QFAULT with its L0 record (R263, R440). -/
def qfault (c : CluId) (lq : BitVec 4) (b : Block) : Block :=
  detect (0x440 + c.toNat) 1 (lq.setWidth 24) (b.modLanes c (fun l => { l with qfault := l.qfault.set b.now }))

/-- A held-back RX entry is appended once an entry is free (R270). -/
def unblock (l : Lanes) (lq : BitVec 4) : Lanes :=
  let q := l.queue lq
  match q.back with
  | some e => if q.entries.length < l.depth lq then l.setQueue lq { q with entries := q.entries ++ [e], back := none } else l
  | none => l

/-- PUSH of R262: a full queue takes nothing and sets QFAULT (R263). -/
def pushQ (c : CluId) (lq : BitVec 4) (v : Word) (b : Block) : Block :=
  let l := b.lanes c
  if l.full lq then qfault c lq b
  else b.modLanes c (fun l => let q := l.queue lq; l.setQueue lq { q with entries := q.entries ++ [v] })

/-- The head entry of a queue. -/
def headQ (b : Block) (c : CluId) (lq : BitVec 4) : Option Word := ((b.lanes c).queue lq).entries.head?

/-- Removal of the head entry (R262); an empty queue sets QFAULT. -/
def popQ (c : CluId) (lq : BitVec 4) (b : Block) : Block :=
  if (b.lanes c).empty lq then qfault c lq b
  else b.modLanes c (fun l => let q := l.queue lq; unblock (l.setQueue lq { q with entries := q.entries.tail }) lq)

/-- QFLUSH: the queue empty, BITPOS or ASM 0, the partial entry discarded (R262). A completed entry that the shifter holds back is
dropped with the rest, which R262 does not say (the model's choice, log entry 114). -/
def flushQ (c : CluId) (lq : BitVec 4) (b : Block) : Block := b.modLanes c (fun l => l.setQueue lq {})

/-! ### Pin groups (R264, R265) -/

def Lanes.pg (l : Lanes) (g : BitVec 4) : PinGroup := Map.get {} l.pgs g.toNat
def Lanes.modPg (l : Lanes) (g : BitVec 4) (f : PinGroup → PinGroup) : Lanes :=
  { l with pgs := Map.mod {} l.pgs g.toNat f }
def Block.pg (b : Block) (c : CluId) (g : BitVec 4) : PinGroup := (b.lanes c).pg g
def Block.modPg (b : Block) (c : CluId) (g : BitVec 4) (f : PinGroup → PinGroup) : Block :=
  b.modLanes c (fun l => l.modPg g f)

/-- The group is held (R273). -/
def PinGroup.held (p : PinGroup) : Bool := p.owner.isSome

/-- Descriptor fields (R281). -/
def pgFirst (a : Reg32) : Nat := (a.extractLsb' 0 4).toNat
def pgWcode (a : Reg32) : Nat := (a.extractLsb' 4 3).toNat
def pgW (a : Reg32) : Nat := 2 ^ pgWcode a
def pgMsb (a : Reg32) : Bool := a.getLsbD 7
def pgOd (a : Reg32) : Bool := a.getLsbD 8
def pgEndw (a : Reg32) : Bool := a.getLsbD 9
def pgCken (a : Reg32) : Bool := a.getLsbD 10
def pgCk (a : Reg32) : Nat := (a.extractLsb' 11 4).toNat
def pgCkIdle (a : Reg32) : Bool := a.getLsbD 15
def pgCkph (a : Reg32) : Bool := a.getLsbD 16
def pgCapEdge (a : Reg32) : BitVec 2 := a.extractLsb' 17 2
/-- PER in ticks; 2 where CKEN = 1 and PER = 1 (R264, R265). -/
def pgPer (a : Reg32) (pb : BitVec 24) : Nat := if pgCken a && pb == 0 then 2 else pb.toNat + 1
/-- SAMP, which acts as PER − 1 when it is larger. -/
def pgSamp (a : Reg32) (pb pc : BitVec 24) : Nat := min pc.toNat (pgPer a pb - 1)

/-- The data-out and the data-in lanes of a shift word of operation `op` (R264). -/
def outLanes (a : Reg32) (op : BitVec 5) : List Nat :=
  if op = 5 then [] else (List.range (pgW a)).map (· + pgFirst a)
def inLanes (a : Reg32) (op : BitVec 5) : List Nat :=
  if op = 4 then [] else (List.range (pgW a)).map (· + (pgFirst a + if op = 6 then pgW a else 0))
def usedLanes (a : Reg32) (op : BitVec 5) : List Nat :=
  outLanes a op ++ inLanes a op ++ (if pgCken a then [pgCk a] else [])

/-- A descriptor that a shift word may not use: ILLOP SUB 0x0B (R264). -/
def badDesc (a : Reg32) (op : BitVec 5) : Bool :=
  decide (5 ≤ pgWcode a) || (usedLanes a op).any (fun i => decide (15 < i)) ||
  (pgCken a && (outLanes a op ++ inLanes a op).contains (pgCk a))

/-- The data-out levels that a held group presents: the last bit's until the present bit's change (R265). -/
def pgOut (g : PinGroup) (now : Nat) : BitVec 16 :=
  match g.began with
  | none => g.outPrev
  | some t => if pgCkph g.dA && decide (now < t + pgPer g.dA g.dB / 2) then g.outPrev else g.outCur

/-- The clock lane's level (R265, R269). -/
def pgClk (g : PinGroup) (now : Nat) : Bool :=
  match g.began with
  | none => pgCkIdle g.dA
  | some t =>
    if t + pgPer g.dA g.dB / 2 ≤ now ∧ now < t + pgPer g.dA g.dB then !(pgCkIdle g.dA) else pgCkIdle g.dA

/-- LANE_PORT (R258, R264): O and OE of lane i as the group drives them at `now`. -/
def laneO (l : Lanes) (now : Nat) (i : Nat) : Bool × Bool :=
  let held := ((List.range 16).map (fun g => l.pg (BitVec.ofNat 4 g))).filter (fun g => g.held)
  match held.find? (fun g => (outLanes g.dA g.op).contains i) with
  | some g =>
    let v := (pgOut g now).getLsbD i
    if pgOd g.dA then (false, !v) else (v, l.oen.getLsbD i)
  | none => match held.find? (fun g => pgCken g.dA && pgCk g.dA == i) with
    | some g => (pgClk g now, l.oen.getLsbD i)
    | none => (l.out.getLsbD i, l.oen.getLsbD i)

def lanePort (l : Lanes) (now : Nat) : Reg32 :=
  (List.range 16).foldl (fun r i =>
    let p := laneO l now i
    r ||| bit i p.1 ||| bit (16 + i) p.2) 0

/-- Two shift requests that R273 keeps apart: a shared lane, or a shared queue. -/
def conflicts (l : Lanes) (a1 a2 : Reg32) (op1 op2 : BitVec 5) (lq1 lq2 : BitVec 4) : Bool :=
  let base (rx : Bool) (q : BitVec 4) := (joined (joinOf l.qcfg rx) (q.extractLsb' 0 3).toNat).1
  (usedLanes a1 op1).any (fun i => (usedLanes a2 op2).contains i) ||
  (op1 != 5 && op2 != 5 && base false lq1 == base false lq2) ||
  (op1 != 4 && op2 != 4 && base true lq1 == base true lq2)

end Sys2Proof.Machine
end

