-- ==== Sys2Proof/Machine/Operands.lean ====
section
/-! DEFINITION. Operands: what each operand form reads and writes (R41, R42, R44, R81, R82), the 64 condition sources
(R46) and the effective address (R107). -/

namespace Sys2Proof.Machine
open Sys2Proof

/-- The instance ID; 0 when the instance has joined no federation (R81). -/
def Block.inst (b : Block) : BitVec 9 := if b.fed.joined then b.fed.instId else 0

/-- A literal source (R81). -/
def literal (b : Block) (n : CtxNo) (c : Ctx) (w : MWord) (i : Nat) : Word :=
  match i with
  | 0 => w.imm48
  | 1 => w.disp16.signExtend 48
  | 2 => w.aux8.setWidth 48
  | 3 => b.tick
  | 5 => 1
  | 6 => 0xFFFFFFFFFFFF
  | 7 => n.setWidth 48
  | 8 => (c.chan.getD 0).setWidth 48
  | 9 => (b.inst).setWidth 48
  | _ => 0

/-- A special register as a source (R41). -/
def specialSrc (c : Ctx) (i : Nat) : Word :=
  match i with
  | 0 => (c.acc[0]).extractLsb' 0 48
  | 1 => (c.acc[1]).extractLsb' 0 48
  | 2 => (c.acc[2]).extractLsb' 0 48
  | 3 => (c.acc[3]).extractLsb' 0 48
  | 4 => c.stat
  | 5 => c.lc.setWidth 48
  | 6 => c.mph
  | 7 => c.mpl
  | 8 => c.dvq
  | 9 => c.dvr
  | 10 => c.prog
  | 11 => c.tenant.setWidth 48
  | 12 => c.ssp.setWidth 48
  | 13 => c.upc.setWidth 48
  | 14 => c.cmap.extractLsb' 0 48
  | _ => c.cmap.extractLsb' 48 48

/-- A register of a 16-entry file. -/
def reg16 {α : Type} (v : Vector α 16) (i : BitVec 4) : α := v.get i.toFin
def setReg16 {α : Type} (v : Vector α 16) (i : BitVec 4) (x : α) : Vector α 16 := v.set i.toNat x i.isLt
def acc4 (v : Vector Acc 4) (i : BitVec 2) : Acc := v.get i.toFin
def setAcc4 (v : Vector Acc 4) (i : BitVec 2) (x : Acc) : Vector Acc 4 := v.set i.toNat x i.isLt

/-- A source operand as a 48-bit value. -/
def src (b : Block) (n : CtxNo) (c : Ctx) (w : MWord) (o : BitVec 6) : Word :=
  match (o.extractLsb' 4 2).toNat with
  | 0 => reg16 c.d (o.extractLsb' 0 4)
  | 1 => reg16 c.a (o.extractLsb' 0 4)
  | 2 => specialSrc c (o.extractLsb' 0 4).toNat
  | _ => literal b n c w (o.extractLsb' 0 4).toNat

/-- The accumulator that an operand names. -/
def accOf (c : Ctx) (o : BitVec 6) : Acc := acc4 c.acc (o.extractLsb' 0 2)

/-- The operand reads MPH or MPL (R125). -/
def readsMp (o : BitVec 6) : Bool := isSpec o 6 || isSpec o 7

/-- A write of STAT: user level changes [9:0]; system level [20:17] and [9:0] (R44). -/
def writeStat (priv : Bool) (old v : Word) : Word := under (if priv then 0x1E03FF else 0x3FF) old v

/-- The fields of STAT (R43). -/
def statMask : Word := 0x1F03FF

/-- PROG's writable bits (R136). -/
def progMask : Word := 0x80FFFFFFFFFF

/-- A 48-bit result written to an operand (R40, R42, R82). Forms that fault are refused before (`dstFault`). -/
def writeDst (priv : Bool) (c : Ctx) (o : BitVec 6) (v : Word) : Ctx :=
  match (o.extractLsb' 4 2).toNat with
  | 0 => { c with d := setReg16 c.d (o.extractLsb' 0 4) v }
  | 1 => { c with a := setReg16 c.a (o.extractLsb' 0 4) v }
  | 2 => match (o.extractLsb' 0 4).toNat with
    | 0 | 1 | 2 | 3 => { c with acc := setAcc4 c.acc (o.extractLsb' 0 2) (v.signExtend 104) }
    | 4 => { c with stat := writeStat priv c.stat v }
    | 5 => { c with lc := v.extractLsb' 0 16 }
    | 10 => { c with prog := v &&& progMask }
    | 11 => { c with tenant := v.extractLsb' 0 12 }
    | 12 => { c with ssp := v.extractLsb' 0 6 }
    | 14 => { c with cmap := (c.cmap.extractLsb' 48 48 ++ (v &&& 0xFFFFFFFFFFC0) : BitVec 96) }
    | 15 => { c with cmap := (v ++ c.cmap.extractLsb' 0 48 : BitVec 96) }
    | _ => c
  | _ => c

/-- A 104-bit result written to the accumulator that an operand names. -/
def writeAcc (c : Ctx) (o : BitVec 6) (v : Acc) : Ctx := { c with acc := setAcc4 c.acc (o.extractLsb' 0 2) v }

/-- The greatest SSP of a level (R42, R167). -/
def maxSsp : Lvl → Nat
  | .prog => 32
  | _ => 8

/-- A DST write that a level may not make, by the value it would carry: PRIV 0x01 (R44) or CFLOW 0x06 (R42). -/
def dstFault (priv : Bool) (l : Lvl) (c : Ctx) (o : BitVec 6) (v : Word) : Option (BitVec 6 × BitVec 6 × Word) :=
  if !priv && dstSystem o then some (3, 1, 0)
  else if !priv && isSpec o 4 && v.extractLsb' 16 5 != c.stat.extractLsb' 16 5 then some (3, 1, 0)
  else if isSpec o 12 && decide (maxSsp l < v.toNat) then some (4, 6, v)
  else none

/-! ### Tags and conditions -/

def Eng.tag (g : Eng) (t : BitVec 5) : Option Pend := Map.get none g.tags t.toNat
def Eng.setTag (g : Eng) (t : BitVec 5) (p : Option Pend) : Eng := { g with tags := Map.set none g.tags t.toNat p }
/-- The requests of context `k` that are pending, with their tags. -/
def Eng.pends (g : Eng) (k : CtxId) : List (BitVec 5 × Pend) :=
  (List.range 32).filterMap (fun i =>
    match g.tag (BitVec.ofNat 5 i) with
    | some p => if p.k = k then some (BitVec.ofNat 5 i, p) else none
    | none => none)
/-- A request that the Affix port answers. -/
def Pend.isAffix (p : Pend) : Bool := match p.kind with
  | .affix | .affixMem _ => true
  | _ => false
/-- The context has a divide in progress. -/
def Eng.dividing (g : Eng) (k : CtxId) : Bool := match g.div with
  | some d => decide (d.k = k)
  | none => false

/-- The request is an access of the register window. -/
def Pend.isWindow (p : Pend) : Bool := match p.kind with
  | .window _ => true
  | _ => false

/-- The context's window accesses that wait, by tag. -/
def windowPends (g : Eng) (k : CtxId) : List (BitVec 5 × Pend) := (g.pends k).filter (fun x => x.2.isWindow)
/-- The earliest of them: accesses of one context are performed in issue order. -/
def firstWindow (g : Eng) (k : CtxId) : Option (BitVec 5 × Pend) :=
  (windowPends g k).find? (fun x => (windowPends g k).all (fun y => decide (x.2.seq ≤ y.2.seq)))

/-- The index of engine timer k of an engine (R198). -/
def etIdx (e : EngId) (k : Nat) : Nat := 8 + 4 * (engIn e).toNat + k

/-- A context's shift word is in progress, stalled or waiting for its group. -/
def Act.isShift : Act → Bool
  | .shift _ => true
  | _ => false

/-- Condition source `s` of R46 for context `n` with register file `c`; `lq` is the word's LQ. -/
def source (b : Block) (n : CtxNo) (c : Ctx) (lq : BitVec 4) (s : BitVec 6) : Bool :=
  let e := engOf n
  let g := b.eng e
  let k := ctxOf n
  let i := s.toNat
  let z := c.stat.getLsbD 0
  let lt := c.stat.getLsbD 1 != c.stat.getLsbD 3
  if i = 0 then true
  else if i ≤ 4 then c.stat.getLsbD (i - 1)
  else if i = 5 then lt
  else if i = 6 then z || lt
  else if i = 7 then c.lc == 0
  else if i ≤ 11 then c.stat.getLsbD (i - 4)
  else if i = 12 then !((g.pends k).any (fun p => p.2.isAffix))
  else if i = 13 then (b.ctx n).afxFlag
  else if i = 14 then (b.ctx n).muls.isEmpty
  else if i = 15 then !(g.dividing k)
  else if i ≤ 23 then !((g.pends k).any (fun p => p.1.toNat / 4 == i - 16))
  else if i = 24 then (g.pends k).isEmpty
  else if i = 25 then !((b.lanes (cluOf e)).empty lq)
  else if i = 26 then !((b.lanes (cluOf e)).full lq)
  else if i = 27 then !((b.ctx n).act.isShift)
  else if i ≤ 31 then (b.timer (cluOf e) (etIdx e (i - 28))).cmpf.on
  else if i ≤ 39 then (b.timer (cluOf e) (i - 32)).cmpf.on
  else (b.ctx n).latch.on.getLsbD (i - 40)

/-- The word's condition: source(CMAP[CSEL]) XOR CPOL (R45). -/
def cond (b : Block) (n : CtxNo) (c : Ctx) (w : MWord) : Bool :=
  source b n c w.lq (if w.csel = 0 then 0 else c.cmap.extractLsb' (6 * w.csel.toNat) 6) != w.cpol

/-- The effective address of R107. -/
def effAddr (b : Block) (n : CtxNo) (c : Ctx) (w : MWord) : Word :=
  let base := reg16 c.a w.mbase
  let d := w.disp16.signExtend 48
  match w.mmode.toNat with
  | 1 => base
  | 3 => base + src b n c w w.srca * 6 + d
  | 4 => base + src b n c w w.srca + d
  | 5 => w.imm48
  | _ => base + d

/-! ### Saved registers (R97, R99) -/

/-- A saved register's bytes, by the class and the mask bit (R97). -/
def savedReg (c : Ctx) (cls : BitVec 2) (i : Nat) : List Byte :=
  let j : BitVec 4 := BitVec.ofNat 4 i
  match cls.toNat with
  | 0 => bytesOf 6 (reg16 c.d j)
  | 1 => bytesOf 6 (reg16 c.a j)
  | _ => if i < 4 then bytesOf 13 (acc4 c.acc (BitVec.ofNat 2 i))
    else match i with
      | 4 => bytesOf 6 c.stat
      | 5 => bytesOf 6 (c.lc.setWidth 48)
      | 6 => bytesOf 6 (c.cmap.extractLsb' 0 48)
      | _ => bytesOf 6 (c.cmap.extractLsb' 48 48)

/-- The mask bits that a class can name, ascending. -/
def savedBits (cls : BitVec 2) (mask : BitVec 16) : List Nat :=
  (List.range (if cls = 2 then 8 else 16)).filter (fun i => mask.getLsbD i)

/-- Bytes of one saved register. -/
def savedSize (cls : BitVec 2) (i : Nat) : Nat := if cls = 2 ∧ i < 4 then 13 else 6

/-- A frame (R99) of a CALL at `upc`, from the register values of its D stage. -/
def frameBytes (c : Ctx) (w : MWord) (upc : CsAddr) : List Byte :=
  let mask := w.imm48.extractLsb' 0 16
  let cls := w.imm48.extractLsb' 16 2
  bytesOf 2 ((upc + 1).setWidth 16) ++ bytesOf 2 mask ++ [cls.setWidth 8, c.ssp.setWidth 8, 0, 0] ++
  ((savedBits cls mask).map (savedReg c cls)).flatten

/-- The context's tenant on requests of a level (R69, R156). -/
def reqTenant (c : Ctx) : Lvl → Tenant
  | .prog => c.tenant
  | _ => 0

end Sys2Proof.Machine
end

