-- ==== Sys2Proof/Machine/Timers.lean ====
section
/-! DEFINITION. The timers, the TIMER_GO release, TICKSEC and the event pins (07_tense_timers.md). -/

namespace Sys2Proof.Machine
open Sys2Proof

/-! ### Fields of TMR_CFG (R199) -/

def Timer.run (t : Timer) : Bool := t.cfg.getLsbD 0
def Timer.arm (t : Timer) : Bool := t.cfg.getLsbD 1
def Timer.updown (t : Timer) : Bool := t.cfg.getLsbD 2
def Timer.presc (t : Timer) : BitVec 4 := t.cfg.extractLsb' 4 4
def Timer.dbgrun (t : Timer) : Bool := t.cfg.getLsbD 8
def Timer.capen (t : Timer) : Bool := t.cfg.getLsbD 9
def Timer.capedge (t : Timer) : BitVec 2 := t.cfg.extractLsb' 10 2
def Timer.capsel (t : Timer) : BitVec 6 := t.cfg.extractLsb' 12 6

/-- Modes that honour MODE = 1 (R206). -/
def Mode.honoursUpdown : Mode → Bool
  | .service | .quiesce => true
  | _ => false

/-- STAT.FORCED (R206). -/
def Block.forced (b : Block) : Bool := !b.mode.honoursUpdown

/-- The cluster's island is paused for a crossing retrain (R374). -/
def Block.paused_ (b : Block) (c : CluId) : Bool := (Map.get none b.paused c.toNat).isSome

/-- The timer counts: RUN = 1, not frozen, its cluster awake, and its island not paused (R199, R374). -/
def Block.running (b : Block) (c : CluId) (x : Nat) : Bool :=
  let t := b.timer c x
  t.run && !t.frozen && !(b.clu c).asleep && !(b.paused_ c) && decide (b.mode ≠ .off)

/-- The residue (R204). -/
def Block.residue (b : Block) (c : CluId) (x : Nat) : Nat :=
  let t := b.timer c x
  if b.running c x then b.now - t.base else t.held

/-- The events of a timer: its compare (R209, R219), and a cluster timer's wrap or turn at zero. -/
def compareEvent (c : CluId) (x : Nat) (b : Block) : Block :=
  if x < 8 then
    let b := raise (.ctmr c (BitVec.ofNat 3 x)) b
    if x = 0 then raiseN (0x180 + c.toNat) b else b
  else raise (.etmr (mkEng c (BitVec.ofNat 3 ((x - 8) / 4))) (BitVec.ofNat 2 ((x - 8) % 4))) b
def wrapEvent (c : CluId) (x : Nat) (b : Block) : Block :=
  if x < 8 then raise (.cwrap c (BitVec.ofNat 3 x)) b else b

/-! ### Counting (R204, R205) -/

/-- One step of the count: the timer after it, and whether WRAP was set. `ud` is the mode in force. The table of R205 has no
row for a sawtooth step with the count above R, which a forced change to sawtooth can leave (R206): the model wraps it
to 0 (DESIGN CHOICE, log entry 74). -/
def countStep (ud : Bool) (now : Nat) (t : Timer) : Timer × Bool :=
  let arm (t : Timer) : Timer := { t with armed := true, armedAt := now }
  if !ud then
    if t.count.toNat < t.rld.toNat then ({ t with count := t.count + 1 }, false)
    else (arm { t with count := 0, wrap := t.wrap.set now }, true)
  else if !t.down then
    if t.count.toNat < t.rld.toNat then ({ t with count := t.count + 1 }, false)
    else if t.rld = 0 then (arm { t with count := 0, wrap := t.wrap.set now }, true)
    else (arm { t with count := t.count - 1, down := true }, false)
  else if t.count ≠ 0 then ({ t with count := t.count - 1 }, false)
  else (arm { t with count := if t.rld = 0 then 0 else 1, down := false, wrap := t.wrap.set now }, true)

/-- TIMER_STEP: the residue has reached 2^p. A late step takes 2^p off the residue. -/
def opTimerStep (c : CluId) (x : BitVec 6) (b : Block) : Block :=
  let i := x.toNat
  let t := b.timer c i
  if decide (i < 40) && b.running c i && decide (2 ^ t.p.toNat ≤ b.now - t.base) then
    let r := countStep (t.updown && !b.forced) b.now t
    let b := b.modTimer c i (fun _ => { r.1 with base := t.base + 2 ^ t.p.toNat, p := t.presc })
    if r.2 then wrapEvent c i b else b
  else b

/-- The half-range test of R209. -/
def compareHolds (t : Timer) : Bool :=
  if t.down then reached t.cmp t.count else reached t.count t.cmp

/-- TIMER_COMPARE_FIRE: an armed compare of a running timer is evaluated from the tick after its arming (R208, R209). -/
def opTimerCompareFire (c : CluId) (x : BitVec 6) (b : Block) : Block :=
  let i := x.toNat
  let t := b.timer c i
  if decide (i < 40) && b.running c i && t.armed && decide (t.armedAt < b.now) && compareHolds t then
    compareEvent c i (b.modTimer c i (fun t => { t with cmpf := t.cmpf.set b.now, armed := false }))
  else b

/-! ### Writes (R200..R208) -/

/-- A count above RLD acts, in the tick after the write that left it there (R207). -/
def rangeCorrect (c : CluId) (x : Nat) (b : Block) : Block :=
  let t := b.timer c x
  if t.rld.toNat < t.count.toNat then
    if !(t.updown && !b.forced) then
      wrapEvent c x (b.modTimer c x (fun t => { t with
        count := 0, wrap := t.wrap.set b.now, base := b.now, held := 0, armed := true, armedAt := b.now }))
    else if !t.down then b.modTimer c x (fun t => { t with down := true, armed := true, armedAt := b.now })
    else b
  else b

/-- The corrections that writes of an earlier tick have asked for. -/
def fixesDue (b : Block) : List (CluId × Nat × Nat) := b.fab.fixes.filter (fun x => decide (x.2.2 < b.now))
/-- They act, at rank 4 of the tick after the write (R24, R207). -/
def rangeCorrections (b : Block) : Block :=
  if fixesDue b = [] then b
  else (fixesDue b).foldl (fun b x => rangeCorrect x.1 x.2.1 b)
    { b with fab := { b.fab with fixes := b.fab.fixes.filter (fun x => !(decide (x.2.2 < b.now))) } }

/-- A write that leaves the count above RLD asks for the correction of R207. -/
def askCorrect (c : CluId) (x : Nat) (b : Block) : Block :=
  let t := b.timer c x
  if t.rld.toNat < t.count.toNat then { b with fab := { b.fab with fixes := b.fab.fixes ++ [(c, x, b.now)] } } else b

/-- A commit of CMP: armed, and CMPF cleared (R208, R211). -/
def setCmp (c : CluId) (x : Nat) (v : Word) (b : Block) : Block :=
  b.modTimer c x (fun t => { t with cmp := v, armed := true, armedAt := b.now, cmpf := t.cmpf.clear b.now })

/-- A commit of an item: 0 CMP, 1 RLD, 2 count (R200, R201, R204, R207, R208). -/
def commitItem (c : CluId) (x item : Nat) (v : Word) (b : Block) : Block :=
  if 40 ≤ x then b
  else match item with
    | 0 => setCmp c x v b
    | 1 => askCorrect c x (b.modTimer c x (fun t => { t with rld := v }))
    | 2 => askCorrect c x (b.modTimer c x (fun t => { t with
        count := v, base := b.now, held := 0, armed := true, armedAt := b.now }))
    | _ => b

/-- RUN set: the residue starts at 0, with the prescaler in force (R204). `eval` is the last tick without evaluation. -/
def startTimer (now eval : Nat) (t : Timer) : Timer :=
  { t with cfg := t.cfg ||| 1, base := now, held := 0, p := t.presc, armedAt := max t.armedAt eval }

/-- An engine timer is frozen exactly while the debugger halts its engine and DBGRUN = 0; its residue is held. -/
def freezeTimer (e : EngId) (x : Nat) (b : Block) : Block :=
  let t := b.timer (cluOf e) x
  let stop := (b.eng e).halted && !t.dbgrun
  if stop == t.frozen then b
  else if stop then
    let r := b.residue (cluOf e) x
    b.modTimer (cluOf e) x (fun t => { t with frozen := true, held := r })
  else b.modTimer (cluOf e) x (fun t => { t with frozen := false, base := b.now - t.held })

/-- The four engine timers of an engine, after a halt or a release. -/
def freezeTimers (e : EngId) (b : Block) : Block :=
  times 4 (fun k b => freezeTimer e (8 + 4 * (engIn e).toNat + k) b) b

/-- A write of TMR_CFG (R199, R204, R208). A PRESC written while RUN = 1 takes effect at the next step, also where the timer is frozen
or its cluster asleep, which R204 does not say (the model's choice, log entry 112). DBGRUN of a cluster timer is reserved. Leaving up-down mode while counting
down turns the count upwards, as R206 does. -/
def writeTmrCfg (c : CluId) (x : Nat) (d : Reg32) (b : Block) : Block :=
  if 40 ≤ x then b
  else
    let v := d.extractLsb' 0 18 &&& (if x < 8 then 0x3FEF7 else 0x3FFF7)
    let b := b.modTimer c x (fun t =>
      let res := b.residue c x
      let t1 := { t with cfg := v }
      let t2 := if t1.run && !t.run then startTimer b.now b.now t1
        else if !t1.run then { t1 with held := if t.run then res else t.held, p := t1.presc } else t1
      if t2.down && !(t2.updown && !b.forced) then { t2 with down := false, armed := true, armedAt := b.now } else t2)
    if 8 ≤ x then freezeTimer (mkEng c (BitVec.ofNat 3 ((x - 8) / 4))) x b else b

/-- A W1C write of TMR_STAT (R199, R211). -/
def writeTmrStat (c : CluId) (x : Nat) (d : Reg32) (b : Block) : Block :=
  b.modTimer c x (fun t => { t with
    cmpf := t.cmpf.clearIf b.now (d.getLsbD 0), wrap := t.wrap.clearIf b.now (d.getLsbD 1),
    ovr := t.ovr.clearIf b.now (d.getLsbD 3), madeup := t.madeup.clearIf b.now (d.getLsbD 4) })

/-- TMR_STAT as it reads (R199, R26). -/
def tmrStat (b : Block) (c : CluId) (x : Nat) : Reg32 :=
  let t := b.timer c x
  bit 0 (t.cmpf.pre b.now) ||| bit 1 (t.wrap.pre b.now) ||| bit 2 (t.capf.pre b.now) ||| bit 3 (t.ovr.pre b.now) |||
  bit 4 (t.madeup.pre b.now) ||| bit 5 t.down |||
  bit 6 t.frozen ||| bit 7 (t.run && !t.frozen && !(b.clu c).asleep) ||| bit 8 b.forced

/-- The timers of a cluster forced to sawtooth: one that counts down turns upwards, and its compare is armed (R206). -/
def forceTimers (now : Nat) (m : Map Timer) : Map Timer :=
  (List.range 40).foldl (fun m x =>
    let t := Map.get {} m x
    if t.down then Map.set {} m x { t with down := false, armed := true, armedAt := now } else m) m

/-- The mode changes: the timers switch in its transition tick (R206). -/
def timersEnter (m : Mode) (b : Block) : Block :=
  if m.honoursUpdown then b
  else times 64 (fun i b =>
    let c : CluId := BitVec.ofNat 6 i
    if (b.clu c).timers = [] then b else b.modClu c (fun v => { v with timers := forceTimers b.now v.timers })) b

/-! ### Starting together (R212) -/

/-- A release: every armed timer of an awake cluster runs. -/
def releaseTimers (b : Block) : Block :=
  times 64 (fun i b =>
    let c : CluId := BitVec.ofNat 6 i
    if (b.clu c).asleep || (b.clu c).timers = [] then b
    else times 40 (fun x b =>
      if (b.timer c x).arm then
        b.modTimer c x (fun t =>
          let t1 := { t with cfg := t.cfg &&& 0x3FFFD }
          if t.run then t1 else startTimer b.now 0 t1)
      else b) b) b

/-- The release of R212 falls due: after a GO, or once GOAT's tick is reached. -/
def goDue (b : Block) : Bool :=
  (match b.fab.goAt with
   | some n => decide (n ≤ b.now)
   | none => false) ||
  (match b.fab.goatAt with
   | some n => decide (n < b.now) && reached b.tick b.fab.goTick
   | none => false)

/-- The GOAT release falls due by itself. -/
def goatDue (b : Block) : Bool := match b.fab.goatAt with
  | some n => decide (n < b.now) && reached b.tick b.fab.goTick
  | none => false

/-- TIMER_GO_RELEASE: a GO's, or that of a GOAT, whose PEND is then cleared; GOLATE where the first tick after the GOAT
write already lay past INST_GO_TICK. A GOAT written after the GO keeps PEND. -/
def opTimerGoRelease (b : Block) : Block :=
  if goDue b then
    let goat := goatDue b
    let late := goat && b.fab.goatLate
    let b := releaseTimers b
    raiseN 0x1E0 { b with fab := { b.fab with
      goAt := none, goatAt := if goat then none else b.fab.goatAt, goatLate := !goat && b.fab.goatLate
      golate := b.fab.golate.setIf b.now late } }
  else b

/-- A write of INST_TIMER_GO (R193, R212). -/
def writeTimerGo (d : Reg32) (b : Block) : Block :=
  if d.getLsbD 0 then { b with fab := { b.fab with goAt := some (b.now + 1), goatAt := none, goatLate := false } }
  else if d.getLsbD 1 then { b with fab := { b.fab with goatAt := some b.now, goatLate := false } }
  else b

/-! ### Capture (R213) -/

/-- An edge at input `sel` is captured by the timers of a cluster that select it. -/
def captureEdge (c : CluId) (sel : BitVec 6) (rising : Bool) (b : Block) : Block :=
  if (b.clu c).asleep || (b.clu c).timers = [] then b
  else times 40 (fun x b =>
    let t := b.timer c x
    if t.capen && t.capsel == sel && (if rising then t.capedge.getLsbD 0 else t.capedge.getLsbD 1) then
      b.modTimer c x (fun t => { t with
        cap := t.count, ovr := t.ovr.setIf b.now t.capf.on, capf := t.capf.set b.now })
    else b) b

/-- EVT_IN_EDGE: the pin's level has changed (R220). -/
def opEvtInEdge (n : BitVec 5) (b : Block) : Block :=
  if b.mode = .off then b
  else
    let rising := !(b.fab.evtIn.getLsbD n.toNat)
    let b := { b with fab := { b.fab with evtIn := putBit b.fab.evtIn n.toNat rising } }
    let b := raiseN ((if rising then 0x100 else 0x120) + n.toNat) b
    times 64 (fun i b => captureEdge (BitVec.ofNat 6 i) (0x20 + n.setWidth 6) rising b) b

/-! ### TICKSEC and the pins -/

/-- TICKSEC: TICK_NOW is a multiple of 10^9, or the next value after one that was skipped (R219). -/
def opTicksec (b : Block) : Block :=
  if decide (b.mode ≠ .off) && (b.tick.toNat % 1000000000 == 0 || b.fab.ticksecSkip) && b.fab.ticksecAt != some b.now then
    raiseN 0x1E1 { b with fab := { b.fab with ticksecAt := some b.now, ticksecSkip := false } }
  else b

/-- EVT_OUT_CHANGE: the earliest change scheduled on the pin falls due (R222). -/
def opEvtOutChange (n : BitVec 5) (b : Block) : Block :=
  match b.fab.sched.find? (fun c => c.n == n) with
  | some c =>
    if c.at_ ≤ b.now then
      let w := ((b.evtReg n).extractLsb' 12 8).toNat
      { b with fab := { b.fab with
          sched := b.fab.sched.erase c
          pins := if c.toggle then b.fab.pins ^^^ BitVec.ofNat 32 (2 ^ n.toNat) else putBit b.fab.pins n.toNat true
          pulseEnd := if c.toggle then b.fab.pulseEnd else Map.set 0 b.fab.pulseEnd n.toNat (c.at_ + w + 1) } }
    else b
  | none => b

/-- EVT_OUT_PULSE_END: WIDTH + 1 ticks have passed (R222). -/
def opEvtOutPulseEnd (n : BitVec 5) (b : Block) : Block :=
  let t := Map.get 0 b.fab.pulseEnd n.toNat
  if t ≠ 0 ∧ t ≤ b.now then
    { b with fab := { b.fab with pins := putBit b.fab.pins n.toNat false, pulseEnd := Map.set 0 b.fab.pulseEnd n.toNat 0 } }
  else b

/-- The changes of pin n that fall due at the end of this tick, or have fallen due, reach it. -/
def dueChanges (n : BitVec 5) (b : Block) : Block := times b.fab.sched.length (fun _ b => opEvtOutChange n b) b

/-- A write of INST_EVTOUT[n] acts from the next tick (R221, R222): changes due in this one stand; a change of MODE or SEL drops scheduled changes; a change of MODE ends a
running pulse at the next tick; a held level drives the pin from the next tick. -/
def writeEvtOut (n : BitVec 5) (d : Reg32) (b : Block) : Block :=
  let b := dueChanges n b
  let old := b.evtReg n
  let new := d &&& 0xFFFFF
  let md := new.extractLsb' 10 2
  let modeChange := decide (md ≠ old.extractLsb' 10 2)
  let changed := modeChange || decide (new.extractLsb' 0 10 ≠ old.extractLsb' 0 10)
  let pe := Map.get 0 b.fab.pulseEnd n.toNat
  { b with fab := { b.fab with
      evtOut := Map.set 0x3FF b.fab.evtOut n.toNat new
      sched := if changed then b.fab.sched.filter (fun c => c.n != n) else b.fab.sched
      evtWrit := if changed then Map.set 0 b.fab.evtWrit n.toNat (b.now + 1) else b.fab.evtWrit
      pulseEnd := if md = 0 ∨ md = 3 then Map.set 0 b.fab.pulseEnd n.toNat 0
        else if modeChange && pe != 0 then Map.set 0 b.fab.pulseEnd n.toNat (min pe (b.now + 1)) else b.fab.pulseEnd
      drives := b.fab.drives.filter (fun x => x.1 != n) ++
        (if md = 0 then [(n, false)] else if md = 3 then [(n, true)] else []) } }

/-- The levels that the writes of the tick before drive. -/
def driveTo (b : Block) : Block :=
  { b with fab := { b.fab with
      drives := [], pins := b.fab.drives.foldl (fun p x => putBit p x.1.toNat x.2) b.fab.pins } }

/-! ### Sleep and make-up (R217, R218) -/

/-- `n` steps, the armed compare evaluated after each: the timer, and whether WRAP was set and a compare fired. -/
def makeupSteps (ud : Bool) (now : Nat) : Nat → Timer → Bool → Bool → Timer × Bool × Bool
  | 0, t, w, f => (t, w, f)
  | n + 1, t, w, f =>
    let r := countStep ud now t
    if r.1.armed && compareHolds r.1 then makeupSteps ud now n { r.1 with armed := false } (w || r.2) true
    else makeupSteps ud now n r.1 (w || r.2) f

/-- A timer with RUN = 1 is advanced by `ticks`, all of it by the exponent in force when it stopped, also where a PRESC has been
written since (R217 does not say: the model's choice, log entry 113); `mark` sets MADEUP (R218, R375). -/
def advance (ticks : Nat) (mark : Bool) (c : CluId) (x : Nat) (b : Block) : Block :=
  let t := b.timer c x
  if t.run && !t.frozen then
    let total := t.held + ticks
    let steps := total / 2 ^ t.p.toNat
    let r := makeupSteps (t.updown && !b.forced) b.now steps t false false
    let res := total - steps * 2 ^ t.p.toNat
    let b := b.modTimer c x (fun _ => { r.1 with
      madeup := r.1.madeup.setIf b.now mark, base := b.now - res, held := 0, armedAt := b.now, cmpf := r.1.cmpf.setIf b.now r.2.2,
      p := if steps = 0 then t.p else t.presc })
    let b := if r.2.1 then wrapEvent c x b else b
    if r.2.2 then compareEvent c x b else b
  else b

/-- Ticks of `edges` rising edges of CLK_SLOW (R218). -/
def slowTicks (edges : Nat) : Nat := edges * 1953125 / 64

/-- The timers of a cluster keep their residues while it sleeps. -/
def holdTimers (c : CluId) (b : Block) : Block :=
  times 40 (fun x b => if b.running c x then b.modTimer c x (fun t => { t with held := b.now - t.base }) else b) b

end Sys2Proof.Machine
end

