-- ==== Sys2Proof/Machine/Exceptions.lean ====
section
/-! DEFINITION. Exceptions: what is pending, where it is taken, entry into a shadow bank, double and third faults, and
RETX (05_exceptions.md). -/

namespace Sys2Proof.Machine
open Sys2Proof

def Lvl.num : Lvl → Nat
  | .prog => 0
  | .bank1 => 1
  | .bank2 => 2

/-! ### Pending exceptions (R151, R157) -/

/-- The exceptions of a context are one. -/
def Exc.same (x y : Exc) : Bool := y.code == x.code && decide (y.lvl = x.lvl)

/-- An exception becomes pending: one of a code already pending merges into it (R151). A handler's own exception does not
merge into one of the interrupted level, since it is a double fault (R162). A precise or deferred fault also sends its record
(R157, R440); of a trap or DEBUG, which an injected word makes precise, R440 lists none. -/
def pendExc (n : CtxNo) (x : Exc) (b : Block) : Block :=
  let c := b.ctx n
  let excs :=
    if c.excs.any x.same then c.excs.map (fun y => if x.same y then { y with mult := true } else y)
    else c.excs ++ [{ x with at_ := b.now }]
  let b := b.setCtx n { c with excs := excs }
  if (x.kind = 0 ∨ x.kind = 1) ∧ x.code.toNat ≤ 9 then
    detect (engOf n).toNat x.code.toNat
      (x.fupc.setWidth 24 ||| (ctxOf n).setWidth 24 <<< 14 ||| x.sub.setWidth 24 <<< 18) b
  else b

/-- The interrupt condition of R152: the latches admitted by ENG_IRQEN, and SWI as the tick found it, so that a write of the
tick of an entry asks for the next (R26). -/
def irqBits (b : Block) (n : CtxNo) : BitVec 24 :=
  (b.ctx n).latch.on &&& Map.get 0 (b.eng (engOf n)).irqMask (ctxOf n).toNat
def irqPending (b : Block) (n : CtxNo) : Bool :=
  decide ((b.ctx n).lvl = .prog) && statIE (b.ctx n).stat &&
  (irqBits b n != 0 || ((b.eng (engOf n)).swi.pre b.now).getLsbD (ctxOf n).toNat)

/-- The interrupt as an exception (R146). -/
def intExc (b : Block) (n : CtxNo) : Exc :=
  { code := 0x0D, kind := 3, sub := 0, fupc := 0, lvl := .prog,
    einfo := (irqBits b n).setWidth 48 |||
      (if ((b.eng (engOf n)).swi.pre b.now).getLsbD (ctxOf n).toNat then 0x1000000 else 0) }

/-! ### Boundaries (R149) -/

/-- Where a context is inside a wait that R149 counts as a boundary, or between two words. -/
def Act.boundary (mid : Bool) : Act → Bool
  | .idle | .wait .. | .yieldOn _ | .sync .. | .atWait .. | .longNext _ | .park .. => true
  | .shift _ => !mid
  | _ => false

/-- Waits end at any cycle; the other boundaries lie before a word. -/
def Act.waiting : Act → Bool
  | .wait .. | .yieldOn _ | .sync .. | .atWait .. | .park .. | .shift _ | .longNext _ => true
  | _ => false

/-- The waits at whose end a step ends (R470). -/
def Act.stepWaits : Act → Bool
  | .wait .. | .yieldOn _ | .sync .. | .atWait .. => true
  | _ => false

/-- Between two steps of a long instruction (R139). -/
def Act.midLong : Act → Bool
  | .longNext _ | .shift _ => true
  | _ => false

/-- The pin group of a context's shift word. -/
def shiftGroup (w : MWord) : BitVec 4 := w.imm48.extractLsb' 0 4

/-- The shift word of a context is inside a bit time of the group that it holds. -/
def midBit (b : Block) (n : CtxNo) : Bool :=
  match (b.ctx n).act with
  | .shift s =>
    let p := b.pg (cluOf (engOf n)) (shiftGroup s.w)
    p.began.isSome && p.owner == some n
  | _ => false

/-- An AT word is due from 16 ticks before its target on (R54): it is at no boundary then, though it waits for its entry. -/
def atIsDue (b : Block) (n : CtxNo) : Bool := match (b.ctx n).act with
  | .atWait _ t _ => reached (b.tick + 16) t
  | _ => false

/-- The context is at a boundary: bound, not halted, not in EXCWAIT, and its divide has ended (R149). -/
def atBoundary (b : Block) (n : CtxNo) : Bool :=
  let c := b.ctx n
  c.chan.isSome && c.mchk.isNone && !c.excWait && c.act.boundary (midBit b n) && !(atIsDue b n) &&
  !((b.eng (engOf n)).dividing (ctxOf n))

/-! ### Fetch (R169, R181) -/

/-- The control-store key of a cluster's address. -/
def csKey (c : CluId) (a : CsAddr) : Nat := c.toNat * 16384 + a.toNat

/-- The patch table that an engine has activated (R184). -/
def tableOf (b : Block) (e : EngId) : Map Reg32 :=
  let v := b.clu (cluOf e)
  if v.pmWait.getLsbD (engIn e).toNat then v.pmOld else v.pm

/-- The address that a fetch of `x` reads: the lowest enabled entry that names it redirects it (R181). -/
def fetchAddr (b : Block) (e : EngId) (x : CsAddr) : CsAddr :=
  let t := tableOf b e
  match (List.range 32).find? (fun i => let r := Map.get 0 t i; r.getLsbD 31 && r.extractLsb' 0 14 == x) with
  | some i => 0x2000 + ((Map.get 0 t i).extractLsb' 14 9).setWidth 14
  | none => x

/-- An address lies in the range of the engine's loop buffer, at an offset (R67). -/
def Eng.inRange (g : Eng) (x : CsAddr) : Bool :=
  g.lbOn && decide (g.lbBase.toNat ≤ x.toNat ∧ x.toNat ≤ g.lbBase.toNat + g.lbLast.toNat)
def Eng.lbOff (g : Eng) (x : CsAddr) : Nat := x.toNat - g.lbBase.toNat

/-- The loop buffer holds its whole range (R67). -/
def lbValid (g : Eng) : Bool := g.lbOn && (List.range (g.lbLast.toNat + 1)).all (fun i => (Map.get none g.lbBuf i).isSome)
/-- It supplies the word at `x`. -/
def inLoop (g : Eng) (x : CsAddr) : Bool := g.inRange x && lbValid g

/-- The word that a fetch of `x` reads, with its parity: the loop buffer's, or the store's. -/
def fetchP (b : Block) (e : EngId) (x : CsAddr) : PWord :=
  let g := b.eng e
  if inLoop g x then (Map.get none g.lbBuf (g.lbOff x)).getD 0
  else Map.get 0 b.cs (csKey (cluOf e) (fetchAddr b e x))

/-- The word at a context's UPC. -/
def fetchW (b : Block) (n : CtxNo) : MWord := (fetchP b (engOf n) (b.ctx n).upc).word

/-! ### Eligibility (R30, R37, R38, R70, R263) -/

/-- Modes in which engines issue (R406); in TEST, as the Debug Access Port releases them. -/
def Mode.issues : Mode → Bool
  | .service | .recover | .quiesce | .test => true
  | _ => false

/-- The engine runs words: released from reset, powered, its cluster awake, its island not paused (R74, R374, R411,
R431). -/
def engineLive (b : Block) (e : EngId) : Bool :=
  b.mode.issues && !(b.eng e).inReset && !(b.fenced (secOf e)) && !(b.clu (cluOf e)).asleep && !(b.paused_ (cluOf e))

/-- The next word waits for its tag, for the divider, for the Affix queue or for its lane queue. -/
def wordStall (b : Block) (n : CtxNo) (w : MWord) : Bool :=
  let g := b.eng (engOf n)
  let l := b.lanes (cluOf (engOf n))
  (w.takesTag && (g.tag w.mtag).isSome) || (w.isDiv && g.div.isSome) || (w.isAfx && decide (8 ≤ g.afxQ.length)) ||
  (w.always && ((w.laneop == 1 && l.full w.lq) || ((w.laneop == 2 || w.laneop == 3) && l.empty w.lq)))

/-- The context would be eligible but for the exception (R30, R150): enabled, not dividing and, between words, not stalled. -/
def wouldIssue (b : Block) (n : CtxNo) : Bool :=
  let g := b.eng (engOf n)
  g.ctxEn.getLsbD (ctxOf n).toNat && !(g.dividing (ctxOf n)) &&
  ((b.ctx n).act.waiting || !(wordStall b n (fetchW b n)))

/-! ### Progress of long instructions (R136, R137) -/

/-- The progress register that a level's long instructions use (R155). -/
def progress (l : Lvl) (c : Ctx) : Word := if l = .prog then c.prog else c.hprog
def setProgress (l : Lvl) (c : Ctx) (v : Word) : Ctx := if l = .prog then { c with prog := v } else { c with hprog := v }
def progActive (p : Word) : Bool := p.getLsbD 47
def progOp (p : Word) : Byte := p.extractLsb' 32 8
def progDone (p : Word) : Nat := (p.extractLsb' 0 32).toNat
def mkProg (op : Byte) (done : Nat) : Word := 0x800000000000 ||| (op.setWidth 48 <<< 32) ||| BitVec.ofNat 48 (done % 2 ^ 32)

/-! ### Choice (R151) -/

/-- The order of R151 among kinds and codes. -/
def Exc.rank (x : Exc) : Nat :=
  if x.kind = 0 then 0 else if x.kind = 1 then 1
  else if x.code = 0x0B then 2 else if x.code = 0x0A then 3 else if x.code = 0x0C then 4 else 5

/-- The exception of least rank, earliest first. -/
def firstExc : List Exc → Option Exc
  | [] => none
  | x :: l => match firstExc l with
    | some y => if x.rank ≤ y.rank then some x else some y
    | none => some x

/-- An OVF or DZ trap of the word that the context is still at: it follows the word (R120, R129, R146). A long instruction that
has stopped is not over while PROG is active. -/
def heldTrap (c : Ctx) (x : Exc) : Bool :=
  x.kind == 2 && (x.code == 0x0A || x.code == 0x0B) && x.fupc == c.upc && decide (x.lvl = c.lvl) &&
  (match c.act with
    | .wait .. | .yieldOn _ | .sync .. | .longNext _ | .shift _ => true
    | .idle => progActive (progress c.lvl c)
    | _ => false)

/-- A halt is asked for, or the engine's halt is under way: the context halts at its next boundary. A step is not over
while its wait lasts. -/
def mustHalt (b : Block) (n : CtxNo) : Bool :=
  let c := b.ctx n
  let d := (b.eng (engOf n)).dbg
  c.halt.request.isSome ||
    (d.haltReq && !c.halt.stepping && !(decide (d.step = some (ctxOf n)) && c.act.stepWaits))
/-- The context is to halt, or the debugger holds it. -/
def haltPending (b : Block) (n : CtxNo) : Bool := (b.ctx n).halt.halted || mustHalt b n

/-- Contexts that wait for the level-1 bank and may have it; one that the debugger holds keeps its exception pending
(R466). -/
def bankWaiters (b : Block) (e : EngId) : List CtxId := (b.eng e).waitq.filter (fun k => !(haltPending b (ctxNo e k)))
/-- The level-1 bank is held, or goes to a waiter (R161). -/
def bankTaken (b : Block) (e : EngId) : Bool := (b.eng e).xb1.held || !((bankWaiters b e).isEmpty)

/-- The exception that the context takes at its present boundary, if any (R150, R151, R161, R162). -/
def takeable (b : Block) (n : CtxNo) : Option Exc :=
  let c := b.ctx n
  if !(atBoundary b n) then none
  else
    let ok := c.excs.filter (fun x =>
      decide (c.lvl.num ≤ x.lvl.num) && (x.kind != 1 || wouldIssue b n) && !(heldTrap c x))
    match firstExc ok with
    | some x => some x
    | none => if irqPending b n && !(bankTaken b (engOf n)) && wouldIssue b n then some (intExc b n) else none

/-! ### Leaving a wait (R139, R154, R272) -/

/-- An arrival at a barrier is withdrawn (R95). -/
def withdraw (n : CtxNo) (b : Block) : Block :=
  match (b.ctx n).act with
  | .sync bar _ _ => b.modClu (cluOf (engOf n)) (fun v =>
      let r := Map.get {} v.bars bar.toNat
      let m := r.members.filter (fun x => x != n)
      { v with bars := Map.set {} v.bars bar.toNat (if m = [] then {} else { r with members := m }) })
  | _ => b

/-- The wait, or the long instruction between steps, is abandoned with UPC on its word: a SYNC arrival withdrawn, a
long memory operation's tag freed, a shift word stopped on its held group, or its request for the group withdrawn. A word whose
wait is abandoned has not ended, and is issued again as a whole (R154): the trap that was to follow it goes with the wait. -/
def abandon (n : CtxNo) (b : Block) : Block :=
  let e := engOf n
  let b := withdraw n b
  let b := match (b.ctx n).act with
    | .longNext s => b.modEng e (fun g => g.setTag s.w.mtag none)
    | .shift s =>
      let b := b.modLanes (cluOf e) (fun l => { l with reqs := l.reqs.filter (fun r => r.n != n) })
      if (b.pg (cluOf e) (shiftGroup s.w)).owner = some n then
        b.modPg (cluOf e) (shiftGroup s.w) (fun p => { p with stopped := true })
      else b
    | _ => b
  b.modCtx n (fun c => { c with
    act := .idle, excs := if c.act.stepWaits then c.excs.filter (fun x => !(heldTrap c x)) else c.excs })

/-! ### Entry (R147, R155, R157, R158, R163, R164) -/

/-- The vector of a cause code (R147). -/
def vector (v : Clu) (code : BitVec 6) : CsAddr := BitVec.ofNat 14 (v.xvBase.toNat * 64 + code.toNat * 4)

/-- Entry faults: no vector table, or a vector above 0x21FF; for DEBUG, no valid monitor entry (R163, R472). -/
def entryFaults (v : Clu) (code : BitVec 6) : Bool :=
  if code = 0x0E then !v.monValid || decide (0x21FF < v.monEntry.toNat)
  else !v.xvValid || decide (0x21FF < (vector v code).toNat)

/-- ECAUSE (R158). -/
def ecause (x : Exc) (long : Bool) (l2 : Bool) : Word :=
  x.code.setWidth 48 ||| x.kind.setWidth 48 <<< 6 ||| x.sub.setWidth 48 <<< 8 ||| x.fupc.setWidth 48 <<< 14 |||
  x.tag.setWidth 48 <<< 28 ||| (if long then 0x200000000 else 0) ||| (if x.mult then 0x400000000 else 0) |||
  (if l2 then 0x800000000 else 0)

/-- STAT at entry: PRIV = 1 and PCLS = 1 (R155). -/
def entryStat : Word := 0x30000

/-- A bank as entry leaves it, from the state that it saves. -/
def enterBank (k : Bank) (n : CtxNo) (ec : Word) (upc : CsAddr) (info stat prog : Word) : Bank :=
  { k with owner := ctxOf n, held := true, ecause := ec, eupc := upc, estat := stat, epriv := statPriv stat,
           einfo := info, eprog := prog, stat := entryStat, lc := 0, cmap := 0, ssp := 0, priv := 0 }

/-- A request for an engine reset in the next tick (R164, R418). -/
def requestEngineReset (e : EngId) (b : Block) : Block :=
  b.modEng e (fun g => { g with resetAt := some (b.now + 1) })

/-- Contexts of an engine are reset in the next tick (R418). -/
def requestCtxReset (e : EngId) (m : BitVec 16) (b : Block) : Block :=
  b.modEng e (fun g => { g with
    ctxResetAt := some (b.now + 1, m ||| (match g.ctxResetAt with
      | some x => x.2
      | none => 0)) })

/-- A third fault: its record, and the engine reset (R164). -/
def thirdFault (n : CtxNo) (code : BitVec 6) (b : Block) : Block :=
  detect (engOf n).toNat 0x20 ((ctxOf n).setWidth 24 ||| code.setWidth 24 <<< 4) (requestEngineReset (engOf n) b)

/-- Level-2 entry for a double fault: the level-1 handler's state is saved (R163). The record of a third fault that
meets this entry carries the code 0x10 of the exception being entered (R164 does not say which: DESIGN CHOICE, log entry 77). -/
def enterLevel2 (n : CtxNo) (x : Exc) (long : Bool) (b : Block) : Block :=
  let v := b.clu (cluOf (engOf n))
  if entryFaults v 0x10 then thirdFault n 0x10 b
  else
    let g := b.eng (engOf n)
    let x2 := { x with code := 0x10, sub := x.code }
    let k := enterBank g.xb2 n (ecause x2 long true) (b.ctx n).upc x.einfo g.xb1.stat g.xb1.priv
    (b.modEng (engOf n) (fun g => { g with xb2 := { k with epriv := true } })).modCtx n
      (fun c => { c with lvl := .bank2, upc := vector v 0x10, excWait := false, halt := { c.halt with skipCmp := false } })

/-- Level-1 entry, whose first word is another than the one that a release let go on (R475); a fault during it is a double fault, whose EUPC is the return address of the entry (R157, R163). -/
def enterLevel1 (n : CtxNo) (x : Exc) (long : Bool) (b : Block) : Block :=
  let v := b.clu (cluOf (engOf n))
  let c := b.ctx n
  let k := enterBank (b.eng (engOf n)).xb1 n (ecause x long false) c.upc x.einfo c.stat c.prog
  let b := b.modEng (engOf n) (fun g => { g with xb1 := k })
  let b := b.modCtx n (fun c => { c with lvl := .bank1, excWait := false, halt := { c.halt with skipCmp := false } })
  if entryFaults v x.code then enterLevel2 n x long b
  else b.modCtx n (fun c => { c with upc := if x.code = 0x0E then v.monEntry else vector v x.code })

/-- The context leaves what it does for exception `x`. A trap of a PARK word follows the word, whose next word is at UPC + 1
(R146). -/
def leaveFor (n : CtxNo) (x : Exc) (b : Block) : Block :=
  let c := b.ctx n
  let past := (match c.act with
    | .park .. => x.kind == 2 && x.fupc == c.upc && decide (x.lvl = c.lvl)
    | _ => false)
  (abandon n b).modCtx n (fun c => { c with upc := if past then c.upc + 1 else c.upc })

/-- The context takes exception `x`: it leaves its wait, and enters the bank above its level (R157, R163, R164). -/
def enter (n : CtxNo) (x : Exc) (b : Block) : Block :=
  let c := b.ctx n
  let long := x.long || c.act.midLong
  let b := leaveFor n x b
  let b := b.modCtx n (fun c => { c with excs := c.excs.filter (fun y => !(x.same y)) })
  let b := if x.code = 0x0D then
      b.modEng (engOf n) (fun g => { g with swi := g.swi.clear b.now (BitVec.ofNat 16 (2 ^ (ctxOf n).toNat)) }) else b
  match c.lvl with
  | .prog => enterLevel1 n x long b
  | .bank1 => enterLevel2 n x long b
  | .bank2 => thirdFault n x.code b

/-- The step of a context has made its selection, or its entry. -/
def endStepping (n : CtxNo) (b : Block) : Block := b.modCtx n (fun c => { c with halt := { c.halt with stepping := false } })

/-- The completion of a WAIT on its source: a latch is cleared, TMO is cleared, and the context goes on (R50). -/
def waitDone (n : CtxNo) (src : BitVec 6) (b : Block) : Block :=
  let l := (b.ctx n).lvl
  let b := b.modFile n l (fun c => { c with stat := putBit c.stat 8 false, upc := c.upc + 1, act := .idle })
  if 40 ≤ src.toNat then b.modCtx n (fun c => { c with latch := c.latch.drop (BitVec.ofNat 24 (2 ^ (src.toNat - 40))) }) else b

/-- A WAIT whose source is true completes (R50); every other context stays as it is. -/
def settle (n : CtxNo) (b : Block) : Block :=
  match (b.ctx n).act with
  | .wait s lq _ _ => if source b n (b.file n (b.ctx n).lvl) lq s then waitDone n s b else b
  | _ => b

/-- The contexts of a cluster settle, in ascending order. -/
def settleClu (c : CluId) (b : Block) : Block :=
  times 128 (fun i b => settle (c ++ BitVec.ofNat 7 i : BitVec 13) b) b

/-- EXCEPTION_ENTRY: the context takes the exception that R151 chooses at its boundary. A WAIT that completes there
completes first (R154). With the level-1 bank held by another, a fault or trap waits in EXCWAIT (R161). -/
def opExceptionEntry (n : CtxNo) (b : Block) : Block :=
  let b := settle n b
  if !(engineLive b (engOf n)) || haltPending b n then b
  else match takeable b n with
    | none => b
    | some x =>
      let long := (b.ctx n).act.midLong
      if (b.ctx n).lvl = .prog ∧ bankTaken b (engOf n) then
        (endStepping n (leaveFor n x b)).modEng (engOf n) (fun g => { g with waitq := g.waitq ++ [ctxOf n] }) |>.modCtx n
          (fun c => { c with
            excWait := true, excs := c.excs.map (fun y => if x.same y then { y with long := y.long || long } else y) })
      else endStepping n (enter n x b)

/-- `now` at which the exception that a context would take became pending. -/
def pendSince (b : Block) (e : EngId) (k : CtxId) : Nat := match firstExc (b.ctx (ctxNo e k)).excs with
  | some x => x.at_
  | none => b.now
/-- The waiter whose exception became pending earliest, of several the lowest context ID. -/
def firstWaiter (b : Block) (e : EngId) : Option CtxId :=
  (bankWaiters b e).find? (fun k => (bankWaiters b e).all (fun j =>
    decide (pendSince b e k < pendSince b e j ∨ (pendSince b e k = pendSince b e j ∧ k.toNat ≤ j.toNat))))

/-- SHADOW_BANK_GRANT: the freed level-1 bank goes to the first waiter (R161). -/
def opShadowBankGrant (e : EngId) (b : Block) : Block :=
  let g := b.eng e
  if g.xb1.held then b
  else match firstWaiter b e with
    | none => b
    | some k =>
      let n := ctxNo e k
      let b := b.modEng e (fun g => { g with waitq := g.waitq.erase k })
      match firstExc (b.ctx n).excs with
      | some x => enter n x b
      | none => b.modCtx n (fun c => { c with excWait := false })

/-! ### RETX (R165) -/

/-- RETX after its checks: STAT, UPC and PROG come back as the D stage read them, and the bank is freed. -/
def retxDo (n : CtxNo) (s : Snap) (b : Block) : Block :=
  let e := engOf n
  match (b.ctx n).lvl with
  | .prog => b
  | .bank1 =>
    let k := (b.eng e).xb1
    (b.modEng e (fun g => { g with xb1 := { g.xb1 with held := false } })).modCtx n
      (fun c => { c with lvl := .prog, stat := k.estat, upc := s.eupc, prog := s.eprog,
                         halt := { c.halt with skipCmp := true } })
  | .bank2 =>
    let k := (b.eng e).xb2
    (b.modEng e (fun g => { g with xb2 := { g.xb2 with held := false },
                                   xb1 := { g.xb1 with stat := k.estat, priv := s.eprog } })).modCtx n
      (fun c => { c with lvl := .bank1, upc := s.eupc, halt := { c.halt with skipCmp := true } })

end Sys2Proof.Machine
end

