-- ==== Sys2Proof/Machine/Issue.lean ====
section
/-! DEFINITION. The issue of a microword: the checks of its D and X stages, its W stage in the order of R88, and its
sequencer operation (02, 03, 04, 05, 09, 16). A word is issued once; the row of any operation that it holds issues it. -/

namespace Sys2Proof.Machine
open Sys2Proof

/-! ### Memory map checks (R224 orders 1 to 6) -/

inductive Area where
  | main | dpr | window | affix | none
  deriving DecidableEq, Repr

/-- The one area that holds every byte of an access (R223). -/
def areaOf (ea n : Nat) : Area :=
  if ea + n ≤ 0x4000000 then .main
  else if 0x4000000 ≤ ea ∧ ea + n ≤ 0x4200000 then .dpr
  else if 0x80000000 ≤ ea ∧ ea + n ≤ 0x81000000 then .window
  else if 0x100000000 ≤ ea ∧ ea + n ≤ 0x200000000 then .affix
  else .none

/-- Operations that Affix space allows (R223). -/
def affixAllows (op : BitVec 6) : Bool := decide ((1 ≤ op.toNat ∧ op.toNat ≤ 7) ∨ (0x10 ≤ op.toNat ∧ op.toNat ≤ 0x13))

/-- Orders 1 to 6 of R224: cause code and sub-code. -/
def mapFault (b : Block) (priv : Bool) (op : BitVec 6) (ea n : Nat) : Option (BitVec 6 × BitVec 6) :=
  match areaOf ea n with
  | .none => some (5, 1)
  | ar =>
    if (op = 7 ∨ op = 0x13 ∨ op = 0x18 ∨ op = 0x19) ∧ ea % 2 = 1 then some (5, 2)
    else match ar with
      | .window =>
        if ¬ ((op = 5 ∨ op = 0x12) ∧ ea % 4 = 0) then some (5, 4)
        else if !priv then some (3, 3) else none
      | .affix => if affixAllows op then none else some (5, 5)
      | .main => if !priv && inChState b ea n then some (3, 4) else none
      | _ => none

/-! ### The word and its operands (R83) -/

/-- What the word reads in its D stage. -/
def snapOf (b : Block) (n : CtxNo) (w : MWord) (inj : Option Nat) (sys : Bool) : Snap :=
  let l := (b.ctx n).lvl
  let c := b.file n l
  { w := w, upc := c.upc, lvl := l, a := src b n c w w.srca, b := src b n c w w.srcb, accA := accOf c w.srca,
    accB := accOf c w.srcb, ea := effAddr b n c w, priv := statPriv c.stat || sys, inj := inj,
    frame := if w.seq = 2 then frameBytes c w c.upc else [], ssp := c.ssp,
    eupc := ((b.eng (engOf n)).bank l).eupc, eprog := c.prog, seq := b.seq }

/-- The ALU result of the word. -/
def aluOf (b : Block) (n : CtxNo) (s : Snap) : AluRes :=
  let c := b.file n s.lvl
  alu s.w.aluop s.w.aux8 s.a s.b s.accA (accOf c s.w.dst) (c.stat.getLsbD 2)

/-- The count of engine timer k (R203). -/
def etCount (b : Block) (n : CtxNo) (k : Nat) : Word := (b.timer (cluOf (engOf n)) (etIdx (engOf n) k)).count

/-- The value that an XFER get code supplies (R111). -/
def xferGet (b : Block) (n : CtxNo) (s : Snap) : Word :=
  let c := b.file n s.lvl
  let k := (b.eng (engOf n)).bank s.lvl
  match s.w.xfer.toNat with
  | 0x01 => (c.latch.pre b.now).setWidth 48
  | 0x03 => c.evMask.setWidth 48
  | 0x05 => c.stkBase
  | 0x08 => k.ecause
  | 0x09 => k.eupc.setWidth 48
  | 0x0A => k.einfo
  | x => etCount b n (x - 0x10)

/-- The value that POP, PEEK or IN supplies; none where the queue is empty (R262, R263). -/
def laneGet (b : Block) (n : CtxNo) (s : Snap) : Option Word :=
  let cl := cluOf (engOf n)
  if s.w.laneop = 9 then some ((b.lanes cl).levels.setWidth 48)
  else if s.w.laneop = 2 ∨ s.w.laneop = 3 then headQ b cl s.w.lq
  else none

/-- The 48-bit value that the word's own W stage writes to DST, where it writes one there (R87). -/
def dstValue (b : Block) (n : CtxNo) (s : Snap) : Option Word :=
  if aluWritesDst s.w.aluop && !s.w.isAfx && !aluAccDst s.w.aluop then some (aluOf b n s).val
  else if laneWritesDst s.w.laneop then laneGet b n s
  else if xferGets s.w.xfer then some (xferGet b n s)
  else none

/-! ### Resumption (R137) -/

/-- The issue resumes a long instruction (R137). -/
def resumes (c : Ctx) (l : Lvl) (w : MWord) : Bool :=
  w.isLong && progActive (progress l c) && progOp (progress l c) == w.longOp

/-! ### Precise faults of the word -/

/-- The XFER codes marked System (R111). -/
def xferSystem (x : BitVec 6) : Bool := x == 6 || xferBank x

/-- The target of a CALL: TARGET, or SRCA[13:0] (R97). -/
def callTarget (s : Snap) : CsAddr := if s.w.aux8.getLsbD 0 then s.a.extractLsb' 0 14 else s.w.target

/-- Faults of the sequencer slot: ILLOP 0x05, 0x07, 0x08; CFLOW 0x01, 0x04, 0x05, 0x07; PRIV 0x05 (R95, R100, R101,
R111, R162, R165, R167). -/
def seqFault (b : Block) (n : CtxNo) (s : Snap) : Option (BitVec 6 × BitVec 6 × Word) :=
  let c := b.file n s.lvl
  let k := (b.eng (engOf n)).bank s.lvl
  let q := s.w.seq
  let bank := decide (s.lvl ≠ .prog)
  if q = 4 ∧ !bank then some (2, 8, 0)
  else if q = 4 ∧ statPriv k.estat ∧ !k.epriv then some (3, 5, k.estat)
  else if q = 4 ∧ c.ssp ≠ 0 then some (4, 7, c.ssp.setWidth 48)
  else if (q = 10 ∨ q = 11 ∨ q = 12) ∧ bank then some (2, 7, 0)
  else if q = 2 ∧ maxSsp s.lvl ≤ c.ssp.toNat then some (4, 4, (callTarget s).setWidth 48)
  else if q = 3 ∧ c.ssp = 0 then some (4, 1, 0)
  else if q = 11 ∧ c.ssp ≠ 0 then some (4, 5, c.ssp.setWidth 48)
  else if q = 12 then
    let r := Map.get {} (b.clu (cluOf (engOf n))).bars (s.w.imm48.extractLsb' 0 3).toNat
    if r.members ≠ [] ∧ r.n ≠ (s.w.imm48.extractLsb' 3 8).toNat then some (2, 5, 0) else none
  else none

/-- Faults of a shift word's descriptor and group: ILLOP 0x0B, by the descriptor latched where the word goes on with a held
group (R264, R266), and 0x0C, where an interrupted level of the context holds the group (R274). -/
def shiftFault (b : Block) (n : CtxNo) (s : Snap) : Option (BitVec 6 × BitVec 6 × Word) :=
  if s.w.isShift then
    let p := b.pg (cluOf (engOf n)) (shiftGroup s.w)
    let mine := p.owner == some n
    if badDesc (if mine && decide (p.lvl = s.lvl) && resumes (b.file n s.lvl) s.lvl s.w then p.dA else p.pga) s.w.laneop then
      some (2, 0x0B, 0)
    else if mine && decide (p.lvl.num < s.lvl.num) then some (2, 0x0C, 0)
    else none
  else none

/-- The precise fault of the word: cause, sub-code, EINFO. The order among several is the model's (log entry 31). A due AT word
(`timed`) reads its lane queue or its lanes at its target only: the value is tested then (log entry 99). -/
def wordFaultAt (timed : Bool) (b : Block) (n : CtxNo) (s : Snap) : Option (BitVec 6 × BitVec 6 × Word) :=
  let w := s.w
  let c := b.file n s.lvl
  match w.illop with
  | some sub => some (2, sub, 0)
  | none =>
    if s.inj.isSome && (w.isLong || !(w.seq == 0 || w.seq == 1 || w.seq == 14)) then some (2, 0x0A, 0)
    else if !s.priv && w.dstWriters != 0 && dstSystem w.dst then some (3, 1, 0)
    else if !s.priv && xferSystem w.xfer then some (3, 2, 0)
    else if xferBank w.xfer && decide (s.lvl = .prog) then some (2, 8, 0)
    else match seqFault b n s with
      | some f => some f
      | none => match shiftFault b n s with
        | some f => some f
        | none =>
          match (match (if timed && laneWritesDst w.laneop then none else dstValue b n s) with
              | some v => dstFault s.priv s.lvl c w.dst v
              | none => none) with
          | some f => some f
          | none =>
            if w.isMem && !w.isLongMem then
              match mapFault b s.priv w.memop s.ea.toNat (opSize w.memop) with
              | some (k, sub) => some (k, sub, s.ea)
              | none => none
            else none

def wordFault (b : Block) (n : CtxNo) (s : Snap) : Option (BitVec 6 × BitVec 6 × Word) := wordFaultAt false b n s

/-- The fault of the value that a lane operation writes to DST (R42, R44). -/
def laneFault (b : Block) (n : CtxNo) (s : Snap) : Option (BitVec 6 × BitVec 6 × Word) :=
  if laneWritesDst s.w.laneop then (laneGet b n s).bind (fun v => dstFault s.priv s.lvl (b.file n s.lvl) s.w.dst v) else none

/-- A precise fault becomes pending, with UPC on the word (R145, R158). -/
def preciseFault (n : CtxNo) (s : Snap) (code sub : BitVec 6) (info : Word) (long : Bool) (b : Block) : Block :=
  pendExc n { code := code, kind := 0, sub := sub, fupc := s.upc, einfo := info, long := long, lvl := s.lvl } b

/-- A trap becomes pending behind the word (R145); one of an injected word is precise (R276). -/
def trap (n : CtxNo) (s : Snap) (code : BitVec 6) (info : Word) (b : Block) : Block :=
  pendExc n { code := code, kind := if s.inj.isSome then 0 else 2, sub := 0, fupc := s.upc, einfo := info, lvl := s.lvl } b

/-! ### The W stage within the context (R88, R117, R119, R120, R124..R127) -/

/-- Flags of SETF (R89), the ALU's DST, the MBASE write-back and the set codes of the context's own registers, in the order of
R88. The sticky SAT stays set whatever the word writes to STAT (R43, R119). -/
def wRegs (b : Block) (n : CtxNo) (s : Snap) : Ctx :=
  let w := s.w
  let c := b.file n s.lvl
  let r := aluOf b n s
  let flagged := w.setf && aluFlags w.aluop && (!(aluWritesDst w.aluop) || !isA w.dst)
  let c := { c with stat := if flagged then withFlags c.stat r else c.stat }
  let c := if aluAccDst w.aluop then (match r.acc with
      | some v => writeAcc c w.dst v
      | none => c)
    else if (aluWritesDst w.aluop && !w.isAfx) || xferGets w.xfer then (match dstValue b n s with
      | some v => writeDst s.priv c w.dst v
      | none => c)
    else c
  let c := { c with stat := putBit c.stat 7 (c.stat.getLsbD 7 || r.sat) }
  let base := reg16 c.a w.mbase
  let c := if w.isMem && w.mmode == 1 then
      { c with a := setReg16 c.a w.mbase (reg16 (b.file n s.lvl).a w.mbase + w.disp16.signExtend 48) }
    else if w.isMem && w.mmode == 2 then { c with a := setReg16 c.a w.mbase s.ea }
    else { c with a := setReg16 c.a w.mbase base }
  match w.xfer.toNat with
  | 0x02 => { c with latch := c.latch.clear b.now (s.b.extractLsb' 0 24) }
  | 0x04 => { c with evMask := s.b.extractLsb' 0 16 }
  | 0x06 => { c with stkBase := s.b }
  | _ => c

/-- The word reads MPH or MPL, by an operand that it uses (R125). -/
def earlyRead (w : MWord) : Bool :=
  (w.readsA && readsMp w.srca) || (w.readsB && readsMp w.srcb)

/-- Multiplies of the context that will write MPH:MPL are in flight. -/
def mulInFlight (c : Ctx) : Bool := c.muls.any (fun m => match m with
  | .prod _ => true
  | .mac .. => false)

/-- A D stage that reads MPH or MPL early without the word's W stage: that of an AT word which waits, and of a later step or a
resumption of a long instruction (R125). -/
def noteEarly (n : CtxNo) (s : Snap) (b : Block) : Block :=
  if earlyRead s.w && mulInFlight (b.ctx n) then b.modFile n s.lvl (fun c => { c with stat := putBit c.stat 5 true }) else b

/-- The multiply that the word starts (R124, R126). -/
def mulOf (s : Snap) : Option Mul :=
  match s.w.aluop.toNat with
  | 0x40 => some (.prod (product true s.a s.b))
  | 0x41 => some (.prod (product false s.a s.b))
  | 0x44 => some (.mac (s.w.dst.extractLsb' 0 2) ((product true s.a s.b).signExtend 104))
  | 0x45 => some (.mac (s.w.dst.extractLsb' 0 2) ((product false s.a s.b).setWidth 104))
  | 0x46 => some (.mac (s.w.dst.extractLsb' 0 2) (-((product true s.a s.b).signExtend 104)))
  | _ => none

/-- The effects of the word within its context and its engine's arithmetic units. A sticky field that the word sets stays set
where its DST is STAT: R43 gives the hardware's set the last word, and R88 the written value; for EARLY, which the D stage
sets, the model takes R43 too (DESIGN CHOICE, log entry 78). In a word that writes STAT, SETF has no visible effect, a trap
among them (R88). An exception of an injected word is precise (R276). -/
def wInternal (n : CtxNo) (s : Snap) (b : Block) : Block :=
  let w := s.w
  let e := engOf n
  let r := aluOf b n s
  let early := earlyRead w && mulInFlight (b.ctx n)
  let vtrap := w.setf && aluFlags w.aluop && (!(aluWritesDst w.aluop) || !isA w.dst) && r.v &&
    (b.file n s.lvl).stat.getLsbD 19 && !(isSpec w.dst 4 && (dstValue b n s).isSome)
  let c := wRegs b n s
  let b := b.setFile n s.lvl { c with stat := putBit c.stat 5 (c.stat.getLsbD 5 || early) }
  let b := if w.xfer = 0x0B then b.modEng e (fun g => g.modBank s.lvl (fun k => { k with eupc := s.b.extractLsb' 0 14 }))
    else b
  let b := match mulOf s with
    | some m => b.modCtx n (fun c => { c with muls := c.muls ++ [m] })
    | none => b
  let b := if w.isDiv then b.modEng e (fun g => { g with
      div := some { k := ctxOf n, a := s.a, b := s.b, sgn := w.aluop == 0x42, lvl := s.lvl, fupc := s.upc, inj := s.inj.isSome } })
    else b
  if vtrap then trap n s 0x0A 0 b else b

/-! ### Effects outside the context (R53, R70, R108, R259, R262, R279) -/

/-- A request takes its tag (R38, R69, R70). The request of a word whose DST is TENANT carries the tag that the word itself
writes: R69 does not say which (DESIGN CHOICE, log entry 79). -/
def takeTag (n : CtxNo) (s : Snap) (kind : PendKind) (b : Block) : Block :=
  let e := engOf n
  let w := s.w
  let c := b.ctx n
  let p : Pend :=
    { kind := kind, k := ctxOf n, ea := if w.isAfx then s.a else s.ea,
      data := if w.isAfx then s.b.setWidth 104 else if isAcc w.srcb then s.accB else s.b.setWidth 104,
      dst := w.dst, opc := w.aluop.extractLsb' 0 4, tenant := reqTenant c s.lvl, priv := s.priv, lvl := s.lvl,
      fupc := s.upc, seq := b.seq, inj := s.inj.isSome
      target := if w.seq = 7 then some (b.tick, b.now) else none }
  (b.modEng e (fun g => (g.setTag w.mtag (some p)))).bump

/-- The request of a memory or Affix word; a long memory operation's leave with its steps. -/
def requestOf (s : Snap) : Option PendKind :=
  let w := s.w
  if w.isAfx then some .affix
  else if w.isLongMem then none
  else if w.isMem then
    match areaOf s.ea.toNat (opSize w.memop) with
    | .window => some (.window (w.memop == 0x12))
    | .affix => some (.affixMem w.memop)
    | _ => some (.mem w.memop)
  else none

/-- Lane operations that act in the W stage: PUSH, POP, OUT, OEN, QFLUSH, CAPARM (R259, R262, R263, R279). -/
def laneAct (n : CtxNo) (s : Snap) (b : Block) : Block :=
  let w := s.w
  let cl := cluOf (engOf n)
  let m := w.imm48.extractLsb' 0 16
  match w.laneop.toNat with
  | 1 => pushQ cl w.lq s.b b
  | 2 => popQ cl w.lq b
  | 3 => if (b.lanes cl).empty w.lq then qfault cl w.lq b else b
  | 7 => b.modLanes cl (fun l => { l with out := under m l.out (s.b.extractLsb' 0 16) })
  | 8 => b.modLanes cl (fun l => { l with oen := under m l.oen (s.b.extractLsb' 0 16) })
  | 11 => flushQ cl w.lq b
  | 12 => b.modPg cl (shiftGroup w) (fun p => { p with armed := true, capOwner := ((b.ctx n).chan).getD 0 })
  | _ => b

/-! ### RESETPROG (R277) -/

/-- A pin group is released: its lanes revert, a partial RX entry is discarded where `discard` says so, and with it a completed entry
held back, of which R277 says nothing (the model's choice, log entry 115). -/
def releaseGroup (c : CluId) (g : BitVec 4) (discard : Bool) (b : Block) : Block :=
  b.modLanes c (fun l =>
    let p := l.pg g
    let l := if discard && p.op != 4 then
        let lq : BitVec 4 := (p.lq &&& 7) ||| 8
        l.setQueue lq { l.queue lq with pos := 0, part := 0, back := none } else l
    l.modPg g (fun p => { p with
      owner := none, lvl := .prog, op := 0, lq := 0, bits := 0, done := 0, began := none, notBefore := 0
      sample := none, stopped := false, outPrev := 0, outCur := 0, dA := 0, dB := 0, dC := 0
      rel := some (b.now, p.dA, p.op, p.lq) }))

/-- The pin groups that the levels `p` of a context hold. -/
def ownGroups (p : Lvl → Bool) (b : Block) (n : CtxNo) : List (BitVec 4) :=
  ((List.range 16).map (BitVec.ofNat 4)).filter (fun g =>
    let x := b.pg (cluOf (engOf n)) g
    x.owner == some n && p x.lvl)

/-- They are released with their partial RX entries, and the requests of those levels are withdrawn. -/
def releaseOwn (p : Lvl → Bool) (n : CtxNo) (b : Block) : Block :=
  let b := (ownGroups p b n).foldl (fun b g => releaseGroup (cluOf (engOf n)) g true b) b
  b.modLanes (cluOf (engOf n)) (fun l => { l with reqs := l.reqs.filter (fun r => !(r.n == n && p r.lvl)) })

/-- The level that a level's PROG belongs to: its own for the program, the interrupted one's for a handler (R155). -/
def Lvl.below : Lvl → Lvl
  | .bank2 => .bank1
  | _ => .prog

/-- RESETPROG: a stopped or stalled shift word, whose progress PROG shows, loses it and its group; on a bank it is the
interrupted level's word, through EPROG (R277). -/
def resetProg (n : CtxNo) (s : Snap) (b : Block) : Block :=
  let p := (b.file n s.lvl).prog
  if progActive p && decide (0x44 ≤ (progOp p).toNat ∧ (progOp p).toNat ≤ 0x46) then
    (releaseOwn (fun l => l == s.lvl.below) n b).modFile n s.lvl (fun c => { c with prog := 0 })
  else b

/-- The requested halt of a context (R465, R466). -/
def askHalt (n : CtxNo) (cause : BitVec 3) (cmp : BitVec 5) (b : Block) : Block :=
  b.modCtx n (fun c => { c with halt := { c.halt with request := some (cause, cmp) } })

/-- A halt of the whole engine is requested (R467). -/
def askEngineHalt (e : EngId) (b : Block) : Block :=
  b.modEng e (fun g => { g with dbg := { g.dbg with haltReq := true } })

/-! ### Comparators (R473, R474) -/

/-- The comparator matches a byte range, and watches the context. -/
def Cmp.watches (m : Cmp) (k : CtxId) : Bool := m.ctl.getLsbD 0 && m.ctl.getLsbD (16 + k.toNat)
def Cmp.hits (m : Cmp) (a n : Nat) : Bool :=
  let len := min 48 (m.ctl.extractLsb' 5 6).toNat
  let lo := m.addr.toNat / 2 ^ len * 2 ^ len
  decide (n ≠ 0 ∧ a < lo + 2 ^ len ∧ lo < a + n)

/-- The comparators of an engine by index: its own 0 and 1, and 16 + p of the pool that it owns (R473). -/
def engCmps (b : Block) (e : EngId) : List (Nat × Cmp) :=
  let g := b.eng e
  let v := b.clu (cluOf e)
  (List.range 2).map (fun i => (i, Map.get {} g.dbg.cmp i)) ++
  ((List.range 16).map (fun p => (16 + p, Map.get {} v.pool p))).filter (fun x => x.2.owned && x.2.owner == engIn e)

/-- COUNT of comparator `i`, saturating. -/
def bumpCmp (e : EngId) (i : Nat) (b : Block) : Block :=
  let up (m : Cmp) : Cmp := { m with count := m.count.count b.now (if m.count.val = 0xFFFF then 0 else 1) }
  if i < 2 then b.modEng e (fun g => { g with dbg := { g.dbg with cmp := Map.mod {} g.dbg.cmp i up } })
  else b.modClu (cluOf e) (fun v => { v with pool := Map.mod {} v.pool (i - 16) up })

/-- The comparators that match: kinds allowed, the byte range, the context. -/
def matching (b : Block) (n : CtxNo) (kinds : List Nat) (a len : Nat) : List (Nat × Cmp) :=
  (engCmps b (engOf n)).filter (fun x =>
    x.2.watches (ctxOf n) && kinds.contains (x.2.ctl.extractLsb' 1 2).toNat && x.2.hits a len)

/-- Matches count; the lowest whose action fires halts the context or engine, or raises DEBUG (R465, R474). The second
component tells whether one fired. -/
def fireCmps (n : CtxNo) (s : Snap) (ms : List (Nat × Cmp)) (info : Word) (b : Block) : Block × Bool :=
  let e := engOf n
  let d := (b.eng e).dbg
  let b := ms.foldl (fun b x => bumpCmp e x.1 b) b
  match ms.find? (fun x => decide ((x.2.ctl.extractLsb' 3 2).toNat ≤ 1)) with
  | none => (b, false)
  | some (i, m) =>
    if d.mode = 1 then
      let b := askHalt n 3 (BitVec.ofNat 5 i) b
      (if m.ctl.extractLsb' 3 2 = 1 ∨ d.haltAll then askEngineHalt e b else b, true)
    else if d.mode = 2 ∧ s.lvl = .prog then
      (pendExc n { code := 0x0E, kind := 2, sub := BitVec.ofNat 6 i, fupc := s.upc, einfo := info, lvl := s.lvl } b, true)
    else (b, false)

/-- The data comparators over an access of the word (R474). -/
def dataCmps (n : CtxNo) (s : Snap) (rd wr : Bool) (a len : Nat) (b : Block) : Block :=
  if s.inj.isSome then b
  else
    let kinds := if rd && wr then [1, 2, 3] else if rd then [1, 3] else if wr then [2, 3] else []
    let ms := matching b n kinds a len
    (fireCmps n s ms (BitVec.ofNat 48 (match ms with
      | x :: _ => max a (x.2.addr.toNat / 2 ^ (min 48 (x.2.ctl.extractLsb' 5 6).toNat) * 2 ^ (min 48 (x.2.ctl.extractLsb' 5 6).toNat))
      | [] => a)) b).1

/-- The data comparators of a scalar access. -/
def wordCmps (n : CtxNo) (s : Snap) (b : Block) : Block :=
  let op := s.w.memop
  if s.w.isMem && !s.w.isLongMem then
    dataCmps n s (isLoadOp op || op == 0x19) (isStoreOp op) s.ea.toNat (opSize op) b
  else b

/-! ### The effects outside the context -/

/-- The effects that reach outside the context's own registers, which the data comparators watch. A load or store of Affix space
takes an entry of the Affix queue like an Affix word (DESIGN CHOICE, log entry 100). -/
def wExternal (n : CtxNo) (s : Snap) (b : Block) : Block :=
  let w := s.w
  let cl := cluOf (engOf n)
  let got := laneGet b n s
  let b := match requestOf s with
    | some k =>
      let b := takeTag n s k b
      (match k with
        | .affix | .affixMem _ => b.modEng (engOf n) (fun g => { g with afxQ := g.afxQ ++ [w.mtag] })
        | _ => b)
    | none => b
  let b := laneAct n s b
  let b := match (if laneWritesDst w.laneop then got else none) with
    | some v => b.modFile n s.lvl (fun c => writeDst s.priv c w.dst v)
    | none => b
  let b := if 0x14 ≤ w.xfer.toNat ∧ w.xfer.toNat ≤ 0x17 then setCmp cl (etIdx (engOf n) (w.xfer.toNat - 0x14)) s.b b else b
  let b := if w.laneop = 1 ∨ w.laneop = 2 ∨ w.laneop = 11 then settleClu cl b else b
  wordCmps n s (if w.laneop = 10 then resetProg n s b else b)

/-- The whole W stage in one cycle. EARLY, which the D stage sets, stays set though the word writes STAT (R43). -/
def wStage (n : CtxNo) (s : Snap) (b : Block) : Block :=
  let early := earlyRead s.w && mulInFlight (b.ctx n)
  let b := wExternal n s (wInternal n s b)
  if early then b.modFile n s.lvl (fun c => { c with stat := putBit c.stat 5 true }) else b

/-! ### The sequencer (R91..R96) -/

/-- A timeout field in the format of R51, as a deadline. -/
def deadline (now : Nat) (aux : BitVec 8) : Option Nat :=
  if aux.extractLsb' 0 4 = 0 then none
  else some (now + (aux.extractLsb' 0 4).toNat * 2 ^ ((aux.extractLsb' 4 4).toNat + 4))

/-- The context goes on at an address. -/
def goto (n : CtxNo) (a : CsAddr) (b : Block) : Block := b.modCtx n (fun c => { c with upc := a, act := .idle })

/-- The context stops in an activity. -/
def stop (n : CtxNo) (x : Act) (b : Block) : Block := b.modCtx n (fun c => { c with act := x })

/-- An address loop that the engine may capture: a LOOP or JUMP back by at most 63 (R67). -/
def lbSet (n : CtxNo) (s : Snap) (b : Block) : Block :=
  let t := s.w.target
  if t.toNat ≤ s.upc.toNat ∧ s.upc.toNat - t.toNat ≤ 63 then
    b.modEng (engOf n) (fun g =>
      let last := BitVec.ofNat 6 (s.upc.toNat - t.toNat)
      if g.lbOn && g.lbBase == t && g.lbLast == last then g
      else { g with lbOn := true, lbBase := t, lbLast := last, lbBuf := [] })
  else b

/-- The requests that a FENCE waits for: earlier stores, loads or window accesses of the context (R235). -/
def fenceHeld (b : Block) (n : CtxNo) (classes : BitVec 3) (before : Nat) : Bool :=
  ((b.eng (engOf n)).pends (ctxOf n)).any (fun p =>
    decide (p.2.seq < before) && (match p.2.kind with
      | .mem op | .affixMem op =>
        (classes.getLsbD 0 && (isStoreOp op || op == 0x1A)) || (classes.getLsbD 1 && (isLoadOp op || op == 0x19))
      | .window wr => classes.getLsbD 2 || (classes.getLsbD 0 && wr) || (classes.getLsbD 1 && !wr)
      | _ => false))

/-- The barrier's generation takes an arrival; the N-th releases every member (R95). -/
def syncArrive (n : CtxNo) (s : Snap) (b : Block) : Block :=
  let cl := cluOf (engOf n)
  let bar := s.w.imm48.extractLsb' 0 3
  let cnt := (s.w.imm48.extractLsb' 3 8).toNat
  let r := Map.get {} (b.clu cl).bars bar.toNat
  if cnt ≤ r.members.length + 1 then
    let b := b.modClu cl (fun v => { v with bars := Map.set {} v.bars bar.toNat {} })
    let b := r.members.foldl (fun b m => b.modCtx m (fun c => { c with upc := c.upc + 1, act := .idle })) b
    goto n (s.upc + 1) b
  else
    stop n (.sync bar (deadline b.now s.w.aux8) s.w.target)
      (b.modClu cl (fun v => { v with bars := Map.set {} v.bars bar.toNat { n := cnt, members := r.members ++ [n] } }))

/-- SEQ HALT under DBG_ENG_CFG.MODE (R465, R472); the exception of an injected one is precise (R276). -/
def seqHalt (n : CtxNo) (s : Snap) (b : Block) : Block :=
  let e := engOf n
  let d := (b.eng e).dbg
  let b := goto n (s.upc + 1) b
  if d.mode = 1 then
    let b := askHalt n 2 0 b
    if d.haltAll then askEngineHalt e b else b
  else if d.mode = 2 ∧ s.lvl = .prog then
    pendExc n { code := 0x0E, kind := if s.inj.isSome then 0 else 2, sub := 0x3E, fupc := s.upc, lvl := s.lvl } b
  else b

/-- The sequencer operation of a word whose other effects are done. CALL, RET and AT act elsewhere. A FENCE waits for the access
of its own word too: R235 says 'earlier', and the word's W stage comes first (DESIGN CHOICE, log entry 101). -/
def seqApply (n : CtxNo) (s : Snap) (b : Block) : Block :=
  let w := s.w
  let next := s.upc + 1
  match w.seq.toNat with
  | 0 => goto n next b
  | 1 => goto n w.target (lbSet n s b)
  | 4 => retxDo n s (stop n .idle b)
  | 5 => trap n s 0x0C (w.aux8.setWidth 48) (goto n next b)
  | 6 => settle n (stop n (.wait w.wsel w.lq (deadline b.now w.aux8) w.target) b)
  | 8 =>
    let k := (w.aux8.extractLsb' 0 4).toNat
    let idx := s.a.toNat % 2 ^ k
    goto n (w.target + BitVec.ofNat 14 (idx * 2 ^ (w.aux8.extractLsb' 4 2).toNat)) b
  | 9 =>
    let lc := (b.file n s.lvl).lc - 1
    let b := (lbSet n s b).modFile n s.lvl (fun c => { c with lc := lc })
    goto n (if lc = 0 then next else w.target) b
  | 10 =>
    let m := w.imm48.extractLsb' 0 24
    if (b.ctx n).latch.on &&& m ≠ 0 then goto n next b else stop n (.yieldOn m) b
  | 11 => stop n (.park s.a (w.imm48.extractLsb' 0 9)) b
  | 12 => syncArrive n s b
  | 13 =>
    let cl := w.aux8.extractLsb' 0 3
    if fenceHeld b n cl b.seq then stop n (.fence cl b.seq) b else goto n next b
  | 14 => seqHalt n s b
  | _ => goto n next b

/-! ### Long instructions: start and resumption (R136, R137, R267) -/

/-- The number of bytes of a long memory operation (R134), or of bit times of a shift word (R267). -/
def longCount (s : Snap) : Nat :=
  if s.w.isLongMem then (s.b.extractLsb' 0 32).toNat
  else if s.w.aux8 = 0 then 256 else s.w.aux8.toNat

/-- SCAN without a match writes all ones (R142). -/
def scanEnds (n : CtxNo) (s : Snap) (b : Block) : Block :=
  if s.w.memop = 0x24 then b.modFile n s.lvl (fun c => writeDst s.priv c s.w.dst 0xFFFFFFFFFFFF) else b

/-- The end of a long instruction: PROG is 0, the tag is free, and the sequencer operation acts (R140). -/
def longEnd (n : CtxNo) (s : Snap) (b : Block) : Block :=
  let b := b.modFile n s.lvl (fun c => setProgress s.lvl c 0)
  let b := if s.w.isLongMem then b.modEng (engOf n) (fun g => g.setTag s.w.mtag none) else b
  seqApply n s b

/-- The level's word holds the group. -/
def holdsGroup (b : Block) (n : CtxNo) (l : Lvl) (g : BitVec 4) : Bool :=
  let p := b.pg (cluOf (engOf n)) g
  p.owner == some n && p.lvl == l

/-- A shift word requests its pin group, or goes on with the one that it holds, at bit `done` (R267, R268, R272, R273). A
replaced word that names another group gives up the one that it held (R278). -/
def requestGroup (n : CtxNo) (s : Snap) (done : Nat) (b : Block) : Block :=
  let cl := cluOf (engOf n)
  let g := shiftGroup s.w
  if holdsGroup b n s.lvl g then
    b.modPg cl g (fun p => { p with
      stopped := false, bits := longCount s, done := done, op := s.w.laneop, lq := s.w.lq
      notBefore := max p.notBefore (b.now + 1) })
  else
    (releaseOwn (fun l => l == s.lvl) n b).modLanes cl (fun l => { l with
      reqs := l.reqs ++ [{ n := n, g := g, op := s.w.laneop, lq := s.w.lq, bits := longCount s, done := done
                           lvl := s.lvl, at_ := b.now }] })

/-- The start, the next step or the resumption of a long instruction. A fresh start releases a group that a stopped shift word
of its level still holds (R278). -/
def longIssue (n : CtxNo) (s : Snap) (fresh : Bool) (b : Block) : Block :=
  let b := if fresh then
      (releaseOwn (fun l => l == s.lvl) n b).modFile n s.lvl (fun c => setProgress s.lvl c (mkProg s.w.longOp 0)) else b
  let done := progDone (progress s.lvl (b.file n s.lvl))
  if s.w.isLongMem then
    if longCount s ≤ done then longEnd n s (scanEnds n s b)
    else stop n (.longStep s) (takeTag n s .long b)
  else if longCount s ≤ done ∧ !(holdsGroup b n s.lvl (shiftGroup s.w)) then longEnd n s b
  else stop n (.shift s) (requestGroup n s done b)

/-! ### The issue -/

/-- A word whose condition is true and whose checks pass: its W stage and its sequencer operation. -/
def perform (n : CtxNo) (s : Snap) (b : Block) : Block :=
  let w := s.w
  let fresh := !(resumes (b.file n s.lvl) s.lvl w)
  if w.isLong then longIssue n s fresh (if fresh then wStage n s b else noteEarly n s b)
  else
    let b := wStage n s b
    if w.seq = 2 then (stop n (.call s) b).bump
    else if w.seq = 3 then (stop n (.ret s) b).bump
    else seqApply n s b

/-- AT (R53, R54): the word waits for its target; a target already reached lets it act at once, with LATE. -/
def atIssue (n : CtxNo) (s : Snap) (b : Block) : Block :=
  if reached b.tick s.a then
    let b := wStage n s b
    goto n (s.upc + 1) (b.modFile n s.lvl (fun c => { c with stat := putBit c.stat 9 true }))
  else stop n (.atWait s s.a (decide ((s.a - b.tick).toNat < 16))) (noteEarly n s b)

/-- Between two steps of a long memory operation its tag is free for the word that goes on, be it another by then (R108, R139). -/
def dropTag (n : CtxNo) (b : Block) : Block := match (b.ctx n).act with
  | .longNext s => b.modEng (engOf n) (fun g => g.setTag s.w.mtag none)
  | _ => b

/-- The word acts: its condition, its faults, its effects (R79, R84, R85). A replaced shift word whose condition is false
gives up the group of the word that was stopped: its resumption is a fresh start (R278; DESIGN CHOICE, log entry 80). -/
def act (n : CtxNo) (s : Snap) (b : Block) : Block :=
  let b := dropTag n b
  let c := b.file n s.lvl
  if !(resumes c s.lvl s.w) && !(cond b n c s.w) then
    goto n (s.upc + 1)
      (if s.w.isLong && !((ownGroups (fun l => l == s.lvl) b n).isEmpty) then releaseOwn (fun l => l == s.lvl) n b else b)
  else match wordFault b n s with
    | some (code, sub, info) => preciseFault n s code sub info false (stop n .idle b)
    | none => if s.w.seq = 7 then atIssue n s b else perform n s b

/-- The loop buffer captures the word where it lies in a range that is not yet whole (R67). -/
def lbCapture (n : CtxNo) (upc : CsAddr) (b : Block) : Block :=
  let p := fetchP b (engOf n) upc
  b.modEng (engOf n) (fun g =>
    if g.inRange upc && !(lbValid g) then { g with lbBuf := Map.set none g.lbBuf (g.lbOff upc) (some p) } else g)

/-- The context is of the high class (R31). -/
def highClass (b : Block) (n : CtxNo) : Bool := (b.file n (b.ctx n).lvl).stat.getLsbD 17

/-- The address that the context's next fetch reads in the store; none where its loop buffer supplies the word (R66, R67). -/
def storeAddr (b : Block) (n : CtxNo) : Option CsAddr :=
  let x := (b.ctx n).upc
  if inLoop (b.eng (engOf n)) x then none else some (fetchAddr b (engOf n) x)

/-- The bank of an engine's control store that holds a word. -/
def csBank (e : EngId) (x : CsAddr) : Nat := 16 * (cluOf e).toNat + x.toNat % 16

/-- How far an engine stands behind the one last granted, in the rotation of a control-store bank (R66). -/
def csTurn (last i : BitVec 3) : Nat := (i - last - 1).toNat

/-- The engines that the bank grants before this one, where they fetch from it: those ahead in its rotation with a context whose
next fetch is of another word of the bank (R66). -/
def csRivals (b : Block) (n : CtxNo) (x : CsAddr) : List (BitVec 3) :=
  let e := engOf n
  let last := Map.get 7 b.csRr (csBank e x)
  allEngIn.filter (fun i => decide (csTurn last i < csTurn last (engIn e)) && allCtx.any (fun k =>
    let m := ctxNo (mkEng (cluOf e) i) k
    (b.ctx m).chan.isSome && (match storeAddr b m with
      | some y => y.toNat % 16 == x.toNat % 16 && y != x
      | none => false)))

/-- A fetch from the store is refused for some cycles where others contend for the bank, each of them at most once, since the
bank's pointer moves to the engine that it grants; how many of them fetch in the same cycles is open (R32, R66, R535; log
entry 9). -/
def storeFetch (n : CtxNo) (b : Block) : Block :=
  match storeAddr b n with
  | none => b
  | some x =>
    let e := engOf n
    let rivals := (csRivals b n x).length
    let b := if rivals = 0 then b
      else { b.modEng e (fun g => { g with
          csConf := g.csConf.count b.now (BitVec.ofNat 32 ((Config.fetchRefusals b.free).toNat % (rivals + 1))) }) with
        free := b.free + 1 }
    { b with csRr := Map.set 7 b.csRr (csBank e x) (engIn e) }

/-- Selection: the pointer of the context's class moves, and ENG_ISSUE counts (R31, R74). -/
def select (n : CtxNo) (b : Block) : Block :=
  let hi := highClass b n
  storeFetch n (b.modEng (engOf n) (fun g => { g with
    issue := g.issue.count b.now 1, rrHi := if hi then ctxOf n else g.rrHi, rrLo := if hi then g.rrLo else ctxOf n
    recent := (ctxOf n :: g.recent).take 3 }))

/-! ### Selection (R30, R31, R54, R276) -/

/-- The word's request finds the Affix queue full: an Affix word, and a load or store of Affix space (R70; log entry 100). -/
def affixFull (b : Block) (n : CtxNo) (w : MWord) : Bool :=
  decide (8 ≤ (b.eng (engOf n)).afxQ.length) &&
  (w.isAfx || (w.isMem && !w.isLongMem &&
    decide (areaOf (effAddr b n (b.file n (b.ctx n).lvl) w).toNat (opSize w.memop) = .affix)))

/-- The context is eligible for its next word: bound, enabled, running, between words, no exception or injected word ahead of
it, nothing that the word must wait for (R30, R37, R38, R150, R263, R276). -/
def eligible (b : Block) (n : CtxNo) : Bool :=
  let c := b.ctx n
  let g := b.eng (engOf n)
  let free := match c.act with
    | .idle => !(wordStall b n (fetchW b n)) && !(affixFull b n (fetchW b n))
    | .longNext s => decide (s.w.mtag = (fetchW b n).mtag) || !(wordStall b n (fetchW b n))
    | _ => false
  c.chan.isSome && engineLive b (engOf n) && g.ctxEn.getLsbD (ctxOf n).toNat && c.mchk.isNone && !c.excWait &&
  !(haltPending b n) && c.inj.isNone && (takeable b n).isNone && !(g.dividing (ctxOf n)) && free

/-- Timed-effect entries in use: due AT words of the engine's contexts (R54). -/
def timedEntries (b : Block) (e : EngId) : Nat :=
  ((allCtx).filter (fun k => match (b.ctx (ctxNo e k)).act with
    | .atDue .. => true
    | _ => false)).length

/-- The context's AT word is due and may be selected: an entry of the timed-effect buffer is free, and its tag and the divider
are (R37, R38, R54). -/
def atReady (b : Block) (n : CtxNo) : Bool := match (b.ctx n).act with
  | .atWait s t _ =>
    reached (b.tick + 16) t && decide (timedEntries b (engOf n) < 4) && engineLive b (engOf n) && !(haltPending b n) &&
    !(wordStall b n s.w)
  | _ => false

/-- At an injected word's boundary the context has given up the tag of a long memory operation, or stopped its shift word
(R139, R272). -/
def leaveLong (n : CtxNo) (b : Block) : Block := if (b.ctx n).act.midLong then abandon n b else b

/-- The context may run its injected word: at a boundary with no exception ahead of it, or halted by the debugger; and
nothing that the word must wait for (R30). -/
def injReady (b : Block) (n : CtxNo) (w : MWord) : Bool :=
  let c := b.ctx n
  let g := b.eng (engOf n)
  engineLive b (engOf n) && c.chan.isSome && g.ctxEn.getLsbD (ctxOf n).toNat && c.mchk.isNone && !c.excWait &&
  !(g.dividing (ctxOf n)) && !(wordStall (leaveLong n b) n w) && !(affixFull b n w) &&
  (if c.halt.halted then c.act == .idle else !(haltPending b n) && atBoundary b n && (takeable b n).isNone)

/-- A word is injected into the context, and may run. -/
def injNext (b : Block) (n : CtxNo) : Bool := match (b.ctx n).inj with
  | some i => injReady b n i.w
  | none => false

/-- The first of some contexts after a pointer, wrapping from 15 to 0. -/
def after (p : CtxId) (l : List CtxId) : Option CtxId :=
  ((List.range 16).map (fun i => p + 1 + BitVec.ofNat 4 i)).find? (fun k => l.contains k)

/-- The pick among eligible contexts: the high class first, round-robin within a class. -/
def pick (b : Block) (e : EngId) (l : List CtxId) : Option CtxId :=
  let hi := l.filter (fun k => highClass b (ctxNo e k))
  if hi.isEmpty then after (b.eng e).rrLo l else after (b.eng e).rrHi hi

/-- The contexts of an engine that are eligible, but for those of its last `j` issues. -/
def eligibles (b : Block) (e : EngId) (j : Nat) : List CtxId :=
  allCtx.filter (fun k => eligible b (ctxNo e k) && !(((b.eng e).recent.take j).contains k))

/-- The engine selects the context: it is the pick of R31, with no due AT word and no injected word before it. How many of the
last three cycles have issued no word is not told; the model takes any number (log entry 9). -/
def canIssue (b : Block) (n : CtxNo) : Bool :=
  let e := engOf n
  eligible b n && !(allCtx.any (fun k => atReady b (ctxNo e k) || injNext b (ctxNo e k))) &&
  (List.range 4).any (fun j => pick b e (eligibles b e j) == some (ctxOf n))

/-- ILLOP 0x09: a fetch above 0x21FF reads no bank (R169). It is raised before any redirection, also where an enabled entry
names the address (R181 does not say: DESIGN CHOICE, log entry 81). -/
def fetchFault (n : CtxNo) (b : Block) : Block :=
  let c := b.ctx n
  pendExc n { code := 2, kind := 0, sub := 9, fupc := c.upc, lvl := c.lvl } (stop n .idle b)

/-- A context issues its next word where the word is one that the row names. The fetch comparators come first (R474);
a word with wrong parity waits for its machine check (R85). -/
def issueAs (p : MWord → Bool) (n : CtxNo) (b : Block) : Block :=
  let c := b.ctx n
  let w := fetchW b n
  if !(canIssue b n) then b
  else if 0x21FF < c.upc.toNat then (if p 0 then fetchFault n b else b)
  else if (fetchP b (engOf n) c.upc).bad ≠ 0 || !(p w) then b
  else
    let s := snapOf b n w none false
    let b := select n b
    let r := if c.halt.skipCmp then (b, false) else fireCmps n s (matching b n [0] c.upc.toNat 1) 0 b
    if r.2 then r.1
    else
      let b := r.1.modCtx n (fun c => { c with halt := { c.halt with skipCmp := false, stepping := false } })
      act n s (lbCapture n c.upc b)

end Sys2Proof.Machine
end

