-- ==== Sys2Proof/Machine/ControlStore.lean ====
section
/-! DEFINITION. The control store: reads, the golden copies, patch generations and their activation (06_control_store.md). -/

namespace Sys2Proof.Machine
open Sys2Proof

/-! ### The store and its golden copies (R169, R174, R178) -/

def csWord (b : Block) (c : CluId) (a : CsAddr) : PWord := Map.get 0 b.cs (csKey c a)

/-- A word is written into a cluster's store; loop buffers whose range holds it are invalidated (R68). -/
def csWrite (c : CluId) (a : CsAddr) (w : PWord) (b : Block) : Block :=
  let b := { b with cs := Map.set 0 b.cs (csKey c a) w }
  allEngIn.foldl (fun b i =>
    let e := mkEng c i
    let g := b.eng e
    if g.inRange a then b.setEng e { g with lbBuf := [] } else b) b

/-- Base address of replica 0 or 1 of a body's golden copy. -/
def goldenBase (body : BitVec 4) (second : Bool) : Nat :=
  let k := body.toNat
  if second then ((k + 4) % 8) * 0x800000 + 0x500000 + (2 + k / 8) * 0x40000
  else (k % 8) * 0x800000 + 0x500000 + (k / 8) * 0x40000

/-- Section of a replica. -/
def goldenSec (body : BitVec 4) (second : Bool) : SecId :=
  BitVec.ofNat 3 (if second then body.toNat + 4 else body.toNat)

/-- A word record (R174). -/
def wordRec (w : PWord) (off : BitVec 16) : List Byte := bytesOf 20 w.word ++ bytesOf 2 ((w.extractLsb' 160 10).setWidth 16) ++ bytesOf 2 off
def recWord (l : List Byte) : PWord := (ofBytes 10 ((l.drop 20).take 2) ++ ofBytes 160 (l.take 20) : BitVec 170)

def goldenAt (body : BitVec 4) (second : Bool) (a : Nat) : Nat := goldenBase body second + 24 * a
def goldenPm (body : BitVec 4) (second : Bool) (i : Nat) : Nat := goldenBase body second + 24 * 8704 + 4 * i

/-- A section's golden slots hold their bodies: it is in service, and its slots have missed nothing or been rebuilt (R178). -/
def goldenOk (b : Block) (s : SecId) : Bool := !(b.fenced s) && !(b.sec s).rebuild && !(b.sec s).stale

/-- A golden word, from the primary replica, or from the second where the primary fails; none where both do. -/
def goldenWord (b : Block) (body : BitVec 4) (a : CsAddr) (bad0 bad1 : Bool) : Option PWord :=
  let get (second bad : Bool) : Option PWord :=
    let x := goldenAt body second a.toNat
    if bad || !(goldenOk b (goldenSec body second)) || poisoned b x 24 then none else some (recWord (readBytes b x 24))
  match get false bad0 with
  | some w => some w
  | none => get true bad1

/-- The golden word of a cluster's address: a package's staged word while its generation is in progress (R183 step 1). -/
def goldenFor (b : Block) (v : Clu) (a : CsAddr) (bad0 bad1 : Bool) : Option PWord :=
  match v.stagedPm.find? (fun x => 0x2000 + x.1.toNat == a.toNat) with
  | some x => if bad0 && bad1 then none else some x.2
  | none => goldenWord b v.body a bad0 bad1

/-- The Syntax core writes bytes into both replicas. A fenced section's banks are not to be reached, so its replica misses the
write: it is stale, is not used as golden, and is rebuilt at the unfence. The spec does not say what becomes of it (the model's
choice, log entry 107). -/
def goldenWrite (body : BitVec 4) (off : Nat) (l : List Byte) (b : Block) : Block :=
  [false, true].foldl (fun b s =>
    if !(goldenOk b (goldenSec body s)) then b.modSec (goldenSec body s) (fun x => { x with stale := true })
    else let a := goldenBase body s + off; breakLeases (memWrite b a l) none a l.length) b

/-! ### Reads of the store (R180) -/

/-- A write of CLU_CS_RADDR: the word at the address is asked for. A write while BUSY = 1 replaces the address of the read
under way; the spec does not say what it does (the model's choice, log entry 105). -/
def csRead (c : CluId) (a : CsAddr) (b : Block) : Block := b.modClu c (fun v => { v with raddr := a, rbusy := true })

/-- CS_READ_DONE. -/
def opCsReadDone (c : CluId) (b : Block) : Block :=
  let v := b.clu c
  if v.rbusy then
    b.modClu c (fun v => { v with
      rbusy := false, rdata := if 0x21FF < v.raddr.toNat then 0 else csWord b c v.raddr })
  else b

/-! ### Generations (R181..R185, R189) -/

def pmOrig (r : Reg32) : CsAddr := r.extractLsb' 0 14
def pmPaddr (r : Reg32) : BitVec 9 := r.extractLsb' 14 9
def pmRepairBit (r : Reg32) : Bool := r.getLsbD 30
def pmEn (r : Reg32) : Bool := r.getLsbD 31
def mkPm (orig : CsAddr) (paddr : BitVec 9) (repair : Bool) : Reg32 :=
  orig.setWidth 32 ||| fld 14 paddr ||| bit 30 repair ||| bit 31 true

/-- A table is committed: every engine has yet to activate it. -/
def commitTable (c : CluId) (t : Map Reg32) (repair : Bool) (b : Block) : Block :=
  b.modClu c (fun v => { v with
    pmOld := v.pm, pm := t, pmActive := 0, pmWait := 0xFF, trigAt := some b.now, pmRepair := repair, state := if repair then .repair else .patching })

/-- The staged golden generation of a cluster becomes its body's current one: the package's words, and the table without
its repair entries (R183 step 5). -/
def goldenCommit (c : CluId) (b : Block) : Block :=
  let v := b.clu c
  let b := v.stagedPm.foldl (fun b x => goldenWrite v.body (24 * (0x2000 + x.1.toNat)) (wordRec x.2 0) b) b
  let b := b.modClu c (fun v => { v with stagedPm := [] })
  times 32 (fun i b =>
    let r := Map.get 0 v.pm i
    goldenWrite v.body (24 * 8704 + 4 * i) (bytesOf 4 (if pmRepairBit r then 0 else r)) b) b

/-- The first repair of a list that has not ended is marked ended. -/
def endFirst : List Repair → List Repair
  | [] => []
  | r :: l => if r.ended then r :: endFirst l else { r with ended := true } :: l

/-- PATCH_GENERATION_DONE: every engine has activated. A repair generation ends its repair; a patch counts. -/
def generationDone (c : CluId) (b : Block) : Block :=
  let v := b.clu c
  if v.pmRepair then
    b.modClu c (fun v => { v with
      state := .loaded, pmRepair := false
      repairs := endFirst v.repairs })
  else
    let b := goldenCommit c (b.modClu c (fun v => { v with state := .loaded, patch := v.patch + 1, pmLate := false }))
    if v.pmLate then queueEvent 5 ([c.setWidth 8] ++ bytesOf 2 (v.patch + 1)) b else b

/-- An engine activates the committed generation: its bit is set and its loop buffer is invalidated (R68, R184). -/
def activateEngine (e : EngId) (b : Block) : Block :=
  let c := cluOf e
  let i := (engIn e).toNat
  if (b.clu c).pmWait.getLsbD i then
    let b := b.modClu c (fun v => { v with pmWait := putBit v.pmWait i false, pmActive := putBit v.pmActive i true })
    let b := b.modEng e (fun g => { g with lbBuf := [] })
    if (b.clu c).pmWait = 0 then generationDone c b else b
  else b

/-- A table is committed. An engine that a rank 1 event of this tick has reset activates in it (R185). -/
def commitGen (c : CluId) (t : Map Reg32) (repair : Bool) (b : Block) : Block :=
  allEngIn.foldl (fun b i => let e := mkEng c i
    if b.isGone (partEng e) then activateEngine e b else b) (commitTable c t repair b)

/-- PATCH_ACTIVATE: an engine that runs, or is in reset, reaches a boundary; one that a debugger has halted waits for its
release (R184). -/
def opPatchActivate (e : EngId) (b : Block) : Block :=
  if (b.eng e).halted || b.fenced (secOf e) then b else activateEngine e b

end Sys2Proof.Machine
end

