-- ==== Sys2Proof/Machine/Channels.lean ====
section
/-! DEFINITION. Channels: where a channel is, its state block, the ready queues, and the delivery of events to latches
(02_engine_contexts.md R46..R48, R56..R65). -/

namespace Sys2Proof.Machine
open Sys2Proof

/-! ### The channel state block (R57, R59) -/

/-- Address of a channel's state block. -/
def csbAddr (b : Block) (ch : Chan) : Nat :=
  (b.unit (ch.extractLsb' 13 3).toNat).chBase.toNat * 0x200000 + (ch.extractLsb' 0 13).toNat * 256

def csbValid (b : Block) (ch : Chan) : Bool := (readByte b (csbAddr b ch + 0x0A)).getLsbD 0
def csbWake (b : Block) (ch : Chan) : BitVec 9 := ofBytes 9 (readBytes b (csbAddr b ch + 8) 2)
def csbWakeat (b : Block) (ch : Chan) : Tick := ofBytes 48 (readBytes b (csbAddr b ch + 0x16) 6)
/-- STAT.PCLS of the saved STAT. -/
def csbHigh (b : Block) (ch : Chan) : Bool := (ofBytes 48 (readBytes b (csbAddr b ch + 0x10) 6) : Word).getLsbD 17

/-- The bytes of a state block. -/
def csbBytes (ch : Chan) (c : Ctx) (wake : BitVec 9) (wakeat : Tick) (valid : Bool) (gen : Byte) : List Byte :=
  bytesOf 2 ch ++ bytesOf 2 (c.upc.setWidth 16) ++ bytesOf 2 c.lc ++ bytesOf 2 (c.tenant.setWidth 16) ++
  bytesOf 2 (wake.setWidth 16) ++ ([if valid then 1 else 0, gen] : List Byte) ++ bytesOf 2 c.evMask ++
  ([0, 0] : List Byte) ++ bytesOf 6 c.stat ++
  bytesOf 6 wakeat ++ bytesOf 12 c.cmap ++ bytesOf 6 c.stkBase ++ ([0, 0] : List Byte) ++
  (c.d.toList.map (bytesOf 6)).flatten ++ (c.a.toList.map (bytesOf 6)).flatten ++ bytesOf 13 c.acc[0] ++
  ([0, 0, 0] : List Byte)

/-- Sixteen 6-byte registers from bytes. -/
def regs16 (l : List Byte) : Vector Word 16 := Vector.ofFn (fun i : Fin 16 => ofBytes 48 ((l.drop (6 * i.val)).take 6))

/-- The context that a state block fills; what the block does not hold is 0 (R60), and so are reserved bits and CMAP[0]
(R43, R45). -/
def csbCtx (l : List Byte) (c : Ctx) : Ctx :=
  { upc := ofBytes 14 ((l.drop 2).take 2), lc := ofBytes 16 ((l.drop 4).take 2), tenant := ofBytes 12 ((l.drop 6).take 2)
    evMask := ofBytes 16 ((l.drop 0x0C).take 2), stat := ofBytes 48 ((l.drop 0x10).take 6) &&& statMask
    cmap := ofBytes 96 ((l.drop 0x1C).take 12) &&& ~~~0x3F, stkBase := ofBytes 48 ((l.drop 0x28).take 6)
    d := regs16 (l.drop 0x30), a := regs16 (l.drop 0x90)
    acc := (Vector.replicate 4 0).set 0 (ofBytes 104 ((l.drop 0xF0).take 13)), halt := c.halt, inj := c.inj }

/-! ### Where a channel is -/

/-- The contexts of an engine, by number. -/
def ctxsOf (e : EngId) : List CtxNo := allCtx.map (ctxNo e)

/-- The context in which a channel is resident, until its spill ends. -/
def residentIn (b : Block) (ch : Chan) : Option CtxNo := (ctxsOf (homeOf ch)).find? (fun n => (b.ctx n).chan == some ch)

/-- The channels that a context holds: bound, leaving, and coming. -/
def chansOf (c : Ctx) : List Chan :=
  c.chan.toList ++ (match c.act with
    | .swap out inc => (match out with
        | some x => if some x.1 = c.chan then [] else [x.1]
        | none => []) ++ inc.toList
    | _ => [])

/-- The channel is being filled into a context. -/
def filling (b : Block) (ch : Chan) : Bool :=
  (ctxsOf (homeOf ch)).any (fun n => match (b.ctx n).act with
    | .swap _ inc => inc == some ch
    | _ => false)

def queued (b : Block) (ch : Chan) : Bool := (b.eng (homeOf ch)).rdyHi.contains ch || (b.eng (homeOf ch)).rdyLo.contains ch

/-- A bound channel that is neither in a context, nor in its ready queue, nor owed a rebind (R62, R402). -/
def parked (b : Block) (ch : Chan) : Bool :=
  csbValid b ch && (residentIn b ch).isNone && !(filling b ch) && !(queued b ch) &&
  !(b.syn.rebinds.any (fun x => x.chan == ch))

/-! ### The ready queue (R62) -/

/-- A wake trigger of a cluster (R432). -/
def trigger (c : CluId) (b : Block) : Block := b.modClu c (fun v => { v with trigAt := some b.now })

/-- A channel joins the FIFO of its saved STAT.PCLS. -/
def joinReady (ch : Chan) (b : Block) : Block :=
  if queued b ch then b
  else trigger (cluOf (homeOf ch)) (b.modEng (homeOf ch) (fun g =>
    if csbHigh b ch then { g with rdyHi := g.rdyHi ++ [ch] } else { g with rdyLo := g.rdyLo ++ [ch] }))

/-- A channel leaves its ready queue. -/
def leaveReady (ch : Chan) (b : Block) : Block :=
  b.modEng (homeOf ch) (fun g => { g with
    rdyHi := g.rdyHi.filter (fun x => x != ch), rdyLo := g.rdyLo.filter (fun x => x != ch) })

/-- The channel that the next fill takes. -/
def Eng.ready (g : Eng) : Option Chan := match g.rdyHi with
  | ch :: _ => some ch
  | [] => g.rdyLo.head?
/-- It is taken. -/
def Eng.popReady (g : Eng) : Eng := match g.rdyHi with
  | _ :: l => { g with rdyHi := l }
  | [] => { g with rdyLo := g.rdyLo.tail }

/-! ### The channel event table (R47) -/

def chEntry (b : Block) (ch : Chan) : Byte := Map.get 0 b.fab.chEv ch.toNat
def setEntry (ch : Chan) (v : Byte) (b : Block) : Block :=
  { b with fab := { b.fab with chEv := Map.set 0 b.fab.chEv ch.toNat v } }

/-- A wake condition of the channel's state block holds (R62). -/
def wakes (b : Block) (ch : Chan) : Bool :=
  let w := csbWake b ch
  chEntry b ch &&& w.extractLsb' 0 8 != 0 || (w.getLsbD 8 && reached b.tick (csbWakeat b ch))

/-! ### Latches (R47, R50, R55) -/

/-- YIELD_WAKE: a YIELD ends on a latch that it admits. -/
def wakeYield (n : CtxNo) (b : Block) : Block :=
  match (b.ctx n).act with
  | .yieldOn m => if (b.ctx n).latch.on &&& m ≠ 0 then b.modCtx n (fun c => { c with upc := c.upc + 1, act := .idle }) else b
  | _ => b

/-- An event of stamp `t` (with the count of steps of TICK_NOW before it, R194) sets latch `i` of a context (source 40 + i), unless one of the same stamp has done so. -/
def setLatch (t : Tick × Nat) (n : CtxNo) (i : Nat) (b : Block) : Block :=
  if Map.get none (b.ctx n).took i = some t then b
  else wakeYield n (settle n (trigger (cluOf (engOf n)) (b.modCtx n (fun c => { c with
    latch := c.latch.set b.now (BitVec.ofNat 24 (2 ^ i)), took := Map.set none c.took i (some t) }))))

/-- A channel-addressed event of source 40 + s (R47, R65). -/
def channelEvent (t : Tick × Nat) (s : BitVec 3) (ch : Chan) (b : Block) : Block :=
  if b.fenced (secOf (homeOf ch)) then b
  else if !(csbValid b ch) then detect (homeOf ch).toNat 0x22 (ch.setWidth 24 ||| s.setWidth 24 <<< 16) b
  else match residentIn b ch with
    | some n => setLatch t n s.toNat b
    | none =>
      let b := trigger (cluOf (homeOf ch)) (setEntry ch (putBit (chEntry b ch) s.toNat true) b)
      if parked b ch && (csbWake b ch).getLsbD s.toNat then joinReady ch b else b

/-- ENG_EVSEL's selection for source 48 + j (R74). -/
def evSelOf (g : Eng) (j : Nat) : BitVec 10 :=
  let r := Map.get 0x03FF03FF g.evSel (j / 2)
  if j % 2 = 0 then r.extractLsb' 0 10 else r.extractLsb' 16 10

/-- An engine's selection `x` names the event (R219). -/
def selects (e : EngId) (x : BitVec 10) : Ev → Bool
  | .num n => x == n && liveEvent n && !(decide (0x140 ≤ n.toNat ∧ n.toNat < 0x180))
  | .ctmr c i => cluOf e == c && x.toNat == 0x140 + i.toNat
  | .cwrap c i => cluOf e == c && x.toNat == 0x148 + i.toNat
  | .etmr e' k => e == e' && x.toNat == 0x150 + k.toNat
  | .chan .. => false

/-- An engine-broadcast event reaches the resident contexts of the engines that select it. -/
def broadcast (t : Tick × Nat) (ev : Ev) (b : Block) : Block :=
  (b.engs.map (fun x => (BitVec.ofNat 9 x.1 : EngId))).foldl (fun b e =>
    if b.fenced (secOf e) then b
    else times 16 (fun j b =>
      if selects e (evSelOf (b.eng e) j) ev then
        (ctxsOf e).foldl (fun b n =>
          if (b.ctx n).chan.isSome && (b.ctx n).evMask.getLsbD j then setLatch t n (8 + j) b else b) b
      else b) b) b

/-- CONDITION_EVENT: the oldest stamped event is delivered. -/
def opConditionEvent (b : Block) : Block :=
  match b.fab.queue with
  | [] => b
  | x :: l =>
    let b := { b with fab := { b.fab with queue := l } }
    match x.ev with
    | .chan s ch => channelEvent (x.stamp, x.era) s ch b
    | ev => broadcast (x.stamp, x.era) ev b

/-- WAKEAT_REACHED: a parked channel's wake tick is reached (R62). -/
def opWakeatReached (ch : Chan) (b : Block) : Block :=
  if decide (b.mode ≠ .off) && !(b.fenced (secOf (homeOf ch))) && parked b ch && (csbWake b ch).getLsbD 8 &&
      reached b.tick (csbWakeat b ch) then joinReady ch b else b

end Sys2Proof.Machine
end

