-- ==== Sys2Proof/Machine/Links.lean ====
section
/-! DEFINITION. Flits, routes, and the sequence space of each pair of instances (R351..R358). -/

namespace Sys2Proof.Machine
open Sys2Proof

/-! ### Flits (R352, R353) -/

def fByte (f : Flit) (i : Nat) : Byte := f.extractLsb' (8 * i) 8
/-- `n` bytes of a flit from offset `i`, least significant first. -/
def fField (w : Nat) (f : Flit) (i n : Nat) : BitVec w := ofBytes w ((List.range n).map (fun j => fByte f (i + j)))
def fType (f : Flit) : Byte := fByte f 0
def fTimed (f : Flit) : Bool := (fByte f 1).getLsbD 0
def fSrc (f : Flit) : BitVec 9 := fField 9 f 2 2
def fDst (f : Flit) : BitVec 9 := fField 9 f 4 2
def fSeq (f : Flit) : BitVec 16 := fField 16 f 6 2
def fAck (f : Flit) : BitVec 16 := fField 16 f 8 2
def fHops (f : Flit) : Nat := (fByte f 10).toNat % 16
/-- A payload field: `n` bytes from payload offset `i`. -/
def fPay (w : Nat) (f : Flit) (i n : Nat) : BitVec w := fField w f (12 + i) n
def fPayBytes (f : Flit) : List Byte := (List.range 48).map (fun i => fByte f (12 + i))

/-- CRC-32C of bytes: all ones first, complemented at the end (R133). -/
def crc32c (l : List Byte) : BitVec 32 := ((l.foldl crcStep 0xFFFFFFFF).extractLsb' 0 32) ^^^ 0xFFFFFFFF

/-- 48 payload bytes from a shorter list. -/
def pad48 (l : List Byte) : List Byte := (l ++ List.replicate 48 0).take 48

/-- Bytes 0x00..0x3B followed by their CRC. -/
def sealFlit (l : List Byte) : Flit := ofBytes 512 (l ++ bytesOf 4 (crc32c l))

/-- A flit of type `ty`; HOPS starts at 15 (R354). -/
def mkFlit (ty flags : Byte) (src dst : BitVec 9) (seq ack : BitVec 16) (pay : List Byte) : Flit :=
  sealFlit ([ty, flags] ++ bytesOf 2 (src.setWidth 16) ++ bytesOf 2 (dst.setWidth 16) ++ bytesOf 2 seq ++
    bytesOf 2 ack ++ [15, 0] ++ pad48 pay)

/-- The flit with another ACK field, or another HOPS field. -/
def withAck (f : Flit) (ack : BitVec 16) : Flit :=
  sealFlit ((List.range 8).map (fByte f) ++ bytesOf 2 ack ++ (List.range 50).map (fun i => fByte f (10 + i)))
def withHops (f : Flit) (h : Nat) : Flit :=
  sealFlit ((List.range 10).map (fByte f) ++ [BitVec.ofNat 8 h] ++ (List.range 49).map (fun i => fByte f (11 + i)))

/-- TYPE values that R353 gives a meaning. -/
def knownType (t : Byte) : Bool := decide ((1 ≤ t.toNat ∧ t.toNat ≤ 9) ∨ t = 0x10 ∨ t = 0x11)

/-- The CRC matches and the TYPE is not reserved (R353). -/
def flitGood (f : Flit) : Bool :=
  knownType (fType f) && crc32c ((List.range 60).map (fByte f)) == fField 32 f 60 4

/-! ### Ports, routes, pairs -/

def Fed.port (d : Fed) (p : BitVec 2) : Port := Map.get {} d.ports p.toNat
def Fed.modPort (d : Fed) (p : BitVec 2) (f : Port → Port) : Fed := { d with ports := Map.mod {} d.ports p.toNat f }
def Fed.pair (d : Fed) (i : BitVec 9) : Pair := Map.get {} d.pairs i.toNat
def Fed.modPair (d : Fed) (i : BitVec 9) (f : Pair → Pair) : Fed := { d with pairs := Map.mod {} d.pairs i.toNat f }
def Fed.route (d : Fed) (i : BitVec 9) : BitVec 8 := Map.get 0 d.routes i.toNat
def Fed.setRoute (d : Fed) (i : BitVec 9) (v : BitVec 8) : Fed := { d with routes := Map.set 0 d.routes i.toNat v }
def Block.modFed (b : Block) (f : Fed → Fed) : Block := { b with fed := f b.fed }
def allPorts : List (BitVec 2) := [0, 1, 2, 3]

/-- Fields of FED_ROUTE (R383). -/
def rtPort (r : BitVec 8) : BitVec 2 := r.extractLsb' 0 2
def rtValid (r : BitVec 8) : Bool := r.getLsbD 2
def rtHops (r : BitVec 8) : Nat := (r.extractLsb' 3 4).toNat
def rtLost (r : BitVec 8) : Bool := r.getLsbD 7
def mkRoute (p : BitVec 2) (hops : Nat) : BitVec 8 := p.setWidth 8 ||| 4 ||| BitVec.ofNat 8 (8 * (hops % 16))

/-- FED_CFG fields (R383): RTO in ticks, LOSS in ticks, MAXRETX. -/
def Fed.rto (d : Fed) : Nat := (d.cfg.extractLsb' 0 16).toNat
def Fed.loss (d : Fed) : Nat := (d.cfg.extractLsb' 16 8).toNat * 16384
def Fed.maxRetx (d : Fed) : Nat := (d.cfg.extractLsb' 24 4).toNat

/-- The port carries flits: UP, and LOOPBACK, during which data flits go on (R351, R374). -/
def Port.carries (q : Port) : Bool := decide (q.st = .up ∨ q.st = .loopback)

/-- A flit leaves on a port. -/
def putWire (p : BitVec 2) (f : Flit) (d : Fed) : Fed := d.modPort p (fun q => { q with wire := q.wire ++ [f] })

/-- A flit to `i` leaves at once: a route is VALID, and its port carries flits. -/
def Fed.goes (d : Fed) (i : BitVec 9) : Bool := rtValid (d.route i) && (d.port (rtPort (d.route i))).carries

/-- A flit to `i` leaves on its route; it carries the pair's ACK, so that none is owed (R357). -/
def leave (i : BitVec 9) (f : Flit) (d : Fed) : Fed :=
  if d.goes i then (putWire (rtPort (d.route i)) (withAck f (d.pair i).rxNext) d).modPair i (fun q => { q with ackDue := none })
  else d

/-- An unsequenced flit to `i`. -/
def sendFree (ty : Byte) (i : BitVec 9) (pay : List Byte) (d : Fed) : Fed :=
  leave i (mkFlit ty 0 d.instId i 0 (d.pair i).rxNext pay) d

/-! ### Sequenced sends (R356) -/

/-- Flits in a port's retransmission buffer. -/
def bufUsed (d : Fed) (p : BitVec 2) : Nat :=
  (d.pairs.map (fun x => (x.2.buf.filter (fun t => t.port == p)).length)).foldl (· + ·) 0

/-- Room for one more flit to `i`: a route, 512 unacknowledged for the pair, 4,096 in the port's buffer. -/
def roomTo (d : Fed) (i : BitVec 9) : Bool :=
  rtValid (d.route i) && !(rtLost (d.route i)) && decide ((d.pair i).buf.length < 512) && decide (bufUsed d (rtPort (d.route i)) < 4096)

/-- A flit enters the buffer of its route's port and leaves. -/
def enterBuf (now : Nat) (i : BitVec 9) (num : Nat) (f : Flit) (d : Fed) : Fed :=
  let f := withAck f (d.pair i).rxNext
  (leave i f d).modPair i (fun q => { q with
    buf := q.buf ++ [{ num := num, flit := f, port := rtPort (d.route i) }]
    sentAt := if q.buf = [] then now else q.sentAt })

/-- Waiting sends enter while there is room; each sets its origin's FED_TX_STAT to QUEUED (R356, R360). -/
def drainWaits (i : BitVec 9) : Nat → Block → Block
  | 0, b => b
  | n + 1, b =>
    match (b.fed.pair i).wait with
    | [] => b
    | t :: rest =>
      if roomTo b.fed i then
        let d := enterBuf b.now i t.num t.flit (b.fed.modPair i (fun q => { q with wait := rest }))
        let b := { b with fed := d }
        drainWaits i n (match t.org with
          | some o => b.modOrg o (fun r => { r with txStat := 1 })
          | none => b)
      else b

/-- Room that one pair gives up in a port's buffer may let the waiting sends of others go (R356). -/
def drainAll (b : Block) : Block :=
  (b.fed.pairs.filter (fun x => x.2.wait != [])).foldl (fun b x => drainWaits (BitVec.ofNat 9 x.1) 512 b) b

/-- A sequenced flit to `i` is numbered and sent, or waits for room. Its number is the pair's `next` before it. -/
def sendSeq (ty flags : Byte) (i : BitVec 9) (pay : List Byte) (org : Option Nat) (b : Block) : Block :=
  let q := b.fed.pair i
  let f := mkFlit ty flags b.fed.instId i (BitVec.ofNat 16 q.next) 0 pay
  let d := b.fed.modPair i (fun q => { q with
    next := q.next + 1, wait := q.wait ++ [{ num := q.next, flit := f, org := org, at_ := b.now }] })
  drainWaits i 1 { b with fed := d }

/-- Flits are sent again from number `from_` on (R358). -/
def resendFrom (i : BitVec 9) (from_ : Nat) (now : Nat) (d : Fed) : Fed :=
  let fs := (d.pair i).buf.filter (fun t => decide (from_ ≤ t.num))
  let sent := if d.goes i then fs.length else 0
  let d := fs.foldl (fun d t => leave i t.flit d) d
  { d.modPair i (fun q => { q with sentAt := now, busy := none }) with retx := d.retx.count now (BitVec.ofNat 32 sent) }

/-- The number that a 16-bit SEQ names, at or after the pair's oldest unacknowledged flit. -/
def seqNum (q : Pair) (s : BitVec 16) : Nat := q.acked + (s - BitVec.ofNat 16 q.acked).toNat

/-- The block gives up on the route to `i` (R358): LOST, with its record. -/
def routeLost (i : BitVec 9) (b : Block) : Block :=
  let r := b.fed.route i
  if rtLost r then b
  else detect (0x566 + (rtPort r).toNat) 2 (i.setWidth 24) (b.modFed (fun d => d.setRoute i (r ||| 0x80)))

/-- A resend that follows a NAK or the timeout: after MAXRETX of them that covered nothing new the route is LOST. -/
def retry (i : BitVec 9) (from_ : Nat) (b : Block) : Block :=
  if (b.fed.pair i).buf = [] ∨ rtLost (b.fed.route i) then b
  else if b.fed.maxRetx ≤ (b.fed.pair i).resends then routeLost i b
  else b.modFed (fun d => (resendFrom i from_ b.now d).modPair i (fun q => { q with resends := q.resends + 1 }))

end Sys2Proof.Machine
end

