-- ==== Sys2Proof/Machine/Ledger.lean ====
section
/-! DEFINITION. The ledger in the dual-port region: ring records, entries and journal records as bytes in both copies
(R317..R321, R332, R536), the work queues (R325, R337, R537), mirroring (R346, R378), replay and reassignment
(R336..R341). -/

namespace Sys2Proof.Machine
open Sys2Proof

abbrev RingNo := BitVec 12
abbrev EntryNo := BitVec 13

/-! ### Layouts -/

/-- A ring record (R536). SIZE, WIN and CHCNT are the logarithms that the record holds. -/
structure RingRec where
  next : Word
  ret : Word
  last : Reg32
  epoch : BitVec 16
  st : BitVec 3
  size : Byte
  win : Byte
  maxtry : Byte
  ctl : Byte
  chcnt : Byte
  ebase : BitVec 16
  chbase : BitVec 16
  spbase : BitVec 16
  partner : BitVec 16
  dbase : BitVec 64
  cbase : BitVec 64
  awb : BitVec 64
  pring : BitVec 16
  deriving DecidableEq, Repr

/-- A ledger entry (R320). -/
structure Entry where
  csn : Word
  ring : RingNo
  wsn : Reg32
  chan : Chan
  st : BitVec 3
  replay : Bool
  tries : BitVec 4
  actsets : Byte
  nset : Byte
  notify : Bool
  jhead : EntryNo
  jcount : BitVec 16
  epoch : BitVec 16
  status : BitVec 16
  rval : Reg32
  deriving DecidableEq, Repr

/-- A journal record (R332). -/
structure Jrn where
  entry : EntryNo
  st : BitVec 2
  nxt : EntryNo
  beat : BitVec 20
  chan : Byte
  haddr : BitVec 46
  setno : Byte
  deriving DecidableEq, Repr

def fieldAt (w : Nat) (l : List Byte) (i n : Nat) : BitVec w := ofBytes w ((l.drop i).take n)

def RingRec.dec (l : List Byte) : RingRec :=
  { next := fieldAt 48 l 0 6, ret := fieldAt 48 l 6 6, last := fieldAt 32 l 12 4, epoch := fieldAt 16 l 16 2,
    st := fieldAt 3 l 18 1, size := fieldAt 8 l 19 1, win := fieldAt 8 l 20 1, maxtry := fieldAt 8 l 21 1 &&& 0xF,
    ctl := fieldAt 8 l 22 1, chcnt := fieldAt 8 l 23 1, ebase := fieldAt 16 l 24 2, chbase := fieldAt 16 l 26 2,
    spbase := fieldAt 16 l 28 2, partner := fieldAt 16 l 30 2, dbase := fieldAt 64 l 32 8, cbase := fieldAt 64 l 40 8,
    awb := fieldAt 64 l 48 8, pring := fieldAt 16 l 56 2 }

/-- Row 0: the counters that change at commits and retirements. -/
def RingRec.row0 (r : RingRec) : List Byte :=
  bytesOf 6 r.next ++ bytesOf 6 r.ret ++ bytesOf 4 r.last ++ bytesOf 2 r.epoch ++ [r.st.setWidth 8, r.size, r.win,
    r.maxtry, r.ctl, r.chcnt] ++ bytesOf 2 r.ebase ++ bytesOf 2 r.chbase ++ bytesOf 2 r.spbase ++ bytesOf 2 r.partner
def RingRec.row1 (r : RingRec) : List Byte :=
  bytesOf 8 r.dbase ++ bytesOf 8 r.cbase ++ bytesOf 8 r.awb ++ bytesOf 2 r.pring ++ List.replicate 6 0

def Entry.dec (l : List Byte) : Entry :=
  { csn := fieldAt 48 l 0 6, ring := fieldAt 12 l 6 2, wsn := fieldAt 32 l 8 4, chan := fieldAt 16 l 12 2,
    st := fieldAt 3 l 14 1, replay := (nth 0 l 14).getLsbD 3, tries := (nth 0 l 14).extractLsb' 4 4,
    actsets := nth 0 l 15, nset := nth 0 l 16, notify := (nth 0 l 17).getLsbD 0, jhead := fieldAt 13 l 18 2,
    jcount := fieldAt 16 l 20 2, epoch := fieldAt 16 l 22 2, status := fieldAt 16 l 24 2, rval := fieldAt 32 l 28 4 }
def Entry.enc (e : Entry) : List Byte :=
  bytesOf 6 e.csn ++ bytesOf 2 (e.ring.setWidth 16) ++ bytesOf 4 e.wsn ++ bytesOf 2 e.chan ++
  [e.st.setWidth 8 ||| (if e.replay then 8 else 0) ||| (e.tries.setWidth 8 <<< 4), e.actsets, e.nset,
   if e.notify then 1 else 0] ++ bytesOf 2 (e.jhead.setWidth 16) ++ bytesOf 2 e.jcount ++ bytesOf 2 e.epoch ++
  bytesOf 2 e.status ++ [0, 0] ++ bytesOf 4 e.rval

def Jrn.dec (l : List Byte) : Jrn :=
  { entry := fieldAt 13 l 0 2, st := (fieldAt 16 l 0 2).extractLsb' 13 2, nxt := fieldAt 13 l 2 2,
    beat := fieldAt 20 l 4 3, chan := nth 0 l 7, haddr := fieldAt 46 l 8 6, setno := nth 0 l 14 }
def Jrn.enc (j : Jrn) : List Byte :=
  bytesOf 2 (j.entry.setWidth 16 ||| (j.st.setWidth 16 <<< 13)) ++ bytesOf 2 (j.nxt.setWidth 16) ++
  bytesOf 3 (j.beat.setWidth 24) ++ [j.chan] ++ bytesOf 6 (j.haddr.setWidth 48) ++ [j.setno, 0]

/-- Entry states (R321). -/
def stFREE : BitVec 3 := 0
def stACCEPTED : BitVec 3 := 1
def stTAKEN : BitVec 3 := 2
def stDONE : BitVec 3 := 3
def stREJECTED : BitVec 3 := 4
def stHELD : BitVec 3 := 5
/-- Ring states (R316). -/
def rsNONE : BitVec 3 := 0
def rsACTIVE : BitVec 3 := 1
def rsHELD : BitVec 3 := 2
def rsDRAIN : BitVec 3 := 3
def rsRECOVER : BitVec 3 := 4

/-- The end of a journal chain. -/
def jNone : EntryNo := 0x1FFF

/-! ### The two copies (R229, R317, R319, R341) -/

/-- Engine address of a region offset. -/
def dpr (off : Nat) : Nat := 0x4000000 + off
def offRing (r : RingNo) : Nat := 64 * r.toNat
def offEntry (e : EntryNo) : Nat := 0x40000 + 32 * e.toNat
def offJrn (j : EntryNo) : Nat := 0x80000 + 16 * j.toNat
/-- Engine address of an entry's payload. -/
def payAddr (e : EntryNo) : Nat :=
  if e.toNat < 4096 then dpr (0xA0000 + 64 * e.toNat) else dpr (0x1A0000 + 64 * (e.toNat - 4096))

/-- A mirrored structure as the Concord unit reads it: the lower copy, or the upper where the lower is poisoned. -/
def mread (b : Block) (off n : Nat) : List Byte :=
  if poisoned b (dpr off) n then readBytes b (dpr (off + 0x100000)) n else readBytes b (dpr off) n

def Block.modCon (b : Block) (f : Concord → Concord) : Block := { b with con := f b.con }

/-- A write of both copies (R319); a structure so written is good again. -/
def mwrite (off : Nat) (l : List Byte) (b : Block) : Block :=
  (spineWrite (dpr (off + 0x100000)) l (spineWrite (dpr off) l b)).modCon (fun c => { c with
    bothBad := c.bothBad.filter (fun x => x != off) })

def ringRec (b : Block) (r : RingNo) : RingRec := .dec (mread b (offRing r) 64)
def entryOf (b : Block) (e : EntryNo) : Entry := .dec (mread b (offEntry e) 32)
def jrnOf (b : Block) (j : EntryNo) : Jrn := .dec (mread b (offJrn j) 16)
def writeRow0 (r : RingNo) (v : RingRec) (b : Block) : Block := mwrite (offRing r) v.row0 b
def writeRing (r : RingNo) (v : RingRec) (b : Block) : Block := mwrite (offRing r) (v.row0 ++ v.row1) b
def writeEntry (e : EntryNo) (v : Entry) (b : Block) : Block := mwrite (offEntry e) v.enc b
def writeJrn (j : EntryNo) (v : Jrn) (b : Block) : Block := mwrite (offJrn j) v.enc b

def Block.ring (b : Block) (r : RingNo) : Ring := Map.get {} b.con.rings r.toNat
def Block.modRing (b : Block) (r : RingNo) (f : Ring → Ring) : Block :=
  b.modCon (fun c => { c with rings := Map.mod {} c.rings r.toNat f })

def conDetect (code : Nat) (info : BitVec 24) (b : Block) : Block := detect 0x562 code info b

/-- RING_STAT.STATE: the record's (R536), or HELD where both copies of the record itself are bad (R341). -/
def ringState (b : Block) (r : RingNo) : BitVec 3 := if (b.ring r).bad then rsHELD else (ringRec b r).st

/-- An uncorrectable lower copy is rewritten from the upper one, with the MIRFIX record; where both copies are bad, the
structure has its record, once, and the owning ring is HELD, with RINGHELD (R341, R404, R440). `kind` and `idx` name the
structure. -/
def heal (r : RingNo) (kind : BitVec 2) (idx : EntryNo) (off n : Nat) (b : Block) : Block :=
  let info : BitVec 24 := idx.setWidth 24 ||| kind.setWidth 24 <<< 13
  let lo := poisoned b (dpr off) n
  let up := poisoned b (dpr (off + 0x100000)) n
  if lo && up then
    let b := if b.con.bothBad.contains off then b
      else conDetect 4 info (b.modCon (fun c => { c with bothBad := c.bothBad ++ [off] }))
    if (b.ring r).bad then b
    else
      let b := queueEvent 3 (bytesOf 2 (r.setWidth 16) ++ [2]) (b.modRing r (fun v => { v with bad := true }))
      if kind = 0 then b else writeRow0 r { ringRec b r with st := rsHELD } b
  else if lo || up then
    let l := readBytes b (dpr (if lo then off + 0x100000 else off)) n
    conDetect 3 info ((mwrite off l b).modCon (fun c => { c with mirfix := c.mirfix.set b.now }))
  else b

/-- A read by the Concord unit, of the lower copy on port B: its bank counts and records the poisoned lines that it reads
(R242), and the unit repairs what it finds there (R319, R341). -/
def healRead (r : RingNo) (kind : BitVec 2) (idx : EntryNo) (off n : Nat) (b : Block) : Block :=
  let b := touch true false (dpr off) n b
  if poisoned b (dpr off) n then heal r kind idx off n (eccAt (linesOf (dpr off) n) .ok b) else b
def healRing (r : RingNo) (b : Block) : Block := healRead r 0 (r.setWidth 13) (offRing r) 64 b
/-- The ring that owns an entry: that to which its number is assigned (R311). -/
def entryRing (b : Block) (e : EntryNo) : RingNo :=
  match b.con.ranges.find? (fun x => decide (x.1 ≤ e.toNat ∧ e.toNat < x.1 + x.2.1)) with
  | some x => x.2.2
  | none => (entryOf b e).ring
def healEntry (e : EntryNo) (b : Block) : Block := healRead (entryRing b e) 1 e (offEntry e) 32 b
def healJrn (r : RingNo) (j : EntryNo) (b : Block) : Block := healRead r 2 j (offJrn j) 16 b

/-- A change of one entry, and of a ring's state, each after its read. -/
def modEntry (e : EntryNo) (f : Entry → Entry) (b : Block) : Block :=
  let b := healEntry e b
  writeEntry e (f (entryOf b e)) b
def setRingState (r : RingNo) (s : BitVec 3) (b : Block) : Block :=
  let b := healRing r b
  writeRow0 r { ringRec b r with st := s } b

/-- The records of an item's journal chain, newest first. -/
def chain (b : Block) : Nat → EntryNo → List EntryNo
  | 0, _ => []
  | n + 1, j => if j = jNone then [] else j :: chain b n (jrnOf b j).nxt
def itemChain (b : Block) (e : EntryNo) : List EntryNo :=
  let v := entryOf b e
  chain b v.jcount.toNat v.jhead

/-- An item is read with its chain; and the item that a ring and a CSN name, with its ring. -/
def healItem (e : EntryNo) (b : Block) : Block :=
  let b := healEntry e b
  (itemChain b e).foldl (fun b j => healJrn (entryRing b e) j b) b

/-! ### Rings -/

def RingRec.port (r : RingRec) : Bool := r.ctl.getLsbD 0
def RingRec.line (r : RingRec) : BitVec 3 := r.ctl.extractLsb' 2 3
def RingRec.mirror (r : RingRec) : Bool := r.ctl.getLsbD 5
def RingRec.copy (r : RingRec) : Bool := r.ctl.getLsbD 6
def RingRec.slots (r : RingRec) : Nat := 2 ^ r.size.toNat
def RingRec.window (r : RingRec) : Nat := 2 ^ r.win.toNat
def RingRec.chans (r : RingRec) : Nat := 2 ^ r.chcnt.toNat
def RingRec.peer (r : RingRec) : BitVec 9 := r.partner.extractLsb' 0 9
/-- The entry of the descriptor with CSN c (R324). -/
def RingRec.entry (r : RingRec) (c : Word) : EntryNo := BitVec.ofNat 13 (r.ebase.toNat + c.toNat % r.window)
/-- Items consumed and not retired. -/
def RingRec.open_ (r : RingRec) : Nat := (r.next - r.ret).toNat
/-- The ring and the item of a CSN are read. -/
def healNamed (r : RingNo) (csn : Word) (b : Block) : Block :=
  let b := healRing r b
  healItem ((ringRec b r).entry csn) b
/-- The entries of the items consumed and not retired, in CSN order. -/
def RingRec.openItems (r : RingRec) : List EntryNo := (List.range r.open_).map (fun i => r.entry (r.ret + BitVec.ofNat 48 i))

/-- The rings that exist: those with assigned entries. -/
def liveRings (b : Block) : List RingNo := b.con.ranges.map (fun x => x.2.2)

/-- Every item consumed and not retired of the rings that own their items (copy rings excepted), ring by ring in
ascending number and CSN. -/
def openEntries (b : Block) : List EntryNo :=
  (((List.range 4096).map (BitVec.ofNat 12)).filter (fun r => (liveRings b).contains r)).flatMap (fun r =>
    let v := ringRec b r
    if v.copy then [] else v.openItems)

/-! ### Mirroring (R346, R378) -/

/-- A MIRROR flit to a ring's partner: kind, row, the 32 bytes. -/
def mirrorFlit (v : RingRec) (kind row : Byte) (bytes : List Byte) (b : Block) : Block :=
  sendSeq 0x02 0 v.peer ([kind, row] ++ bytesOf 2 (v.pring &&& 0xFFF) ++ (bytes ++ List.replicate 32 0).take 32) none b

/-- An update of a mirrored ring is sent, with its ring-record row where `rec_` says so; `act` waits for the
acknowledgement of its last flit. -/
def mirrorSend (r : RingNo) (kind : Byte) (bytes : List Byte) (rec_ : Bool) (act : MirAct) (b : Block) : Block :=
  let b := healRing r b
  let v := ringRec b r
  let b := mirrorFlit v kind 0 bytes b
  let b := if rec_ then mirrorFlit v kind 1 v.row0 b else b
  b.modCon (fun c => { c with mirWaits := c.mirWaits ++
    [{ peer := v.peer, last := (b.fed.pair v.peer).next - 1, act := act }] })

/-! ### Work queues (R325, R337, R537) -/

def Block.queue (b : Block) (ch : Chan) : List EntryNo := Map.get [] b.con.queues ch.toNat
def Block.setQueue (b : Block) (ch : Chan) (l : List EntryNo) : Block :=
  b.modCon (fun c => { c with queues := Map.set [] c.queues ch.toNat l })

/-- WORK for a channel (R325). -/
def work (ch : Chan) (b : Block) : Block := raise (.chan 0 ch) b

/-- An item joins the tail of its channel's queue. -/
def enqueue (e : EntryNo) (b : Block) : Block :=
  let ch := (entryOf b e).chan
  work ch (b.setQueue ch (b.queue ch ++ [e]))

/-- A replayed item joins ahead of every item never taken, in CSN order among the replayed items of its ring (R337). -/
def insertReplay (b : Block) (v : Entry) (e : EntryNo) : List EntryNo → List EntryNo
  | [] => [e]
  | x :: l =>
    let y := entryOf b x
    if !y.replay || (y.ring == v.ring && decide (v.csn.toNat < y.csn.toNat)) then e :: x :: l
    else x :: insertReplay b v e l

/-- The partner has not yet acknowledged the commit of the item, so that it is not accepted (R346). -/
def unacked (b : Block) (e : EntryNo) : Bool := b.con.mirWaits.any (fun w => w.act == .commit e)

/-- The queue of a channel as R537 rebuilds it from the entries. -/
def rebuiltQueue (b : Block) (open_ : List EntryNo) (ch : Chan) : List EntryNo :=
  let mine := open_.filter (fun e => let v := entryOf b e; v.st == stACCEPTED && v.chan == ch && !(unacked b e))
  mine.filter (fun e => (entryOf b e).replay) ++ mine.filter (fun e => !(entryOf b e).replay)

/-- Every queue rebuilt (R343). -/
def rebuildQueues (b : Block) : Block :=
  let es := openEntries b
  let b := b.modCon (fun c => { c with queues := [] })
  es.foldl (fun b e =>
    let ch := (entryOf b e).chan
    if (b.queue ch).isEmpty then b.setQueue ch (rebuiltQueue b es ch) else b) b

/-! ### Completion of an item (R327, R378) -/

/-- An item becomes DONE; a mirrored ring forwards it. -/
def itemDone (e : EntryNo) (status : BitVec 16) (rval : Reg32) (b : Block) : Block :=
  let b := modEntry e (fun v => { v with st := stDONE, status := status, rval := rval }) b
  let v := entryOf b e
  if (ringRec b v.ring).mirror then mirrorSend v.ring 0x04 v.enc false (.done e) b else b

/-! ### Replay (R336..R339) -/

/-- An item is to be replayed: HELD, or DONE with REPLAYLIMIT where its tries are exhausted. -/
def replayItem (e : EntryNo) (b : Block) : Block :=
  let b := healEntry e b
  let v := entryOf b e
  let m := (ringRec b v.ring).maxtry
  if m ≠ 0 ∧ v.tries.toNat = m.toNat then
    (itemDone e 0xFFFE 0 b).modRing v.ring (fun r => { r with limit := r.limit.set b.now })
  else
    (modEntry e (fun v => { v with
      st := stHELD, replay := true, tries := if v.tries = 15 then 15 else v.tries + 1 }) b).modCon
      (fun c => { c with held := c.held ++ [e] })

/-- A drained ring returns its entries to the pool (R316, R403). -/
def drained (r : RingNo) (b : Block) : Block :=
  let v := ringRec b r
  if v.st = rsDRAIN ∧ v.next = v.ret ∧ (b.ring r).okd = [] then
    (setRingState r rsNONE b).modCon (fun c => { c with ranges := c.ranges.filter (fun x => x.2.2 != r) })
  else b

/-- The TAKEN items of the channels that `p` names are replayed. -/
def replayTaken (p : Chan → Bool) (b : Block) : Block :=
  (openEntries b).foldl (fun b e =>
    let v := entryOf b e
    if v.st = stTAKEN ∧ p v.chan then replayItem e b else b) b

/-- REPLAY: a HELD item whose ACTSETS is 0 is queued again as ACCEPTED (R337). -/
def opReplay (e : EntryNo) (b : Block) : Block :=
  let b := healEntry e b
  let v := entryOf b e
  if b.con.held.contains e && v.st == stHELD && v.actsets == 0 then
    let v := { v with st := stACCEPTED, nset := 0, status := 0, rval := 0 }
    let b := writeEntry e v b
    let b := b.modCon (fun c => { c with held := c.held.filter (fun x => x != e), replays := c.replays.count b.now 1 })
    work v.chan (b.setQueue v.chan (insertReplay b v e (b.queue v.chan)))
  else b

/-- A replay whose item has no set running goes on in its own tick (R337). -/
def replayNow (e : EntryNo) (b : Block) : Block := opReplay e (replayItem e b)

/-! ### Reassignment (R340) -/

/-- The part that a channel's home engine lies in is out of service. -/
def outOfService (b : Block) (ch : Chan) : Bool :=
  b.fenced (ch.extractLsb' 13 3) || decide ((b.clu (ch.extractLsb' 10 6)).state = .out)

/-- A channel set holds a channel that satisfies `p`. -/
def anyChan (base : BitVec 16) (n : Nat) (p : Chan → Bool) : Bool :=
  (List.range n).any (fun i => p (base + BitVec.ofNat 16 i))

/-- RINGHELD is reported (R404). -/
def ringHeld (r : RingNo) (cause : Byte) (more : List Byte) (b : Block) : Block :=
  queueEvent 3 (bytesOf 2 (r.setWidth 16) ++ [cause] ++ more) (setRingState r rsHELD b)

/-- The command that runs is RING_DESTROY of ring r. -/
def destroying (b : Block) (r : RingNo) : Bool := match b.syn.run with
  | some x =>
    let q := (Map.get {} b.syn.mbx x.pair.toNat).req
    (Map.get 0 q 0).extractLsb' 0 16 == (8 : BitVec 16) && (Map.get 0 q 2).extractLsb' 0 12 == r
  | none => false

/-- A ring moves to its spare channel set, or is HELD (R340). A ring under RING_DESTROY stays in DRAIN; a lost partner, a
stop or a bad structure keeps it HELD. -/
def reassign (r : RingNo) (b : Block) : Block :=
  let b := healRing r b
  let v := ringRec b r
  if v.spbase = 0xFFFF || anyChan v.spbase v.chans (outOfService b) then
    if v.st = rsHELD then b.modRing r (fun q => { q with lostFrom := q.lostFrom.map (fun _ => rsHELD) }) else ringHeld r 1 [] b
  else
    let on := if v.st = rsDRAIN ∨ destroying b r then rsDRAIN else rsACTIVE
    let held := b.sup.stopped || (b.ring r).bad || (b.ring r).lostFrom.isSome
    let b := b.modRing r (fun q => { q with lostFrom := q.lostFrom.map (fun _ => on) })
    let b := writeRow0 r { v with chbase := v.spbase, spbase := 0xFFFF, st := if held then rsHELD else on } b
    let items := v.openItems
    let b := items.foldl (fun b e =>
      let b := healEntry e b
      let x := entryOf b e
      if x.st = stACCEPTED ∨ x.st = stTAKEN ∨ x.st = stHELD then
        let b := b.setQueue x.chan ((b.queue x.chan).filter (fun y => y != e))
        writeEntry e { x with chan := x.chan - v.chbase + v.spbase } b
      else b) b
    let b := items.foldl (fun b e => if (entryOf b e).st = stTAKEN then replayNow e b else b) b
    let es := openEntries b
    drained r (times v.chans (fun i b =>
      let ch := v.spbase + BitVec.ofNat 16 i
      let l := rebuiltQueue b es ch
      if l.isEmpty then b else b.setQueue ch l) b)

/-- A reassignment event: every ring whose channel set has a channel that `p` names (R336). -/
def reassignWhere (p : Chan → Bool) (b : Block) : Block :=
  (liveRings b).foldl (fun b r =>
    let v := ringRec b r
    if !v.copy && v.st != rsNONE && anyChan v.chbase v.chans p then reassign r b else b) b

/-- The ring that owns a journal record: that of the item in whose chain it stands. -/
def jrnRing (b : Block) (j : EntryNo) : RingNo :=
  match (openEntries b).find? (fun e => (itemChain b e).contains j) with
  | some e => entryRing b e
  | none => entryRing b (jrnOf b j).entry

/-- An uncorrectable error in one copy of a structure of the ledger is repaired from the other (R336, R341). -/
def healCopy (a : Nat) (b : Block) : Block :=
  let off := a - 0x4000000
  let o := if off < 0x100000 then off else off - 0x100000
  if o < 0x40000 then
    let r : RingNo := BitVec.ofNat 12 (o / 64)
    heal r 0 (r.setWidth 13) (offRing r) 64 b
  else if o < 0x80000 then
    let e : EntryNo := BitVec.ofNat 13 ((o - 0x40000) / 32)
    heal (entryRing b e) 1 e (offEntry e) 32 b
  else if o < 0xA0000 then
    let j : EntryNo := BitVec.ofNat 13 ((o - 0x80000) / 16)
    heal (jrnRing b j) 2 j (offJrn j) 16 b
  else b

/-- The mirrored structure that holds a region offset, of a lower copy: its offset and its length (R317). -/
def structAt (off : Nat) : Option (Nat × Nat) :=
  if off < 0x40000 then some (off / 64 * 64, 64)
  else if off < 0x80000 then some (off / 32 * 32, 32)
  else if off < 0xA0000 then some (off / 16 * 16, 16)
  else none
/-- A poisoned line lies in one copy of a structure whose other copy is good. -/
def repairable (b : Block) (l : Nat) : Bool :=
  let off := 8 * l - 0x4000000
  decide (0x4000000 ≤ 8 * l) && (match structAt (if 0x100000 ≤ off then off - 0x100000 else off) with
    | some (s, n) => !(poisoned b (dpr s) n && poisoned b (dpr (s + 0x100000)) n)
    | none => false)
/-- The entry whose payload holds a line (R317). -/
def payEntry (l : Nat) : Option EntryNo :=
  let off := 8 * l - 0x4000000
  if 0xA0000 ≤ off ∧ off < 0xE0000 then some (BitVec.ofNat 13 ((off - 0xA0000) / 64))
  else if 0x1A0000 ≤ off ∧ off < 0x1E0000 then some (BitVec.ofNat 13 (4096 + (off - 0x1A0000) / 64))
  else none
/-- An item holds its payload. -/
def Entry.holds (x : Entry) : Bool := x.st == stACCEPTED || x.st == stTAKEN || x.st == stHELD || x.st == stDONE
/-- A poisoned line lies in the payload of an item. -/
def payBad (b : Block) (l : Nat) : Bool := match payEntry l with
  | some e => (entryOf b e).holds
  | none => false

/-- INST_CONC_STAT.RECOVERING (R344): an action of an event of R336 is not finished. -/
def recovering (b : Block) : Bool :=
  !b.con.held.isEmpty || !b.con.refetch.isEmpty || (liveRings b).any (fun r => ringState b r == rsRECOVER) ||
  b.poison.any (fun l => repairable b l || payBad b l)

end Sys2Proof.Machine
end

