-- ==== Sys2Proof/Machine/Concord.lean ====
section
/-! DEFINITION. The Concord unit and the ring front end: fetch, commit, take, completion, retirement, host retries, payload
refetch (R315, R322..R331, R342), and the effect journal (R332..R335). -/

namespace Sys2Proof.Machine
open Sys2Proof

/-! ### Modes (R406) -/

/-- Modes in which rings fetch, and in which accepted items go on. -/
def Mode.fetches : Mode → Bool
  | .service | .recover => true
  | _ => false
def Mode.retires : Mode → Bool
  | .service | .recover | .quiesce => true
  | _ => false

/-! ### Fetch (R322) -/

/-- RETCSN as WIN counts it: behind the ring's RETCSN while a partner's acknowledgements of RETIRE are awaited (R346). -/
def winBase (b : Block) (r : RingNo) : Word :=
  (ringRec b r).ret - BitVec.ofNat 48 (b.con.mirWaits.filter (fun w => match w.act with
    | .retire q _ => q == r
    | _ => false)).length

/-- Count of the next descriptor to fetch. -/
def fetchPos (b : Block) (r : RingNo) : Word :=
  (ringRec b r).next + BitVec.ofNat 48 (((b.ring r).fetches.map (fun f => f.n)).foldl (· + ·) 0)

/-- How many descriptors the next fetch takes: at most 4, in consecutive slots, before the tail, within the window. -/
def fetchCount (b : Block) (r : RingNo) : Nat :=
  let v := ringRec b r
  let c := fetchPos b r
  let ahead := ((b.ring r).tail - c.extractLsb' 0 32).toNat
  let ahead := if ahead < 2 ^ 31 then ahead else 0
  min (min 4 ahead) (min (v.window - (c - winBase b r).toNat) (v.slots - c.toNat % v.slots))

/-- Every read of a fetch is issued, or none (R514). -/
def issueFetch (r : RingNo) (first : Word) (n : Nat) (b : Block) : Block × Bool :=
  let v := ringRec b r
  let res := (List.range n).foldl (fun (x : Block × Bool) i =>
    if x.2 then
      let c := first + BitVec.ofNat 48 i
      hostIssue v.port false (hostReq x.1 (.desc r first c)
        (BitVec.ofNat 52 (v.dbase.toNat + 64 * (c.toNat % v.slots))) 0 []) x.1
    else x) (b, true)
  if res.2 then res else ({ b with dbg := res.1.dbg }, false)

/-- DESCRIPTOR_FETCH: in a partial QUIESCE the rings that do not drain go on fetching (R416). -/
def opDescriptorFetch (r : RingNo) (b : Block) : Block :=
  let b := healRing r b
  let q := b.ring r
  let n := fetchCount b r
  if (b.mode.fetches || (b.mode == .quiesce && b.sup.secMask != 0)) && ringState b r == rsACTIVE && !q.quiet && !q.hosterr.on && n != 0 then
    let c := fetchPos b r
    let x := issueFetch r c n b
    if x.2 then x.1.modRing r (fun q => { q with fetches := q.fetches ++ [{ first := c, n := n, left := n }] }) else x.1
  else b

/-! ### Failed accesses (R331) -/

/-- An access has failed after `tries` repeats: it is repeated in 1,000 ticks, or the ring goes to HOSTERR. -/
def accessFailed (r : RingNo) (acc : RingAccess) (tries : Nat) (data : List Byte) (b : Block) : Block :=
  if tries < 3 then
    b.modRing r (fun q => { q with
      retries := q.retries ++ [{ acc := acc, tries := tries + 1, data := data, due := some (b.now + 1000) }] })
  else
    conDetect 5 (r.setWidth 24) (b.modRing r (fun q => { q with
      hosterr := q.hosterr.set b.now, retries := q.retries ++ [{ acc := acc, tries := 0, data := data, due := none }] }))

/-- A ring write is issued. -/
def ringWrite (r : RingNo) (acc : RingAccess) (tries : Nat) (data : List Byte) (b : Block) : Block × Bool :=
  let v := ringRec b r
  match acc with
  | .head => hostIssue v.port true (hostReq b (.head r tries) (v.awb.setWidth 52) 0 data) b
  | .compl c => hostIssue v.port true (hostReq b (.compl r c tries)
      (BitVec.ofNat 52 (v.cbase.toNat + c.toNat % v.slots * 32)) 0 data) b
  | .fetch .. => (b, false)

/-- HOST_RETRY: the first repeat that is due. -/
def opHostRetry (r : RingNo) (b : Block) : Block :=
  let b := healRing r b
  match (b.ring r).retries.find? (fun t => match t.due with
      | some d => decide (d ≤ b.now)
      | none => false) with
  | none => b
  | some t =>
    let x := (match t.acc with
      | .fetch first n => issueFetch r first n b
      | a => ringWrite r a t.tries t.data b)
    if x.2 then
      x.1.modRing r (fun q => { q with
        retries := q.retries.erase t
        fetches := (match t.acc with
          | .fetch first _ => q.fetches.map (fun f =>
              if f.first = first then { f with left := f.n, bad := false, tries := t.tries, data := [] } else f)
          | _ => q.fetches) })
    else x.1

/-- The answer of a descriptor read. -/
def descAnswer (r : RingNo) (first c : Word) (ok : Bool) (d : Beat) (b : Block) : Block :=
  let b := b.modRing r (fun q => { q with fetches := q.fetches.map (fun f =>
    if f.first = first then { f with
      left := f.left - 1, bad := f.bad || !ok, data := if ok then Map.set 0 f.data c.toNat d else f.data } else f) })
  match (b.ring r).fetches.find? (fun f => f.first == first) with
  | some f => if f.left = 0 ∧ f.bad then accessFailed r (.fetch first f.n) f.tries [] b else b
  | none => b

/-! ### Commit (R323..R325, R346) -/

/-- What acceptance makes visible: the accept head, the counters, and the work queue. -/
def accepted (e : EntryNo) (b : Block) : Block :=
  let v := entryOf b e
  let b := b.modRing v.ring (fun q => { q with acc := v.csn + 1, headDirty := true })
  if v.st = stREJECTED then b.modCon (fun c => { c with rejects := c.rejects.count b.now 1 })
  else if v.st = stACCEPTED then enqueue e (b.modCon (fun c => { c with accepts := c.accepts.count b.now 1 }))
  else b.modCon (fun c => { c with accepts := c.accepts.count b.now 1 })

/-- A duplicate: WSN at or below LAST in half-range order (R323). -/
def isDuplicate (last wsn : Reg32) : Bool := decide ((last - wsn).toNat < 2 ^ 31)

/-- The entry that consumes a descriptor (R320, R324). -/
def newEntry (r : RingNo) (v : RingRec) (d : List Byte) : Entry :=
  let wsn := fieldAt 32 d 0 4
  { csn := v.next, ring := r, wsn := wsn
    chan := v.chbase + ((nth 0 d 4).setWidth 16 &&& BitVec.ofNat 16 (v.chans - 1))
    st := if isDuplicate v.last wsn then stREJECTED else stACCEPTED
    replay := false, tries := 0, actsets := 0, nset := 0, notify := (nth 0 d 5).getLsbD 0, jhead := jNone, jcount := 0
    epoch := v.epoch, status := if isDuplicate v.last wsn then 0xFFFF else 0, rval := 0 }

/-- DESCRIPTOR_COMMIT: the next descriptor that has arrived is consumed. -/
def opDescriptorCommit (r : RingNo) (b : Block) : Block :=
  match (b.ring r).fetches with
  | [] => b
  | f :: rest =>
    if f.left = 0 && !f.bad && b.mode.retires && ringState b r == rsACTIVE && !(b.ring r).hosterr.on then
      let b := healRing r b
      let v := ringRec b r
      let d := bytesOf 64 (Map.get 0 f.data f.first.toNat)
      let x := newEntry r v d
      let e := v.entry v.next
      let b := if x.st = stACCEPTED then spineWrite (payAddr e) d b else b
      let b := writeEntry e x b
      let b := writeRow0 r { v with next := v.next + 1, last := if x.st = stACCEPTED then x.wsn else v.last } b
      let b := b.modRing r (fun q => { q with
        fetches := if f.n ≤ 1 then rest
          else { f with first := f.first + 1, n := f.n - 1, data := Map.erase f.data f.first.toNat } :: rest })
      if v.mirror then mirrorSend r 0x01 x.enc true (.commit e) b else accepted e b
    else b

/-! ### The accept head (R315) -/

/-- ACCEPT_HEAD_WRITE. -/
def opAcceptHeadWrite (r : RingNo) (b : Block) : Block :=
  let b := healRing r b
  let q := b.ring r
  if q.headDirty && !q.headOut && b.mode.retires && !q.hosterr.on then
    let data := bytesOf 4 q.acc ++ bytesOf 2 (ringRec b r).epoch ++ [0, 0]
    let x := ringWrite r .head 0 data b
    if x.2 then x.1.modRing r (fun q => { q with headDirty := false, headOut := true }) else x.1
  else b

/-! ### Retirement (R329) -/

/-- A journal record is freed. -/
def freeJrn (j : EntryNo) (b : Block) : Block :=
  (mwrite (offJrn j) (List.replicate 16 0) b).modCon (fun c => { c with jfree := c.jfree + 1 })

/-- The item at RETCSN retires. -/
def retireOne (r : RingNo) (b : Block) : Block :=
  let b := healRing r b
  let v := ringRec b r
  let e := v.entry v.ret
  let b := healItem e b
  let x := entryOf b e
  let b := (itemChain b e).foldl (fun b j => freeJrn j b) b
  let x' := { x with st := stFREE, jhead := jNone, jcount := 0 }
  let b := writeRow0 r { v with ret := v.ret + 1 } (writeEntry e x' b)
  let b := b.modRing r (fun q => { q with
    okd := q.okd.filter (fun c => c != v.ret), doneAck := q.doneAck.filter (fun y => y != e)
    limit := q.limit.setIf b.now (x.st == stDONE && x.status == 0xFFFE) })
  let b := b.modCon (fun c => { c with
    retires := c.retires.count b.now 1, refetch := c.refetch.filter (fun y => y != e)
    missing := c.missing.filter (fun y => y != e) })
  let b := if x.st = stDONE then raise (.chan 7 x.chan) b else b
  let b := if x.notify then raiseIrq v.line b else b
  let b := if v.mirror then mirrorSend r 0x05 x'.enc true (.retire r e) b else b
  drained r b

/-- Items whose records are answered retire in CSN order; HOSTERR stops them (R331). -/
def retireAll (r : RingNo) : Nat → Block → Block
  | 0, b => b
  | n + 1, b =>
    let q := b.ring r
    let v := ringRec b r
    if !q.hosterr.on && v.next != v.ret && q.okd.contains v.ret then retireAll r n (retireOne r b) else b

/-- The completion record of an item (R314). -/
def completion (v : RingRec) (x : Entry) : List Byte :=
  let phase : BitVec 16 := if (x.csn.toNat / v.slots + 1) % 2 = 1 then 1 else 0
  bytesOf 4 x.wsn ++ bytesOf 2 x.status ++
  bytesOf 2 (phase ||| (if x.replay then (2 : BitVec 16) else 0) ||| (x.tries.setWidth 16 <<< 2)) ++ bytesOf 6 x.csn ++
  bytesOf 2 x.epoch ++ bytesOf 4 x.rval ++ bytesOf 2 (if x.st = stREJECTED then 0 else x.chan) ++ List.replicate 10 0

/-- COMPLETION_RECORD_WRITE: the next record, of an item that is DONE or REJECTED with ACTSETS 0; a mirrored ring waits
for the acknowledgement of DONE, and stops while its partner is lost (R329, R378, R379). -/
def opCompletionRecordWrite (r : RingNo) (b : Block) : Block :=
  let b := healRing r b
  let q := b.ring r
  let v := ringRec b r
  let c := v.ret + BitVec.ofNat 48 (q.sent.length + q.okd.length)
  let e := v.entry c
  let b' := healEntry e b
  let x := entryOf b' e
  if b.mode.retires && v.st != rsNONE && !v.copy && !q.hosterr.on && decide (q.sent.length + q.okd.length < v.open_) &&
      decide (q.sent.length + q.okd.length ≤ 64) && (x.st == stDONE || x.st == stREJECTED) && x.actsets == 0 &&
      (!v.mirror || (!(b.fed.pair v.peer).lost && (x.st == stREJECTED || q.doneAck.contains e))) then
    let y := ringWrite r (.compl c) 0 (completion v x) b'
    if y.2 then y.1.modRing r (fun q => { q with sent := q.sent ++ [c] }) else y.1
  else b

/-- The answer of a completion record, and of an accept-head write. -/
def complAnswer (r : RingNo) (c : Word) (tries : Nat) (data : List Byte) (ok : Bool) (b : Block) : Block :=
  if ok then
    retireAll r 4096 (b.modRing r (fun q => { q with sent := q.sent.filter (fun x => x != c), okd := q.okd ++ [c] }))
  else accessFailed r (.compl c) tries data b
def headAnswer (r : RingNo) (tries : Nat) (data : List Byte) (ok : Bool) (b : Block) : Block :=
  if ok then b.modRing r (fun q => { q with headOut := false }) else accessFailed r .head tries data b

/-! ### Payload refetch (R342) -/

/-- PAYLOAD_REFETCH: the payload of an item has an uncorrectable error, with its record, or was never held here; its
descriptor is fetched again. -/
def opPayloadRefetch (e : EntryNo) (b : Block) : Block :=
  let b := healEntry e b
  let x := entryOf b e
  let v := ringRec b x.ring
  let bad := poisoned b (payAddr e) 64
  if (bad || b.con.missing.contains e) && !b.con.refetch.contains e &&
      x.holds then
    let y := hostIssue v.port false (hostReq b (.refetch e x.csn)
      (BitVec.ofNat 52 (v.dbase.toNat + 64 * (x.csn.toNat % v.slots))) 0 []) b
    if y.2 then
      let b := y.1.modCon (fun c => { c with refetch := c.refetch ++ [e] })
      if bad then conDetect 6 (e.setWidth 24) b else b
    else y.1
  else b

/-- The answer: the payload is rewritten; a host that has changed the descriptor loses the item. A failed answer leaves
the error for another refetch. An answer for an item that has retired meanwhile is discarded. -/
def refetchAnswer (e : EntryNo) (csn : Word) (ok : Bool) (d : Beat) (b : Block) : Block :=
  let b := healEntry e b
  if (entryOf b e).csn ≠ csn ∨ !(entryOf b e).holds then b
  else
  let b := b.modCon (fun c => { c with refetch := c.refetch.filter (fun x => x != e) })
  if ok then
    let l := bytesOf 64 d
    let b := (spineWrite (payAddr e) l b).modCon (fun c => { c with missing := c.missing.filter (fun x => x != e) })
    let x := entryOf b e
    if fieldAt 32 l 0 4 ≠ x.wsn ∧ (x.st = stTAKEN ∨ x.st = stACCEPTED) then
      itemDone e 0xFFFD 0 (b.setQueue x.chan ((b.queue x.chan).filter (fun y => y != e)))
    else b
  else b

/-! ### Taking and completing (R326, R327, R350) -/

/-- The unit reads the entries of a channel's queue, each with its ring. -/
def healQueue (ch : Chan) (b : Block) : Block :=
  (b.queue ch).foldl (fun b e => healRing (entryOf b e).ring (healEntry e b)) b

/-- INST_CONC_TAKE by a context: the first item of its channel's queue whose ring is not HELD; the value read. -/
def takeItem (n : CtxNo) (b : Block) : Block × Reg32 :=
  match (b.ctx n).chan with
  | none => (b, 0)
  | some ch =>
    let b := healQueue ch b
    match (b.queue ch).find? (fun e => ringState b (entryOf b e).ring != rsHELD) with
    | none => (b, 0)
    | some e =>
      let b := b.setQueue ch ((b.queue ch).filter (fun y => y != e))
      let x := entryOf b e
      let b := writeEntry e { x with st := stTAKEN } b
      (b.modOrg (16 + n.toNat) (fun r => { r with icsn := x.csn, iring := x.ring }),
       0x80000000 ||| (if x.replay then 0x2000 else 0) ||| e.setWidth 32)

/-- INST_CONC_DONE by a context. -/
def concDone (n : CtxNo) (d : Reg32) (b : Block) : Block :=
  let o := 16 + n.toNat
  let e : EntryNo := d.extractLsb' 0 13
  let status := d.extractLsb' 16 16
  let b := healEntry e b
  let x := entryOf b e
  if x.st = stTAKEN ∧ some x.chan = (b.ctx n).chan ∧ status.toNat ≤ 0xFEFF then
    (itemDone e status (b.orgRegs o).rval b).modOrg o (fun r => { r with dstat := 1 })
  else conDetect 1 (e.setWidth 24) (b.modOrg o (fun r => { r with dstat := 2 }))

/-! ### Doorbells (R316, R331, R405) -/

/-- RING_DB. -/
def ringDb (r : RingNo) (t : Reg32) (b : Block) : Block :=
  let b := healRing r b
  let v := ringRec b r
  let q := b.ring r
  let st := ringState b r
  if st = rsNONE ∨ st = rsDRAIN ∨ 2 ^ 31 ≤ (t - q.tail).toNat ∨ v.slots < (t - v.ret.extractLsb' 0 32).toNat then
    b.modRing r (fun q => { q with dberr := q.dberr.set b.now })
  else b.modRing r (fun q => { q with tail := t })

/-- A clearing of HOSTERR: the failed accesses are repeated, with a fresh count (R331). A HOSTERR of the same tick
stays (R345), and its access with it. -/
def hosterrClear (r : RingNo) (b : Block) : Block :=
  if (b.ring r).hosterr.on && !((b.ring r).hosterr.clear b.now).on then
    retireAll r 4096 (b.modRing r (fun q => { q with
      hosterr := q.hosterr.clear b.now
      retries := q.retries.map (fun t => if t.due.isNone then { t with due := some b.now } else t) }))
  else b

/-- RING_STAT (R316). -/
def ringStat (b : Block) (r : RingNo) : Reg32 :=
  let v := ringRec b r
  let q := b.ring r
  fld 0 (ringState b r) ||| bit 3 (q.dberr.pre b.now) ||| bit 4 (q.hosterr.pre b.now) ||| bit 5 v.mirror |||
  bit 6 (decide (v.st ≠ rsNONE) && decide ((v.next - winBase b r).toNat = v.window)) ||| bit 7 (q.limit.pre b.now) ||| fld 16 v.epoch

/-! ### The journal (R332..R335, R346) -/

/-- The record of an item with SETNO and BEAT. -/
def findJrn (b : Block) (e : EntryNo) (setno : Byte) (beat : Nat) : Option EntryNo :=
  (itemChain b e).find? (fun j => let v := jrnOf b j; v.setno == setno && v.beat.toNat == beat)

/-- The free record of least index. -/
def freeRecord (b : Block) : Option EntryNo :=
  ((List.range 8192).map (BitVec.ofNat 13)).find? (fun j => (jrnOf b j).st == 0)

/-- An append: the record is written and linked at the head of the item's chain (R334). -/
def appendJrn (e : EntryNo) (j : EntryNo) (beat : Nat) (ch setno : Byte) (haddr : BitVec 52) (b : Block) : Block :=
  let b := healItem e b
  let x := entryOf b e
  let v : Jrn := { entry := e, st := 1, nxt := x.jhead, beat := BitVec.ofNat 20 beat, chan := ch,
                   haddr := haddr.extractLsb' 6 46, setno := setno }
  let b := writeEntry e { x with jhead := j, jcount := x.jcount + 1 } (writeJrn j v b)
  b.modCon (fun c => { c with jfree := c.jfree - 1, jWaiting := false })

/-- A record becomes CONFIRMED, and is forwarded (R334, R378). -/
def confirmJrn (e : EntryNo) (setno : Byte) (beat : Nat) (b : Block) : Block :=
  let b := healItem e b
  match findJrn b e setno beat with
  | none => b
  | some j =>
    let v := { jrnOf b j with st := 2 }
    let b := writeJrn j v b
    let r := (entryOf b e).ring
    if (ringRec b r).mirror then mirrorSend r 0x03 v.enc false .none b else b

/-- A ledgered set begins: its SETNO, with NSET and ACTSETS raised (R333). -/
def beginSet (e : EntryNo) (b : Block) : Block :=
  modEntry e (fun v => { v with nset := v.nset + 1, actsets := v.actsets + 1 }) b
/-- A ledgered set ends (R333). -/
def endSet (e : EntryNo) (b : Block) : Block := modEntry e (fun v => { v with actsets := v.actsets - 1 }) b

/-- The item that a JREF names, where it is accepted and not retired (R289, R321). -/
def itemOf (b : Block) (r : RingNo) (csn : Word) : Option EntryNo :=
  let v := ringRec b r
  let e := v.entry csn
  let x := entryOf b e
  if v.st ≠ rsNONE ∧ x.ring = r ∧ x.csn = csn ∧ (csn - v.ret).toNat < v.open_ ∧
      (x.st = stACCEPTED ∨ x.st = stTAKEN ∨ x.st = stDONE ∨ x.st = stHELD) then some e else none

end Sys2Proof.Machine
end

