-- ==== Sys2Proof/Machine/Federation.lean ====
section
/-! DEFINITION. Federation: receiving flits, messages between channels, joining and leaving, the master election, the
timing channel and its alarm, ring mirroring and takeover (12_conjunction.md). -/

namespace Sys2Proof.Machine
open Sys2Proof

/-! ### Receiving (R353, R354, R357) -/

/-- The flit is a good one of this type, and reaches a port that carries flits. -/
def flitAt (b : Block) (p : BitVec 2) (ty : Byte) (f : Flit) : Bool :=
  flitGood f && fType f == ty && (b.fed.port p).carries && decide (b.mode ≠ .off)

/-- One for this instance: not from an instance whose rings have been taken over, which are discarded (R380). -/
def flitFor (b : Block) (p : BitVec 2) (ty : Byte) (f : Flit) : Bool := flitAt b p ty f && !(b.fed.pair (fSrc f)).taken

/-- FLIT_FORWARD: a flit for another instance leaves on its route (R354). -/
def forward (f : Flit) (b : Block) : Block :=
  let r := b.fed.route (fDst f)
  if fHops f = 0 ∨ ¬ rtValid r ∨ ¬ (b.fed.port (rtPort r)).carries then b
  else b.modFed (putWire (rtPort r) (withHops f (fHops f - 1)))

/-- The rings that this instance mirrors to `i`, and the copy rings that it holds for `i`. -/
def mirroredTo (b : Block) (i : BitVec 9) : List RingNo :=
  (liveRings b).filter (fun r => let v := ringRec b r; v.mirror && !v.copy && v.peer == i && v.st != rsNONE)
def copiesOf (b : Block) (i : BitVec 9) : List RingNo :=
  (liveRings b).filter (fun r => let v := ringRec b r; v.copy && v.peer == i)

/-- A ring leaves the HELD state that the loss of its partner gave it (R379); it stays HELD for a bad structure, and where its
channels are out of service (R340). -/
def partnerBack (r : RingNo) (b : Block) : Block :=
  match (b.ring r).lostFrom with
  | some st =>
    let v := ringRec b r
    let held := (b.ring r).bad || b.sup.stopped || anyChan v.chbase v.chans (outOfService b)
    drained r (setRingState r (if held then rsHELD else st) (b.modRing r (fun q => { q with lostFrom := none })))
  | none => b

/-- A flit from `s` has been accepted: a lost partner is heard again (R379). -/
def heardFrom (s : BitVec 9) (b : Block) : Block :=
  let was := (b.fed.pair s).lost
  let b := b.modFed (fun d => d.modPair s (fun q => { q with heard := b.now, lost := false }))
  if was then (mirroredTo b s).foldl (fun b r => partnerBack r b) b else b

/-- What a MIRROR update's acknowledgement lets happen (R378). -/
def mirrorDone (a : MirAct) (b : Block) : Block :=
  match a with
  | .commit e => accepted e b
  | .done e => b.modRing (entryOf b e).ring (fun q => { q with doneAck := q.doneAck ++ [e] })
  | .append _ | .retire .. | .none => b

/-- The updates to `s` whose last flit is below `n` are acknowledged. -/
def mirrorAcked (s : BitVec 9) (n : Nat) (b : Block) : Block :=
  let hit (w : MirWait) : Bool := w.peer == s && decide (w.last < n)
  let done := b.con.mirWaits.filter hit
  let b := b.modCon (fun c => { c with mirWaits := c.mirWaits.filter (fun w => !(hit w)) })
  done.foldl (fun b w => mirrorDone w.act b) b

/-- An ACK field of `s` (R356, R357): flits that it covers leave the buffer. -/
def ackArrive (s : BitVec 9) (a : BitVec 16) (b : Block) : Block :=
  let q := b.fed.pair s
  let n := seqNum q a
  if q.acked < n ∧ n ≤ q.acked + q.buf.length then
    let b := b.modFed (fun d => d.modPair s (fun q => { q with
      buf := q.buf.filter (fun t => decide (n ≤ t.num)), acked := n, sentAt := b.now, resends := 0
      busy := match q.busy with
        | some (m, t) => if m < n then none else some (m, t)
        | none => none }))
    drainAll (drainWaits s 512 (mirrorAcked s n b))
  else b

/-- A flit to `s` that is not sequenced. -/
def answer (ty : Byte) (s : BitVec 9) (pay : List Byte) (b : Block) : Block := b.modFed (sendFree ty s pay)

/-- NAK, at most once per RTO (R357). -/
def nakSend (s : BitVec 9) (b : Block) : Block :=
  let q := b.fed.pair s
  if (match q.nakAt with
      | some t => decide (b.now < t + b.fed.rto)
      | none => false) then b
  else answer 0x04 s (bytesOf 2 q.rxNext) (b.modFed (fun d => d.modPair s (fun q => { q with nakAt := some b.now })))

/-- A sequenced flit is accepted when its SEQ is the next (R357) and `act` takes it. -/
def takeSeq (s : BitVec 9) (f : Flit) (act : Block → Option Block) (b : Block) : Block :=
  if fSeq f = (b.fed.pair s).rxNext then
    match act (heardFrom s b) with
    | some b' => b'.modFed (fun d => d.modPair s (fun q => { q with
        rxNext := q.rxNext + 1, ackDue := some (q.ackDue.getD b.now) }))
    | none => b
  else nakSend s b

/-- A routed flit: forwarded, or taken with the ACK that it carries. Flits of an instance whose rings have been taken
over are discarded (R380). -/
def routed (p : BitVec 2) (ty : Byte) (f : Flit) (act : BitVec 9 → Block → Block) (b : Block) : Block :=
  if !(flitAt b p ty f) then b
  else if fDst f ≠ b.fed.instId then forward f b
  else
    let s := fSrc f
    if !b.fed.joined || (b.fed.pair s).taken then b else act s (ackArrive s (fAck f) b)

/-! ### Messages (R359..R362) -/

/-- Engine address of receive slot k (R361). -/
def slotAddr (k : Nat) : Nat := dpr (0x1E0000 + 64 * k)

/-- A message is delivered at tick `t`: STAMP, the queue, CJARR (R362). -/
def deliver (slot : BitVec 11) (ch : Chan) (late : Bool) (t : Tick) (b : Block) : Block :=
  let a := slotAddr slot.toNat
  let fl := readByte b (a + 4)
  let b := spineWrite (a + 4) ([if late then fl ||| 2 else fl, 0] ++ bytesOf 6 t) b
  let b := b.modFed (fun d => { d with
    rxq := Map.mod [] d.rxq ch.toNat (fun l => l ++ [slot])
    timed := d.timed.filter (fun m => m.slot != slot), lateAt := d.lateAt.setIf b.now late })
  { raise (.chan 3 ch) { b with tick := t } with tick := b.tick }

/-- The lowest free receive slot. -/
def freeRxSlot (d : Fed) : Option (BitVec 11) :=
  ((List.range 2048).find? (fun k => !(Map.get false d.slots k))).map (BitVec.ofNat 11)

/-- DATA: into a receive slot, and delivered, or kept for its DUE tick or for the end of an alarm; BUSY without a slot. -/
def opData (p : BitVec 2) (f : Flit) (b : Block) : Block :=
  routed p 0x01 f (fun s b =>
    if fSeq f = (b.fed.pair s).rxNext ∧ freeRxSlot b.fed = none then answer 0x05 s (bytesOf 2 (fSeq f)) b
    else takeSeq s f (fun b => match freeRxSlot b.fed with
      | none => none
      | some k =>
        let ch : Chan := fPay 16 f 0 2
        let due : Tick := fPay 48 f 4 6
        let row := bytesOf 2 (s.setWidth 16) ++ bytesOf 2 (fPay 16 f 2 2) ++ [if fTimed f then 1 else 0, 0] ++
          List.replicate 6 0 ++ ((fPayBytes f).drop 10).take 38 ++ List.replicate 14 0
        let b := (spineWrite (slotAddr k.toNat) row b).modFed (fun d => { d with slots := Map.set false d.slots k.toNat true })
        if !fTimed f then some (deliver k ch false b.tick b)
        else if b.fed.alarm || !(reached b.tick due) then
          some (b.modFed (fun d => { d with timed := d.timed ++ [{ slot := k, due := due, chan := ch, held := d.alarm }] }))
        else some (deliver k ch (!(onTime b due)) b.tick b)) b) b

/-- TIMED_DELIVERY: DUE is reached; in an alarm the message is held instead, and goes from the tick after its end on (R362, R371,
R382). -/
def opTimedDelivery (slot : BitVec 11) (b : Block) : Block :=
  match b.fed.timed.find? (fun m => m.slot == slot) with
  | none => b
  | some m =>
    if b.fed.alarm then
      if reached b.tick m.due then
        b.modFed (fun d => { d with timed := d.timed.map (fun x => if x.slot = slot then { x with held := true } else x) })
      else b
    else if (m.held && b.fed.calmAt != some b.now) || (!m.held && reached b.tick m.due) then deliver slot m.chan m.held b.tick b
    else b

/-- A FED_TX_GO of an origin (R360). -/
def fedTxGo (o : Nat) (schan : BitVec 16) (timed : Bool) (b : Block) : Block :=
  let r := b.orgRegs o
  let i := r.txDst.extractLsb' 16 9
  let rt := b.fed.route i
  let put (v : BitVec 3) := b.modOrg o (fun r => { r with txStat := v })
  if !b.fed.joined || !(rtValid rt) || rtLost rt then put 2
  else if timed && b.fed.alarm then put 3
  else
    let data := ((List.range 10).map (fun j => bytesOf 4 (Map.get 0 r.txD j))).flatten.take 38
    sendSeq 0x01 (if timed then 1 else 0) i
      (bytesOf 2 (r.txDst.extractLsb' 0 16) ++ bytesOf 2 schan ++ bytesOf 6 (if timed then r.txDue else 0) ++ data)
      (some o) (put 0)

/-- A waiting send is withdrawn, and those behind it take the numbers before theirs. -/
def withdrawSend (i : BitVec 9) (t : TxWait) (b : Block) : Block :=
  let b := b.modFed (fun d => d.modPair i (fun q => { q with
    next := q.next - 1
    wait := (q.wait.filter (fun x => x.num != t.num)).map (fun x =>
      if t.num < x.num then { x with
        num := x.num - 1
        flit := mkFlit (fType x.flit) (fByte x.flit 1) (fSrc x.flit) (fDst x.flit) (BitVec.ofNat 16 (x.num - 1)) 0
          (fPayBytes x.flit) }
      else x) }))
  b.modCon (fun c => { c with mirWaits := c.mirWaits.map (fun w =>
    if w.peer = i ∧ t.num < w.last then { w with last := w.last - 1 } else w) })

/-- TX_FULL: a send of the origin has waited for more than 4,096 ticks; it is refused (R360). -/
def opTxFull (o : Nat) (b : Block) : Block :=
  match b.fed.pairs.findSome? (fun x => (x.2.wait.find? (fun t => t.org == some o && decide (t.at_ + 4096 < b.now))).map
      (fun t => (x.1, t))) with
  | some (i, t) => (withdrawSend (BitVec.ofNat 9 i) t b).modOrg o (fun r => { r with txStat := 4 })
  | none => b

/-- FED_RXTAKE by a context: the head slot of its channel's queue, and the value read (R362). -/
def fedRxTake (n : CtxNo) (b : Block) : Block × Reg32 :=
  match (b.ctx n).chan with
  | none => (b, 0)
  | some ch => match Map.get [] b.fed.rxq ch.toNat with
    | [] => (b, 0)
    | k :: l => (b.modFed (fun d => { d with rxq := Map.set [] d.rxq ch.toNat l }), 0x80000000 ||| k.setWidth 32)

/-- FED_RXFREE. -/
def fedRxFree (k : BitVec 11) (b : Block) : Block := b.modFed (fun d => { d with slots := Map.set false d.slots k.toNat false })

/-! ### Acknowledgement and retransmission (R357, R358) -/

def opAck (p : BitVec 2) (f : Flit) (b : Block) : Block := routed p 0x03 f heardFrom b

/-- The number that a NAK or BUSY names, where it is that of a flit not acknowledged. -/
def namedNum (q : Pair) (f : Flit) : Option Nat :=
  let n := seqNum q (fPay 16 f 0 2)
  if n < q.acked + q.buf.length then some n else none

def opNak (p : BitVec 2) (f : Flit) (b : Block) : Block :=
  routed p 0x04 f (fun s b => match namedNum (b.fed.pair s) f with
    | some n => retry s n (heardFrom s b)
    | none => heardFrom s b) b

def opBusy (p : BitVec 2) (f : Flit) (b : Block) : Block :=
  routed p 0x05 f (fun s b => match namedNum (b.fed.pair s) f with
    | some n => (heardFrom s b).modFed (fun d => d.modPair s (fun q => { q with busy := some (n, b.now + d.rto) }))
    | none => heardFrom s b) b

/-- RETRANSMIT_TIMEOUT: RTO after the oldest flit went, or after a BUSY, which does not count as a failure. -/
def opRetransmitTimeout (s : BitVec 9) (b : Block) : Block :=
  let q := b.fed.pair s
  if q.buf = [] then b
  else match q.busy with
    | some (n, t) => if t ≤ b.now then b.modFed (resendFrom s n b.now) else b
    | none => if q.sentAt + b.fed.rto ≤ b.now then retry s q.acked b else b

def opAckSend (s : BitVec 9) (b : Block) : Block :=
  if (b.fed.pair s).ackDue.isSome then answer 0x03 s [] b else b

/-! ### Holdover (R370) -/

/-- The instance has no UP parent port. The master takes its own time. -/
def holdover (d : Fed) : Bool :=
  d.joined && !d.master && (match d.parent with
    | some p => decide ((d.port p).st ≠ .up)
    | none => true)

/-- The start of a holdover is kept, and forgotten at its end. -/
def fixHold (b : Block) : Block :=
  b.modFed (fun d => { d with holdSince := if holdover d then some (d.holdSince.getD b.now) else none })

/-! ### The election (R366) -/

/-- (PRIO, ID) in election order. -/
def masterKey (prio : Byte) (id : BitVec 9) : Nat := prio.toNat * 512 + id.toNat

/-- The least of a list of numbers. -/
def leastNat : List Nat → Nat → Nat
  | [], d => d
  | x :: l, d => leastNat l (min x d)

/-- The master is the least (PRIO, ID) known; the parent port is the UP port that offers it at the fewest hops. -/
def elect (b : Block) : Block :=
  let d := b.fed
  let own := masterKey d.prio d.instId
  let best := leastNat (allPorts.filterMap (fun p => (d.port p).ann.map (fun a => masterKey a.prio a.id))) own
  if best = own then
    fixHold (b.modFed (fun d => { d with
      master := true, parent := none, pflags := 0, masterId := d.instId, masterPrio := d.prio, hops := 0, masterAt := b.now }))
  else
    let offers := allPorts.filterMap (fun p => match (d.port p).ann with
      | some a => if (d.port p).st = .up ∧ masterKey a.prio a.id = best then some (a.hops, p) else none
      | none => none)
    let least := leastNat (offers.map (fun x => x.1)) 16
    let par := (offers.find? (fun x => x.1 == least)).map (fun x => x.2)
    fixHold (b.modFed (fun d => { d with
      master := false, parent := par, pflags := if par = d.parent then d.pflags else 0, masterId := BitVec.ofNat 9 (best % 512), masterPrio := BitVec.ofNat 8 (best / 512)
      hops := if par.isSome then least + 1 else d.hops }))

/-- A route is (re)built: what is not acknowledged goes again, and waiting sends go (R358, R517). -/
def routeBuilt (i : BitVec 9) (b : Block) : Block :=
  let b := if (b.fed.pair i).buf = [] then b else b.modFed (fun d =>
    (resendFrom i (d.pair i).acked b.now d).modPair i (fun q => { q with resends := 0 }))
  drainWaits i 512 b

/-- A route that an ANNOUNCE offers through port `p` (R355). -/
def offerRoute (p : BitVec 2) (i : BitVec 9) (h : Nat) (b : Block) : Block :=
  let r := b.fed.route i
  if i = b.fed.instId ∨ 15 < h ∨ (b.fed.pair i).taken then b
  else if rtValid r && !(rtLost r) && decide (rtHops r < h) then b
  else
    let b' := b.modFed (fun d => d.setRoute i (mkRoute p h))
    if rtValid r && !(rtLost r) then b' else routeBuilt i b'

/-- ANNOUNCE: routes, and the master that the peer knows. -/
def opAnnounce (p : BitVec 2) (f : Flit) (b : Block) : Block :=
  let q := b.fed.port p
  if flitFor b p 0x06 f && (b.fed.joined || q.asked) then
    let a : Announced := { prio := fPay 8 f 0 1, id := fPay 9 f 2 2, hops := (fPay 8 f 4 1).toNat % 16, at_ := b.now }
    let b := b.modFed (fun d => (d.modPort p (fun q => { q with ann := some a, peer := fSrc f, known := true })))
    let part := (fPay 8 f 5 1).toNat % 8
    let b := times 64 (fun i b =>
      let nib := ((fPay 8 f (8 + i / 2) 1) >>> (4 * (i % 2))).toNat % 16
      if nib = 15 then b else offerRoute p (BitVec.ofNat 9 (64 * part + i)) (nib + 1) b) b
    let b := elect b
    if a.id = b.fed.masterId then b.modFed (fun d => { d with masterAt := b.now }) else b
  else b

/-- The hops nibble of an instance in an ANNOUNCE: 0 itself, 15 unknown. -/
def hopsTo (d : Fed) (i : BitVec 9) : BitVec 8 :=
  let r := d.route i
  if i = d.instId then 0 else if rtValid r && !(rtLost r) then BitVec.ofNat 8 (rtHops r) else 15

/-- The parts of a round: those with a known instance. -/
def roundParts (d : Fed) : List Nat :=
  (List.range 8).filter (fun p => (List.range 64).any (fun i => hopsTo d (BitVec.ofNat 9 (64 * p + i)) != 15))

def announcePay (d : Fed) (part : Nat) : List Byte :=
  [d.masterPrio, d.prio] ++ bytesOf 2 (d.masterId.setWidth 16) ++ [BitVec.ofNat 8 (if d.master then 0 else d.hops % 16),
    BitVec.ofNat 8 part] ++ bytesOf 2 d.round ++
  (List.range 32).map (fun j =>
    hopsTo d (BitVec.ofNat 9 (64 * part + 2 * j)) ||| (hopsTo d (BitVec.ofNat 9 (64 * part + 2 * j + 1)) <<< 4))

/-- The peer of a port, or the own ID where it is not known (R355). -/
def peerOr (d : Fed) (p : BitVec 2) : BitVec 9 :=
  let q := d.port p
  if q.known then q.peer else d.instId

/-- A link-local flit leaves on a port (R355). -/
def sendLocal (ty : Byte) (p : BitVec 2) (pay : List Byte) (d : Fed) : Fed :=
  let i := peerOr d p
  putWire p (mkFlit ty 0 d.instId i 0 (d.pair i).rxNext pay) d

/-- ANNOUNCE_ROUND, every 65,536 ticks on every UP port. -/
def opAnnounceRound (b : Block) : Block :=
  let d := b.fed
  if d.joined && decide (d.annAt + 65536 ≤ b.now) then
    let ps := roundParts d
    b.modFed (fun d =>
      let d := allPorts.foldl (fun d p =>
        if (d.port p).st = .up then ps.foldl (fun d k => sendLocal 0x06 p (announcePay d k) d) d else d) d
      { d with round := d.round + 1, annAt := b.now })
  else b

/-- MASTER_TIMEOUT: announcements not confirmed within 3 periods are dropped, and the election runs again. -/
def opMasterTimeout (b : Block) : Block :=
  let stale (a : Announced) : Bool := decide (a.at_ + 3 * 65536 < b.now)
  let drop := allPorts.filter (fun p => match (b.fed.port p).ann with
    | some a => stale a
    | none => false)
  if b.fed.joined && !drop.isEmpty then
    elect (b.modFed (fun d => drop.foldl (fun d p => d.modPort p (fun q => { q with ann := none })) d))
  else b

/-! ### Joining and leaving (R355, R363, R365) -/

def joinPay (d : Fed) (kind : Byte) (rid : BitVec 9) : List Byte :=
  [kind, d.prio] ++ bytesOf 2 (d.instId.setWidth 16) ++ bytesOf 4 blockVersion ++ bytesOf 4 fwVersion ++
  bytesOf 2 (rid.setWidth 16)

/-- State kept of an instance is discarded: its route and its pair (R365). -/
def forgetInst (i : BitVec 9) (b : Block) : Block :=
  (b.modFed (fun d => { d.setRoute i 0 with pairs := Map.set {} d.pairs i.toNat {} })).modCon
    (fun c => { c with mirWaits := c.mirWaits.filter (fun w => w.peer != i) })

/-- JOIN: a request is answered; an answer is noted for FEDERATE_JOIN. -/
def opJoin (p : BitVec 2) (f : Flit) (b : Block) : Block :=
  if !(flitFor b p 0x08 f) || (b.fed.pair (fPay 9 f 2 2)).taken then b
  else
    let id : BitVec 9 := fPay 9 f 2 2
    let kind : Byte := fPay 8 f 0 1
    if kind = 1 then
      let rt := b.fed.route id
      if (rtValid rt && !(rtLost rt)) || (b.fed.joined && b.fed.instId == id) then
        b.modFed (fun d => sendLocal 0x08 p (joinPay d 3 id) d)
      else
        let b := if b.fed.instId = id then b else forgetInst id b
        b.modFed (fun d => sendLocal 0x08 p (joinPay d 2 0) (d.modPort p (fun q => { q with peer := id, known := true })))
    else if kind = 2 then b.modFed (fun d => d.modPort p (fun q => { q with accepted := q.asked, peer := id, known := true }))
    else if kind = 3 then b.modFed (fun d => d.modPort p (fun q => { q with refused := q.asked, peer := id, known := true }))
    else b

/-- A port in TRAINING becomes UP; a join that asked for it sends its request (R351, R363). -/
def opLinkTrained (p : BitVec 2) (b : Block) : Block :=
  if (b.fed.port p).st = .training then
    let b := b.modFed (fun d => d.modPort p (fun q => { q with st := .up }))
    let b := if (b.fed.port p).asked && !(b.fed.port p).accepted then
        b.modFed (fun d => sendLocal 0x08 p (joinPay d 1 0) d) else b
    elect b |> fun b' => if b.fed.joined then b' else b
  else b

/-- LEAVE: the leaving instance's routes, pair state and undelivered messages go. -/
def opLeave (p : BitVec 2) (f : Flit) (b : Block) : Block :=
  if !(flitAt b p 0x09 f) then b
  else if fDst f ≠ b.fed.instId then forward f b
  else if (b.fed.pair (fSrc f)).taken || (b.fed.pair (fPay 9 f 0 2)).taken then b
  else
    let id : BitVec 9 := fPay 9 f 0 2
    let gone := b.fed.timed.filter (fun m => readBytes b (slotAddr m.slot.toNat) 2 == bytesOf 2 (id.setWidth 16))
    let b := (forgetInst id b).modFed (fun d => { d with
      timed := d.timed.filter (fun m => !(gone.contains m))
      slots := gone.foldl (fun s m => Map.set false s m.slot.toNat false) d.slots
      ports := allPorts.foldl (fun m p => Map.mod {} m p.toNat (fun q =>
        if q.peer = id then { q with ann := none, accepted := false, known := false } else
        match q.ann with
        | some a => if a.id = id then { q with ann := none } else q
        | none => q)) d.ports })
    if b.fed.joined then elect b else b

/-! ### Port state (R351, R517) -/

/-- CJ_LINK_UP: a rise moves a DOWN port to TRAINING. -/
def opCjLinkUp (p : BitVec 2) (b : Block) : Block :=
  if decide (b.mode ≠ .off) && (b.fed.port p).st == .down then
    b.modFed (fun d => d.modPort p (fun q => { q with st := .training })) else b

/-- CJ_LINK_DOWN: the port is DOWN and its routes are no longer VALID; its unacknowledged flits stay, for the rebuilt
routes. A retraining of the link ends with it. -/
def opCjLinkDown (p : BitVec 2) (b : Block) : Block :=
  if decide (b.mode ≠ .off) && (b.fed.port p).st != .down then
    let b := b.modFed (fun d => { d.modPort p (fun q => { q with st := .down, cal := { q.cal with busy := false } }) with
      routes := d.routes.map (fun x => if rtPort x.2 = p then (x.1, x.2 &&& 0xFB) else x) |>.filter (fun x => x.2 != 0) })
    if b.fed.joined then elect b else b
  else b

/-! ### The timing channel (R367, R368, R371) -/

/-- A stamp of R355, as a signed difference of two stamps modulo 2^52. -/
def stampDiff (x y : BitVec 52) : Int := (x - y).toInt

/-- Half of a whole number of 1/16 tick; the open rounding of an odd one is `up`. -/
def half (x : Int) (up : Bool) : Int := if up then (x + 1) / 2 else x / 2

/-- θ and D of an exchange, the n-th (R367). -/
def thetaOf (t1 t2 t3 t4 : BitVec 52) (a : BitVec 16) (n : Nat) : Int :=
  half (stampDiff t2 t1 - stampDiff t4 t3 - a.toInt) (Config.roundUp (2 * n))
def delayOf (t1 t2 t3 t4 : BitVec 52) (n : Nat) : Int :=
  half (stampDiff t2 t1 + stampDiff t4 t3) (Config.roundUp (2 * n + 1))

/-- A value in a 16-bit field of FED_TOFS; open where it does not fit. -/
def ofs16 (x : Int) : BitVec 16 := if -32768 ≤ x ∧ x ≤ 32767 then BitVec.ofInt 16 x else Config.wideOfs x
def delay16 (x : Int) : BitVec 16 := if 0 ≤ x ∧ x ≤ 65535 then BitVec.ofInt 16 x else Config.wideOfs x

/-- c: θ clamped to −16..+16. -/
def clamp16 (x : Int) : Int := max (-16) (min 16 x)

/-- Alarm entry (R371). -/
def enterAlarm (theta : Int) (b : Block) : Block :=
  let mag := min theta.natAbs 65535
  raiseN 0x1E2 (detect 0x56A 1 (BitVec.ofNat 24 mag)
    (b.modFed (fun d => { d with alarm := true, alarmed := d.alarmed.set b.now, good := 0 })))

/-- Alarm exit: the held messages are delivered from the next tick on, LATE. -/
def leaveAlarm (b : Block) : Block :=
  raiseN 0x1E3 (b.modFed (fun d => { d with alarm := false, good := 0, calmAt := some b.now }))

/-- The alarm rule after an exchange with offset θ. -/
def alarmRule (theta : Int) (b : Block) : Block :=
  if 64 < theta.natAbs then
    if b.fed.alarm then b.modFed (fun d => { d with good := 0 }) else enterAlarm theta b
  else if theta.natAbs ≤ 32 then
    let b := b.modFed (fun d => { d with good := d.good + 1 })
    if b.fed.alarm && decide (8 ≤ b.fed.good) then leaveAlarm b else b
  else b.modFed (fun d => { d with good := 0 })

/-- A sample of a calibrated item (R373): the first measurement is its value; after 1,024 samples its value is their
mean, and it leaves YOUNG. -/
def sampleCal (x : Nat) (c : Calib) : Calib :=
  let c := { c with last := x, samples := c.samples + 1, sum := c.sum + x, value := if c.samples = 0 then 1024 * x else c.value }
  if c.young ∧ c.samples = 1024 then { c with young := false, value := c.sum } else c

/-- FED_STAT.YOUNG: an item on the time path is YOUNG, of this instance or of its parent's path (R373). -/
def fedYoung (b : Block) : Bool := match b.fed.parent with
  | some p => b.fed.pflags.getLsbD 1 || (b.fed.port p).cal.young || (Map.get {} b.xing (68 + p.toNat)).young
  | none => false

/-- The framer's stamp of this tick (R355, R367). -/
def stampNow (b : Block) : BitVec 52 := b.tick ++ b.fed.phase

/-- A TSYNC is answered with a TRESP (R367): t2 and t3 are the framer's stamps of this tick, in which both flits pass (log entry
103). -/
def opTsync (p : BitVec 2) (f : Flit) (b : Block) : Block :=
  let t := stampNow b
  if flitFor b p 0x10 f && b.fed.joined then
    b.modFed (fun d =>
      let fl : Byte := (if holdover d then 1 else 0) ||| (if fedYoung b then 2 else 0) ||| (if d.alarm then 4 else 0)
      sendLocal 0x11 p ((List.range 10).map (fun i => fPay 8 f i 1) ++ bytesOf 2 (d.masterId.setWidth 16) ++
        bytesOf 8 t ++ bytesOf 8 t ++ [fl]) d)
  else b

/-- The step of TICK_NOW to the parent's time while the instance joins (R194, R363). -/
def joinStep (theta : Int) (t4 : BitVec 52) (b : Block) : Block :=
  let now : Int := (t4.toNat : Int) + theta
  let st : BitVec 52 := BitVec.ofInt 52 now
  let delta : BitVec 48 := st.extractLsb' 4 48 - t4.extractLsb' 4 48
  detect 0x563 1 0 { b.modFed (fun d => { d with
      load := some (b.tick + 1 + delta), corr := ((st.extractLsb' 0 4).toNat : Int) - (d.phase.toNat : Int), joined := true }) with
    fab := { b.fab with stepped := b.fab.stepped.set b.now } }

/-- θ of an exchange that a TRESP ends in this tick: t4 is the framer's stamp of it. -/
def trespTheta (p : BitVec 2) (f : Flit) (b : Block) : Int :=
  thetaOf (fPay 52 f 0 8) (fPay 52 f 12 8) (fPay 52 f 20 8) (stampNow b) (b.fed.port p).asym b.fed.exchanges

/-- The instance is joining, and its peers have accepted it: some port's has, and none has refused (R363). -/
def joining (d : Fed) (p : BitVec 2) : Bool :=
  (d.port p).asked && (d.port p).accepted && !(allPorts.any (fun p => (d.port p).refused))

/-- The TRESP answers the last TSYNC to the parent. -/
def trespTaken (p : BitVec 2) (f : Flit) (b : Block) : Bool :=
  let d := b.fed
  flitFor b p 0x11 f && d.parent == some p && !d.master && fPay 16 f 8 2 == d.xseq && (d.joined || joining d p)

/-- The exchange puts the instance into alarm (R371). -/
def trespAlarms (p : BitVec 2) (f : Flit) (b : Block) : Bool :=
  trespTaken p f b && b.fed.joined && !b.fed.alarm && decide (64 < (trespTheta p f b).natAbs)

/-- TRESP: the exchange is computed, and TICK_NOW disciplined from the next tick on; a joining instance steps. -/
def opTresp (p : BitVec 2) (f : Flit) (b : Block) : Block :=
  let d := b.fed
  if trespTaken p f b then
    let t4 := stampNow b
    let n := d.exchanges
    let theta := trespTheta p f b
    let dl := delayOf (fPay 52 f 0 8) (fPay 52 f 12 8) (fPay 52 f 20 8) t4 n
    let b := b.modFed (fun d => (d.modPort p (fun q => { q with cal := sampleCal dl.toNat q.cal })))
    let b := b.modFed (fun d => { d with
      ofs := ofs16 theta, delay := delay16 dl, exchanges := n + 1, pflags := fPay 3 f 28 1 })
    if !d.joined then joinStep theta t4 b
    else
      let rate := (Config.rate n).toInt
      alarmRule theta (b.modFed (fun d => { d with corr := d.corr + clamp16 theta + rate, rate := rate, rateAt := b.now }))
  else b

/-- TSYNC_SEND: every 1,024 ticks, on the parent port; t1 is the framer's stamp of this tick. -/
def opTsyncSend (b : Block) : Block :=
  let t1 := stampNow b
  match b.fed.parent with
  | some p =>
    if (b.fed.port p).st = .up ∧ ¬ b.fed.master ∧ b.fed.syncAt + 1024 ≤ b.now then
      b.modFed (fun d =>
        let x := d.xseq + 1
        sendLocal 0x10 p (bytesOf 8 t1 ++ bytesOf 2 x) { d with xseq := x, syncAt := b.now, t1 := t1 })
    else b
  | none => b

/-- HOLDOVER_ALARM: the error bound, 2 ticks at the start of the holdover and 1 more every 10^6 ticks, passes 4. -/
def opHoldoverAlarm (b : Block) : Block :=
  match b.fed.holdSince with
  | some t => if !b.fed.alarm && decide (t + 2000000 < b.now) then enterAlarm b.fed.ofs.toInt b else b
  | none => b

/-! ### Mirroring (R378..R381) -/

/-- The ring-record row of an owner: bytes 0x00..0x11 are taken (R378). -/
def mirrorRow (r : RingNo) (l : List Byte) (b : Block) : Block :=
  let b := healRing r b
  let v := ringRec b r
  let x := RingRec.dec (l ++ List.replicate 32 0)
  writeRow0 r { v with next := x.next, ret := x.ret, last := x.last, epoch := x.epoch } b

/-- An entry row: the copy keeps its own journal chain; an entry that is FREE loses its records. -/
def mirrorEntry (r : RingNo) (l : List Byte) (b : Block) : Block :=
  let x := Entry.dec l
  let e := (ringRec b r).entry x.csn
  let b := healItem e b
  let old := entryOf b e
  if x.st = stFREE then
    let b := (itemChain b e).foldl (fun b j => freeJrn j b) b
    writeEntry e { x with ring := r, jhead := jNone, jcount := 0 } b
  else if old.st = stFREE ∨ old.csn ≠ x.csn then writeEntry e { x with ring := r, jhead := jNone, jcount := 0 } b
  else writeEntry e { x with ring := r, jhead := old.jhead, jcount := old.jcount } b

/-- A journal record, under the copy's entry of the same place in the window. -/
def mirrorJrn (r : RingNo) (l : List Byte) (b : Block) : Option Block :=
  let x := Jrn.dec l
  let v := ringRec b r
  let e : EntryNo := BitVec.ofNat 13 (v.ebase.toNat + x.entry.toNat % v.window)
  let b := healItem e b
  match findJrn b e x.setno x.beat.toNat with
  | some j => some (writeJrn j { jrnOf b j with st := x.st, haddr := x.haddr, chan := x.chan } b)
  | none => match freeRecord b with
    | some j =>
      let b := appendJrn e j x.beat.toNat x.chan x.setno (x.haddr ++ (0 : BitVec 6) : BitVec 52) b
      some (writeJrn j { jrnOf b j with st := x.st } b)
    | none => none

/-- MIRROR: the update is performed in the copy ring's ledger before it is acknowledged (R378). -/
def opMirror (p : BitVec 2) (f : Flit) (b : Block) : Block :=
  routed p 0x02 f (fun s b => takeSeq s f (fun b =>
    let kind := (fPay 8 f 0 1).toNat
    let r : RingNo := fPay 12 f 2 2
    let l := ((fPayBytes f).drop 4).take 32
    let v := ringRec b r
    if !v.copy || v.peer != s then some b
    else if fPay 8 f 1 1 = 1 then some (mirrorRow r l b)
    else if kind = 2 ∨ kind = 3 then mirrorJrn r l b
    else some (mirrorEntry r l b)) b) b

def opHeartbeat (p : BitVec 2) (f : Flit) (b : Block) : Block :=
  routed p 0x07 f (fun s b => takeSeq s f some b) b

/-- HEARTBEAT_SEND: every LOSS / 8 ticks to the partner of a mirrored ring; a send to a LOST instance is refused (R358). -/
def opHeartbeatSend (s : BitVec 9) (b : Block) : Block :=
  if b.fed.joined && !(mirroredTo b s).isEmpty && rtValid (b.fed.route s) && !(rtLost (b.fed.route s)) && decide ((b.fed.pair s).beatAt + b.fed.loss / 8 ≤ b.now) then
    sendSeq 0x07 0 s [] none (b.modFed (fun d => d.modPair s (fun q => { q with beatAt := b.now })))
  else b

/-- PARTNER_LOSS: no flit from the partner for LOSS ticks: the rings mirrored to it are HELD (R379). -/
def opPartnerLoss (s : BitVec 9) (b : Block) : Block :=
  let q := b.fed.pair s
  let rs := mirroredTo b s
  if b.fed.joined && !q.lost && !rs.isEmpty && decide (q.heard + b.fed.loss ≤ b.now) then
    let b := detect 0x56A 3 (s.setWidth 24) (b.modFed (fun d => d.modPair s (fun q => { q with lost := true })))
    rs.foldl (fun b r =>
      let st := (ringRec b r).st
      ringHeld r 3 (bytesOf 2 (s.setWidth 16)) (b.modRing r (fun q => { q with lostFrom := some st }))) b
  else b

/-- A copy ring is taken over: ACTIVE with its own channel set, its items that are ACCEPTED, or that the owner had made TAKEN or HELD when it
sent them, replayed (R380). -/
def takeRing (r : RingNo) (b : Block) : Block :=
  let b := healRing r b
  let v := { ringRec b r with st := rsACTIVE, ctl := (ringRec b r).ctl &&& 0x9F, partner := 0, pring := 0 }
  let b := writeRing r v b
  let b := b.modRing r (fun _ => { tail := v.next.extractLsb' 0 32, acc := v.next, headDirty := true })
  let items := v.openItems
  let b := items.foldl (fun b e => modEntry e (fun x => { x with
    actsets := 0, chan := v.chbase + (x.chan &&& BitVec.ofNat 16 (v.chans - 1)) }) b) b
  let acc := items.filter (fun e => [stACCEPTED, stTAKEN, stHELD].contains (entryOf b e).st)
  let b := b.modCon (fun c => { c with missing := c.missing ++ acc })
  acc.foldl (fun b e => replayItem e b) b

/-- TAKEOVER: no flit from the owner for 2 × LOSS + 1,048,576 ticks (R380). -/
def opTakeover (s : BitVec 9) (b : Block) : Block :=
  let q := b.fed.pair s
  let rs := copiesOf b s
  if b.fed.joined && !q.taken && !rs.isEmpty && decide (q.heard + 2 * b.fed.loss + 1048576 ≤ b.now) then
    let b := b.modFed (fun d => (d.setRoute s (d.route s ||| 0x80)).modPair s (fun q => { q with taken := true }))
    let b := detect 0x56A 2 (s.setWidth 24) b
    let b := rs.foldl (fun b r => takeRing r b) b
    queueEvent 4 (bytesOf 2 (s.setWidth 16) ++ bytesOf 2 (BitVec.ofNat 16 rs.length) ++
      bytesOf 2 ((rs.headD 0).setWidth 16)) b
  else b

/-! ### Link retraining (R374) -/

/-- The monitored drift exceeds half the guard band: `g` is half of G in 1/1024 of the unit; 4G while YOUNG. -/
def drifted (g : Nat) (c : Calib) : Bool :=
  let h := if c.young then 4 * g else g
  decide (c.value + h < 1024 * c.last ∨ 1024 * c.last + h < c.value) && decide (c.samples ≠ 0)

/-- A retraining is recorded under code `k`, and under the next code where the item retrains twice within 1 ms. -/
def retrainRecord (src k : Nat) (c : Calib) (b : Block) : Block :=
  let b := detect src k 0 b
  match c.retrainAt with
  | some t => if b.now < t + 1000000 then detect src (k + 1) 0 b else b
  | none => b

/-- LINK_RETRAIN: the port measures in LOOPBACK, and the instance takes time from another port, or holds over. -/
def opLinkRetrain (p : BitVec 2) (b : Block) : Block :=
  let q := b.fed.port p
  if q.st == .up && !q.cal.busy && drifted 8192 q.cal then
    let b := retrainRecord (0x566 + p.toNat) 3 q.cal b
    let b := b.modFed (fun d => d.modPort p (fun q => { q with
      st := .loopback, cal := { q.cal with busy := true, retrainAt := some b.now } }))
    if b.fed.joined then elect b else b
  else b

/-- LINK_RETRAIN_END: the measured delay and asymmetry are the new values. -/
def opLinkRetrainEnd (p : BitVec 2) (delay asym : BitVec 16) (b : Block) : Block :=
  let q := b.fed.port p
  if q.st == .loopback && q.cal.busy then
    let b := b.modFed (fun d => d.modPort p (fun q => { q with
      st := .up, asym := asym, cal := { q.cal with busy := false, value := 1024 * delay.toNat, last := delay.toNat } }))
    if b.fed.joined then elect b else b
  else b

/-- FLIT_CRC_DROP: a flit that is not good is dropped, counted and recorded (R353). -/
def opFlitCrcDrop (p : BitVec 2) (f : Flit) (b : Block) : Block :=
  if decide (b.mode ≠ .off) && (b.fed.port p).carries && !(flitGood f) then
    detect (0x566 + p.toNat) 1 ((b.fed.port p).peer.setWidth 24) (b.modFed (fun d => { d with crcerr := d.crcerr.count b.now 1 }))
  else b

/-! ### Registers (R383) -/

def linkCode : LinkState → Reg32
  | .down => 0
  | .training => 1
  | .up => 2
  | .loopback => 3

def fedStat (b : Block) : Reg32 :=
  let d := b.fed
  fld 0 d.instId ||| bit 9 d.joined ||| bit 10 d.master ||| bit 11 d.alarm ||| bit 12 (fedYoung b) ||| bit 13 (holdover d) |||
  fld 14 (d.parent.getD 0) ||| fld 16 d.masterId ||| fldN 25 (d.hops % 16)

def fedTstat (b : Block) : Reg32 :=
  let d := b.fed
  let s := match d.parent with
    | some p => min 1024 (d.port p).cal.samples
    | none => 0
  bit 0 (d.alarmed.pre b.now) ||| bit 1 (d.lateAt.pre b.now) ||| bit 2 (allPorts.any (fun p => (d.port p).cal.busy)) ||| fldN 16 s

def fedPort (d : Fed) (p : BitVec 2) : Reg32 :=
  let q := d.port p
  linkCode q.st ||| fld 2 q.peer ||| bit 11 (q.cal.young && decide (q.cal.samples ≠ 0)) ||| bit 12 q.cal.busy

end Sys2Proof.Machine
end

