-- ==== Sys2Proof/Machine/Calibration.lean ====
section
/-! DEFINITION. The trim, monitoring and retraining of island crossings (R372..R375, R407, R429). -/

namespace Sys2Proof.Machine
open Sys2Proof

/-- A crossing before its first measurement: 5 cycles of its receiving island, YOUNG (R407). -/
def xingReset : Calib := { value := 5120 }
def Block.crossing (b : Block) (i : Nat) : Calib := Map.get xingReset b.xing i
def Block.modCrossing (b : Block) (i : Nat) (f : Calib → Calib) : Block := { b with xing := Map.mod xingReset b.xing i f }

/-- The island has a monitored crossing: 0..63 the clusters of powered sections, and 64..71 (R439). -/
def xingLive (b : Block) (i : Nat) : Bool :=
  if i < 64 then (b.sec (BitVec.ofNat 3 (i / 8))).powered else decide (i < 72)
def liveXings (b : Block) : List Nat := (List.range 72).filter (xingLive b)

/-- Every crossing holds a trimmed value (INST_MODE.TRIMV), and some crossing is YOUNG (TRIMYOUNG). -/
def allTrimmed (b : Block) : Bool := (liveXings b).all (fun i => (b.crossing i).trimmed && (b.crossing i).want == 0)
def trimYoung (b : Block) : Bool := (liveXings b).any (fun i => (b.crossing i).young)

/-- TRIM begins: each crossing wants a first measurement and 1,024 samples, or 64 where it has been trimmed before. -/
def wantTrim (b : Block) : Block :=
  (liveXings b).foldl (fun b i => b.modCrossing i (fun c => { c with
    want := if c.trimmed then 65 else 1025, samples := 0, sum := 0 })) b

/-- A crossing's delay, in 1/1024 cycles of its receiving island: 2 to 5 cycles, whatever is measured (R16). -/
def crossingDelay (v : Nat) : Nat := max 2048 (min 5120 v)

/-- A sample in TRIM: the first measurement is the value; after the samples their mean is, and the crossing is trimmed. -/
def trimSample (x : Nat) (c : Calib) : Calib :=
  if c.want = 0 then { c with last := x }
  else if (c.want = 65 ∧ c.trimmed) ∨ c.want = 1025 then { c with value := crossingDelay (1024 * x), last := x, want := c.want - 1 }
  else
    let c := { c with last := x, samples := c.samples + 1, sum := c.sum + x, want := c.want - 1 }
    if c.want = 0 then { c with value := crossingDelay (1024 * c.sum / c.samples), young := false, trimmed := true } else c

/-- The extra cycles of PERTURB_XING, which the monitoring subtracts (R481). -/
def extraCycles (b : Block) (i : Nat) : Nat :=
  if b.dbg.pActive && decide ((b.dbg.pXing.extractLsb' 0 7).toNat = i) then (b.dbg.pXing.extractLsb' 7 2).toNat else 0

/-- The next canary sample of a crossing is due: 1,024 ticks after the last (R372, R429); the first measurement of a TRIM is not one
of them. -/
def sampleDue (b : Block) (c : Calib) : Bool :=
  (b.mode == .trim && ((c.want == 65 && c.trimmed) || c.want == 1025)) || c.sampledAt.all (fun t => decide (t + 1024 ≤ b.now))

/-- CANARY_SAMPLE. -/
def opCanarySample (i y : Nat) (b : Block) : Block :=
  let x := y - extraCycles b i
  if !(xingLive b i) || (Map.get none b.paused i).isSome || !(sampleDue b (b.crossing i)) then b
  else match b.mode with
    | .trim =>
      let b := b.modCrossing i (fun c => { trimSample x c with sampledAt := some b.now })
      if allTrimmed b then { b with sup := { b.sup with trimv := true } } else b
    | .service | .recover | .quiesce => b.modCrossing i (fun c => { sampleCal x c with sampledAt := some b.now })
    | _ => b

/-- CROSSING_RETRAIN: the crossing has drifted by more than half its guard band; its island pauses. -/
def opCrossingRetrain (i : Nat) (b : Block) : Block :=
  let c := b.crossing i
  if b.mode.retires && xingLive b i && (Map.get none b.paused i).isNone && drifted 512 c then
    let b := retrainRecord (0x518 + i) 1 c b
    let b := if i < 64 then holdTimers (BitVec.ofNat 6 i) b else b
    { b.modCrossing i (fun c => { c with busy := true, retrainAt := some b.now }) with
      paused := Map.set none b.paused i (some b.now) }
  else b

/-- A wait of a context in the paused island: its timeout is extended, and an AT whose target fell into the pause is late. -/
def pausedAct (tick : Tick) (p : Nat) : Act → Act
  | .wait s lq d t => .wait s lq (d.map (· + p)) t
  | .sync bar d t => .sync bar (d.map (· + p)) t
  | .atWait s t late => .atWait s t (late || (reached tick t && !(reached (tick - BitVec.ofNat 48 p) t)))
  | .atDue s t late => .atDue s t (late || (reached tick t && !(reached (tick - BitVec.ofNat 48 p) t)))
  | a => a

/-- The contexts and timers of a cluster after a pause of `p` ticks (R375). -/
def endPause (c : CluId) (p : Nat) (b : Block) : Block :=
  let b := times 128 (fun i b =>
    let n : CtxNo := c ++ BitVec.ofNat 7 i
    if (b.ctx n).chan.isSome then b.modCtx n (fun x => { x with act := pausedAct b.tick p x.act }) else b) b
  settleClu c (times 40 (fun x b => advance p false c x b) b)

/-- RETRAIN_PAUSE_END: the delay has been measured again; the pause has lasted since its start. -/
def opRetrainPauseEnd (i delay : Nat) (b : Block) : Block :=
  match Map.get none b.paused i with
  | none => b
  | some t =>
    let p := b.now - t
    let b := { b.modCrossing i (fun c => { c with busy := false, value := crossingDelay (1024 * delay), last := delay }) with
      paused := Map.set none b.paused i none }
    if i < 64 then endPause (BitVec.ofNat 6 i) p b else b

end Sys2Proof.Machine
end

