-- ==== Sys2Proof/Machine/Responses.lean ====
section
/-! DEFINITION. What follows a word's W stage: multiplier and divider results, memory and Affix responses, long steps,
call frames, and the ends of waits (02, 03, 04, 05, 07, 08). -/

namespace Sys2Proof.Machine
open Sys2Proof

/-! ### Multiplier and divider (R124, R126, R128, R129) -/

/-- An exception that an injected word has raised sets ENG_INJ_CTL.ERR (R276). -/
def injErrIf (p : Bool) (e : EngId) (b : Block) : Block :=
  b.modEng e (fun g => { g with injErr := g.injErr.setIf b.now p })

/-- MUL_PRODUCT_WRITE: the oldest multiply, where it is a product, writes MPH:MPL. -/
def opMulProductWrite (n : CtxNo) (b : Block) : Block :=
  match (b.ctx n).muls with
  | .prod p :: rest =>
    settle n (b.modCtx n (fun c => { c with mph := p.extractLsb' 48 48, mpl := p.extractLsb' 0 48, muls := rest }))
  | _ => b

/-- MAC_ACCUMULATE: the oldest multiply, where it is a MAC, MACU or MSU, adds its term to its accumulator. -/
def opMacAccumulate (n : CtxNo) (b : Block) : Block :=
  match (b.ctx n).muls with
  | .mac i p :: rest =>
    settle n (b.modCtx n (fun c => { c with acc := setAcc4 c.acc i (acc4 c.acc i + p), muls := rest }))
  | _ => b

/-- DIVIDE_RESULT: DVQ, DVR, V, the sticky DZ, the DZ trap, and the divider free (R127..R129). -/
def opDivideResult (e : EngId) (b : Block) : Block :=
  match (b.eng e).div with
  | none => b
  | some d =>
    let n := ctxNo e d.k
    let q := divide d.sgn d.a d.b
    let b := b.modEng e (fun g => { g with div := none })
    let b := b.modFile n d.lvl (fun c => { c with
      dvq := q.1, dvr := q.2
      stat := putBit (if divWraps d.sgn d.a d.b then putBit c.stat 3 true else c.stat) 4
        (c.stat.getLsbD 4 || decide (d.b = 0)) })
    let b := if d.b = 0 ∧ (b.file n d.lvl).stat.getLsbD 18 then
        injErrIf d.inj e (pendExc n { code := 0x0B, kind := if d.inj then 0 else 2, sub := 0, fupc := d.fupc, einfo := d.a, lvl := d.lvl } b)
      else b
    settle n b

/-! ### Reservations (R245..R249) -/

/-- The lease of the unit that owns an address, in ticks; values below 64 act as 64 (R255, R256). -/
def leaseTicks (b : Block) (u : Nat) : Nat := max 64 (b.unit u).lease.toNat

/-- Room in a unit's table: 64 entries in a section's, 256 in the dual-port region's (R245). -/
def leaseRoom (b : Block) (u : Nat) : Bool :=
  decide ((b.leases.filter (fun l => l.unit == u)).length < if u = 8 then 256 else 64)

/-- LR6 at `a` by `n`, performed now (R246). -/
def loadReserve (n : CtxNo) (a : Nat) (b : Block) : Block :=
  match unitOf a with
  | none => b
  | some u =>
    let mine := b.leases.find? (fun l => l.owner == n)
    let others := b.leases.any (fun l => l.owner != n && l.touches a 6)
    let fresh : Lease := { unit := u, owner := n, addr := a, expiry := b.now + leaseTicks b u }
    if others then b
    else if (match mine with
        | some l => decide (l.addr = a)
        | none => false) then
      { b with leases := b.leases.map (fun l => if l.owner = n then { l with expiry := b.now + leaseTicks b u } else l) }
    else
      let b' := { b with leases := b.leases.filter (fun l => l.owner != n) }
      let freed := (match mine with
        | some l => decide (l.unit = u)
        | none => false)
      if leaseRoom b u || freed then { b' with leases := b'.leases ++ [fresh] }
      else b.modUnit u (fun m => { m with full := m.full.count b.now 1 })

/-- An SC6 at `a` by `n` performed now succeeds (R247). -/
def scHolds (b : Block) (n : CtxNo) (a : Nat) : Bool :=
  b.leases.any (fun l => l.owner == n && l.addr == a && decide (l.heldSince.getD b.now < l.expiry))

/-- REL at `a` (R247). -/
def release (n : CtxNo) (a : Nat) (b : Block) : Block :=
  { b with leases := b.leases.filter (fun l => !(l.owner == n && l.addr == a)) }

/-- LEASE_EXPIRY: a reservation of table `t` whose expiry tick has come ends with LEASE_LOST (R248). -/
def opLeaseExpiry (t : BitVec 4) (n : CtxNo) (b : Block) : Block :=
  if b.leases.any (fun l => l.owner == n && l.unit == t.toNat && decide (l.expiry ≤ l.heldSince.getD b.now)) then
    let b := { b with leases := b.leases.filter (fun l => l.owner != n) }
    let b := b.modUnit t.toNat (fun m => { m with expired := m.expired.count b.now 1 })
    settle n (b.modFile n (b.ctx n).lvl (fun c => { c with stat := putBit c.stat 6 true }))
  else b

/-! ### Call frames (R98, R156) -/

/-- The address of frame `d` of a level: CTX_STKBASE with bits [6:0] taken as 0, or the bank's base as it stands. It is read as
the frame moves, so that a SETSTK or a DST = TENANT of the word itself counts: R98 does not say (DESIGN CHOICE, log entry 85). -/
def frameAddr (b : Block) (n : CtxNo) (l : Lvl) (d : Nat) : Word :=
  let base := if l = .prog then (b.ctx n).stkBase &&& 0xFFFFFFFFFF80 else ((b.eng (engOf n)).bank l).stkBase
  base + BitVec.ofNat 48 (d * 0x80)

/-! ### Memory responses (R36, R39, R108, R145, R224, R230, R234) -/

/-- The banks that an access touches. -/
def banksOf (b : Block) (a n : Nat) : List Nat := (linesOf a n).map (fun l => bankOf b (8 * l))

/-- The step that a long memory operation has under way: its first and its last offset plus 1. -/
def stepSpan (b : Block) (n : CtxNo) (s : Snap) : Nat × Nat :=
  let done := progDone (progress s.lvl (b.file n s.lvl))
  (done, min ((done / 64 + 1) * 64) (longCount s))
/-- The banks of its ranges. -/
def stepBanks (b : Block) (n : CtxNo) (s : Snap) : List Nat :=
  let x := stepSpan b n s
  let at_ (y : Word) : List Nat := banksOf b (y + BitVec.ofNat 48 x.1).toNat (x.2 - x.1)
  at_ s.ea ++ (if s.w.memop = 0x20 then at_ s.a else [])

/-- The engine's accesses under way at the banks: the place of each in the issue order, and its banks. -/
def underWay (b : Block) (e : EngId) : List (Nat × List Nat) :=
  (List.range 32).filterMap (fun t => match (b.eng e).tag (BitVec.ofNat 5 t) with
    | some q => (match q.kind with
      | .mem op => some (q.seq, banksOf b q.ea.toNat (opSize op))
      | _ => none)
    | none => none) ++
  allCtx.filterMap (fun k => match (b.ctx (ctxNo e k)).act with
    | .longStep s => some (s.seq, stepBanks b (ctxNo e k) s)
    | .call s => some (s.seq, let a := frameAddr b (ctxNo e k) s.lvl s.ssp.toNat; banksOf b a.toNat s.frame.length)
    | .ret s => some (s.seq, let a := frameAddr b (ctxNo e k) s.lvl (s.ssp.toNat - 1); banksOf b a.toNat 0x68)
    | _ => none)

/-- An earlier access of the engine waits at one of the banks: a bank performs them in the order of their W stages (R234). -/
def bankBehind (b : Block) (e : EngId) (seq : Nat) (banks : List Nat) : Bool :=
  (underWay b e).any (fun x => decide (x.1 < seq) && x.2.any (fun y => banks.contains y))

/-- The value of a load from its bytes: zero- or sign-extended (R106). -/
def loadValue (op : BitVec 6) (l : List Byte) : Word :=
  match op.toNat with
  | 2 => (ofBytes 8 l).signExtend 48
  | 4 => (ofBytes 16 l).signExtend 48
  | 6 => (ofBytes 32 l).signExtend 48
  | _ => ofBytes 48 l
def loadAcc (op : BitVec 6) (l : List Byte) : Acc :=
  if op = 9 then (ofBytes 64 l).signExtend 104 else ofBytes 104 l

/-- A deferred fault of a request (R145): its exception, with the tag freed. One of an injected word's request is precise and
sets ERR (R276). -/
def deferFault (e : EngId) (t : BitVec 5) (p : Pend) (code sub : BitVec 6) (info : Word) (b : Block) : Block :=
  injErrIf p.inj e (pendExc (ctxNo e p.k)
    { code := code, kind := if p.inj then 0 else 1, sub := sub, fupc := p.fupc, tag := if p.inj then 0 else t, einfo := info
      lvl := p.lvl }
    (b.modEng e (fun g => g.setTag t none)))

/-- The bank refuses a request (checks 7 to 9 of R224). -/
def bankRefuse (e : EngId) (t : BitVec 5) (p : Pend) (k : BankCheck) (b : Block) : Block :=
  match k with
  | .pass => b
  | .bus => deferFault e t p 5 3 p.ea b
  | .region => deferFault e t p 6 0 p.ea b
  | .memue => deferFault e t p 7 0 p.ea b

/-- A write is performed at the banks: bytes land, and others' reservations on their words end (R233, R248). -/
def bankWrite (n : CtxNo) (a : Nat) (l : List Byte) (b : Block) : Block :=
  breakLeases (memWrite (touch false true a l.length b) a l) (some n) a l.length

/-- MEMORY_LOAD_RESULT: the banks perform a load, LR6 or SC6, its result is written, and its tag is freed. -/
def opMemoryLoadResult (e : EngId) (t : BitVec 5) (ecc : Ecc) (b : Block) : Block :=
  match (b.eng e).tag t with
  | some p => match p.kind with
    | .mem op =>
      let n := ctxNo e p.k
      let a := p.ea.toNat
      let sz := opSize op
      if !(isLoadOp op || op == 0x19) || bankBehind b e p.seq (banksOf b a sz) then b
      else
        let b := arrive b p.tenant true (op == 0x19) a sz (linesOf a sz) ecc
        let b := if inFenced b a sz then b else memPerturb a b
        let k := bankCheck b p.tenant true (op == 0x19) a sz
        if k ≠ .pass then settle n (bankRefuse e t p k b)
        else
          let x := portARead a sz b
          let b := x.1
          let l := x.2
          let free (b : Block) : Block := b.modEng e (fun g => g.setTag t none)
          if op = 0x19 then
            let ok := scHolds b n a
            let b := if ok then bankWrite n a (bytesOf 6 p.data) b else b
            settle n (free (b.modFile n p.lvl (fun c => writeDst p.priv c p.dst (if ok then 1 else 0))))
          else
            let b := if op = 0x18 then loadReserve n a b else b
            settle n (free (b.modFile n p.lvl (fun c =>
              if isAcc p.dst && decide (8 ≤ op.toNat ∧ op.toNat ≤ 0x0A) then writeAcc c p.dst (loadAcc op l)
              else writeDst p.priv c p.dst (loadValue op l))))
    | _ => b
  | none => b

/-- STORE_ACCEPTED: the banks perform a store or REL, and its tag is freed (R224, R230); one that faults writes nothing, on
either side of a section boundary (R145). A REL neither reads nor writes bytes, so that of check 8 only a DENY entry can refuse
it (DEDUCED, log entry 82). The errors are those that the merge of its partly written lines meets (R231). -/
def opStoreAccepted (e : EngId) (t : BitVec 5) (ecc : Ecc) (b : Block) : Block :=
  match (b.eng e).tag t with
  | some p => match p.kind with
    | .mem op =>
      let n := ctxNo e p.k
      let a := p.ea.toNat
      let sz := opSize op
      if isLoadOp op || op == 0x19 || bankBehind b e p.seq (banksOf b a sz) then b
      else
        let wr := op != 0x1A
        let b := arrive b p.tenant false wr a sz (if wr then mergeLines false a sz else []) ecc
        let k := bankCheck b p.tenant false wr a sz
        if k ≠ .pass then settle n (bankRefuse e t p k b)
        else
          let b := if wr then memPerturb a (bankWrite n a (bytesOf sz p.data) b) else release n a b
          settle n (b.modEng e (fun g => g.setTag t none))
    | _ => b
  | none => b

/-! ### The Affix port (R70..R73, R226, R522) -/

/-- AFFIX_REQUEST: the port takes the next request, round-robin among the engines (R522, R535). -/
def opAffixRequest (c : CluId) (b : Block) : Block :=
  if (b.clu c).asleep || b.fenced (cluSec c) then b
  else
    let order := (List.range 8).map (fun i => ((b.clu c).afxRr + 1 + BitVec.ofNat 3 i : BitVec 3))
    match order.find? (fun i => !((b.eng (mkEng c i)).afxQ.isEmpty)) with
    | none => b
    | some i =>
      (b.modEng (mkEng c i) (fun g => { g with afxQ := g.afxQ.tail })).modClu c (fun v => { v with afxRr := i })

/-- A response that frees a tag: AFXERR, or the result and the flag (R72, R226). A result that the level may not write to DST
raises the fault of R42 or R44 as a deferred one (DESIGN CHOICE, log entry 39). -/
def affixAnswer (e : EngId) (t : BitVec 5) (p : Pend) (gen : BitVec 2) (r : Word) (flag err : Bool) (b : Block) : Block :=
  let n := ctxNo e p.k
  if err then settle n (deferFault e t p 8 0 (gen.setWidth 48) b)
  else
    let free (b : Block) : Block := b.modEng e (fun g => g.setTag t none)
    let flagged (b : Block) : Block := b.modCtx n (fun c => { c with afxFlag := flag })
    match p.kind with
    | .affixMem op =>
      let b := flagged b
      if isLoadOp op then
        settle n (free (b.modFile n p.lvl (fun c => writeDst p.priv c p.dst (loadValue op (bytesOf (opSize op) r)))))
      else settle n (free b)
    | _ =>
      let b := flagged b
      let c := b.file n p.lvl
      (match dstFault p.priv p.lvl c p.dst r with
        | some (code, sub, info) => settle n (deferFault e t p code sub info b)
        | none => settle n (free (b.setFile n p.lvl (writeDst p.priv c p.dst r))))

/-- AFFIX_RESPONSE: the engine accepts the response of a sent request, or discards a late one (R72, R73). -/
def opAffixResponse (c : CluId) (r : AfxResponse) (b : Block) : Block :=
  let e := mkEng c r.eng
  let g := b.eng e
  if b.fenced (cluSec c) then b
  else if r.gen ≠ Map.get 0 g.tagGen r.tag.toNat then
    detect e.toNat 0x21 (r.ctx.setWidth 24 ||| r.tag.setWidth 24 <<< 4)
      (b.modEng e (fun g => { g with afxLate := g.afxLate.count b.now 1 }))
  else match g.tag r.tag with
    | some p =>
      if p.isAffix && p.k == r.ctx && !(g.afxQ.contains r.tag) then
        let x := if queueSel c b then perturbHit (b.dbg.pQueue.extractLsb' 15 8) b else (b, false)
        if x.2 then x.1 else affixAnswer e r.tag p r.gen r.result r.flag r.err x.1
      else b
    | none => b

/-- AFFIX_TIMEOUT (not in a pause, R375): no response within 4,096 engine cycles: AFXTMO, and the tag's GEN advances (R73). -/
def opAffixTimeout (e : EngId) (t : BitVec 5) (b : Block) : Block :=
  match (b.eng e).tag t with
  | some p =>
    if p.isAffix && !(b.paused_ (cluOf e)) then
      let gen := Map.get 0 (b.eng e).tagGen t.toNat
      let b := b.modEng e (fun g => { g with
        tagGen := Map.set 0 g.tagGen t.toNat (gen + 1), afxQ := g.afxQ.filter (fun x => x != t) })
      settle (ctxNo e p.k) (deferFault e t p 9 0 (gen.setWidth 48) b)
    else b
  | none => b

/-! ### Long steps (R132..R142) -/

/-- A precise fault of a step: the context stops at the boundary, the tag is freed, PROG keeps DONE (R139, R141). -/
def stepFault (n : CtxNo) (s : Snap) (code sub : BitVec 6) (info : Word) (b : Block) : Block :=
  let b := b.modEng (engOf n) (fun g => g.setTag s.w.mtag none)
  preciseFault n s code sub info true (stop n .idle b)

/-- The precise fault of a refusal at the banks. -/
def bankFault : BankCheck → Option (BitVec 6 × BitVec 6)
  | .pass => none
  | .bus => some (5, 3)
  | .region => some (6, 0)
  | .memue => some (7, 0)

/-- The checks of a step's range: the map, then the banks (R224, R145). -/
def rangeFault (b : Block) (n : CtxNo) (s : Snap) (wr : Bool) (a : Word) (len : Nat) :
    Option (BitVec 6 × BitVec 6) :=
  match mapFault b s.priv s.w.memop a.toNat len with
  | some f => some f
  | none => bankFault (bankCheck b (reqTenant (b.ctx n) s.lvl) (!wr) wr a.toNat len)

/-- The range of a step goes to its banks, where the map lets it (R138, R224). -/
def rangeArrive (n : CtxNo) (s : Snap) (wr : Bool) (a : Word) (len : Nat) (ls : List Nat) (ecc : Ecc) (b : Block) : Block :=
  if (mapFault b s.priv s.w.memop a.toNat len).isSome then b
  else arrive b (reqTenant (b.ctx n) s.lvl) (!wr) wr a.toNat len ls ecc

/-- The word of the snap may write the byte: it lies in a bank in service, and neither the map nor a region entry refuses it
(R224). -/
def mayWrite (b : Block) (n : CtxNo) (s : Snap) (x : Nat) : Bool :=
  (unitOf x).isSome && (s.priv || !(inChState b x 1)) && !(inFenced b x 1) &&
  addrOk b (reqTenant (b.ctx n) s.lvl) false true x

/-- The undefined destination bytes of a write that faults: free values, over the bytes that the word may write at all, since
an undefined result breaks no protection (R4, R102, R141). -/
def undefinedBytes (n : CtxNo) (s : Snap) (f : Nat → Byte) (a : Nat) (len : Nat) (b : Block) : Block :=
  let b' := (List.range len).foldl (fun v i =>
    if mayWrite b n s (a + i) then writeByte v (a + i) (f (b.free + i)) else v) b
  { b' with free := b.free + len }

/-- The bytes of CKSUM16 from offset `i` on: a byte at an even offset is the low half of its 16-bit value, one at an odd
offset the high half (R132, R142). -/
def cksumBytes (acc : Acc) : Nat → List Byte → Acc
  | _, [] => acc
  | i, x :: l => cksumBytes (acc + (if i % 2 = 0 then x.setWidth 104 else x.setWidth 104 <<< 8)) (i + 1) l

/-- A step has been answered: PROG.DONE advances, and the instruction ends or waits for its next step (R138, R140). -/
def stepDone (n : CtxNo) (s : Snap) (done : Nat) (b : Block) : Block :=
  let b := b.modFile n s.lvl (fun c => setProgress s.lvl c (mkProg s.w.longOp done))
  if longCount s ≤ done then longEnd n s b else stop n (.longNext s) b

/-- LONG_STEP_END: the accesses of the step are performed at their banks and answered (R138). The error is one of the rows that the step reads,
or of those that it writes in part (R231). EINFO of a step that faults is
the first address of the range that the check refuses: R146 says only 'effective address' (DESIGN CHOICE, log entry 83). -/
def opLongStepEnd (n : CtxNo) (ecc : Ecc) (b : Block) : Block :=
  match (b.ctx n).act with
  | .longStep s =>
    let done := (stepSpan b n s).1
    let stepEnd := (stepSpan b n s).2
    let len := stepEnd - done
    let at_ (x : Word) : Word := x + BitVec.ofNat 48 done
    let rdA : Option Word := match s.w.memop.toNat with
      | 0x20 => some (at_ s.a)
      | 0x21 => none
      | _ => some (at_ s.ea)
    let wrA : Option Word := match s.w.memop.toNat with
      | 0x20 | 0x21 => some (at_ s.ea)
      | _ => none
    if bankBehind b (engOf n) s.seq (stepBanks b n s) then b else
    let b := match rdA with
      | some a =>
        let b := rangeArrive n s false a len (rowLines a.toNat len) ecc b
        if (mapFault b s.priv s.w.memop a.toNat len).isSome then b else dataCmps n s true false a.toNat len b
      | none => b
    match rdA.bind (fun a => (rangeFault b n s false a len).map (fun f => (a, f))) with
    | some (a, k, sub) => settle n (stepFault n s k sub a b)
    | none =>
      let b := match wrA with
        | some a => rangeArrive n s true a len (mergeLines true a.toNat len)
            (ecc.from ((rdA.map (fun a => rowLines a.toNat len)).getD []).length) b
        | none => b
      match wrA.bind (fun a => (rangeFault b n s true a len).map (fun f => (a, f))) with
      | some (a, k, sub) => settle n (stepFault n s k sub a (undefinedBytes n s Config.stepByte a.toNat len b))
      | none =>
        let src := (at_ s.a).toNat
        let dst := (at_ s.ea).toNat
        (match s.w.memop.toNat with
          | 0x20 => let x := portARead src len b
            stepDone n s stepEnd (dataCmps n s false true dst len (bankWrite n dst x.2 x.1))
          | 0x21 =>
            let l := (List.range len).map (fun i => s.a.extractLsb' (8 * ((done + i) % 6)) 8)
            stepDone n s stepEnd (dataCmps n s false true dst len (bankWrite n dst l b))
          | 0x22 =>
            let x := portARead dst len b
            let b := x.1
            let l := x.2
            stepDone n s stepEnd (b.modFile n s.lvl (fun c => writeAcc c s.w.dst (cksumBytes (accOf c s.w.dst) done l)))
          | 0x23 =>
            let x := portARead dst len b
            let b := x.1
            let l := x.2
            stepDone n s stepEnd (b.modFile n s.lvl (fun c => writeAcc c s.w.dst (l.foldl crcStep (accOf c s.w.dst))))
          | _ =>
            let x := portARead dst len b
            let b := x.1
            let l := x.2
            match (List.range len).find? (fun i => nth 0 l i == s.a.extractLsb' 0 8) with
            | some i =>
              longEnd n s (b.modFile n s.lvl (fun c => writeDst s.priv c s.w.dst (BitVec.ofNat 48 (done + i))))
            | none =>
              stepDone n s stepEnd (if longCount s ≤ stepEnd then scanEnds n s b else b))
  | _ => b

/-! ### Call frames (R97..R103) -/

/-- The checks of a frame access: as a system or user access of the context (R98, R103, R145). -/
def frameFault (b : Block) (n : CtxNo) (s : Snap) (wr : Bool) (a : Word) (len : Nat) :
    Option (BitVec 6 × BitVec 6) :=
  match mapFault b s.priv 0x20 a.toNat len with
  | some f => some f
  | none => bankFault (bankCheck b (reqTenant (b.ctx n) s.lvl) (!wr) wr a.toNat len)

/-- A frame access goes to its banks, where the map lets it (R98). -/
def frameArrive (n : CtxNo) (s : Snap) (wr : Bool) (a len : Nat) (ls : List Nat) (ecc : Ecc) (b : Block) : Block :=
  if (mapFault b s.priv 0x20 a len).isSome then b
  else arrive b (reqTenant (b.ctx n) s.lvl) (!wr) wr a len ls ecc

/-- CALL_FRAME_DONE: the frame is written, the error being one of its merges (R231); then the shadow entry, SSP and the target. A faulting write leaves the
128-byte slot undefined and takes its fault on the CALL (R100, R102). -/
def opCallFrameDone (n : CtxNo) (ecc : Ecc) (b : Block) : Block :=
  match (b.ctx n).act with
  | .call s =>
    let d := s.ssp.toNat
    let a := frameAddr b n s.lvl d
    let bytes := s.frame
    if bankBehind b (engOf n) s.seq (banksOf b a.toNat bytes.length) then b else
    let b := frameArrive n s true a.toNat bytes.length (mergeLines false a.toNat bytes.length) ecc b
    match frameFault b n s true a bytes.length with
    | some (k, sub) =>
      preciseFault n s k sub a false (stop n .idle (undefinedBytes n s Config.frameByte a.toNat 128 b))
    | none =>
      let b := bankWrite n a.toNat bytes b
      let b := b.modFile n s.lvl (fun c => { c with
        shadow := c.shadow.setIfInBounds d (s.upc + 1), ssp := BitVec.ofNat 6 (d + 1) })
      goto n (callTarget s) b
  | _ => b

/-- A saved register is restored: of STAT only [9:0]; CMAP[0] stays (R101). -/
def restoreReg (cls : BitVec 2) (i : Nat) (l : List Byte) (c : Ctx) : Ctx :=
  let j : BitVec 4 := BitVec.ofNat 4 i
  let v : Word := ofBytes 48 l
  match cls.toNat with
  | 0 => { c with d := setReg16 c.d j v }
  | 1 => { c with a := setReg16 c.a j v }
  | _ => if i < 4 then { c with acc := setAcc4 c.acc (BitVec.ofNat 2 i) (ofBytes 104 l) }
    else match i with
      | 4 => { c with stat := under 0x3FF c.stat v }
      | 5 => { c with lc := v.extractLsb' 0 16 }
      | 6 => { c with cmap := (c.cmap.extractLsb' 48 48 ++ (v &&& 0xFFFFFFFFFFC0) : BitVec 96) }
      | _ => { c with cmap := (v ++ c.cmap.extractLsb' 0 48 : BitVec 96) }

/-- Saved registers restored in mask order from their packed bytes. -/
def restoreAll (cls : BitVec 2) : List Nat → List Byte → Ctx → Ctx
  | [], _, c => c
  | i :: is, l, c => restoreAll cls is (l.drop (savedSize cls i)) (restoreReg cls i (l.take (savedSize cls i)) c)

/-- RET_RESTORE_DONE: the header is compared with the shadow entry, the saved registers are read and restored, and the
context returns (R101, R167). All 16 bits of the header's return field are compared, and bits [7:2] of its class byte are not
looked at: R101 does not say (DESIGN CHOICE, log entry 84). -/
def opRetRestoreDone (n : CtxNo) (ecc : Ecc) (b : Block) : Block :=
  match (b.ctx n).act with
  | .ret s =>
    let c := b.file n s.lvl
    let d := s.ssp.toNat - 1
    let a := frameAddr b n s.lvl d
    if bankBehind b (engOf n) s.seq (banksOf b a.toNat 0x68) then b else
    let b := frameArrive n s false a.toNat 8 (linesOf a.toNat 8) ecc b
    let fault (k sub : BitVec 6) (info : Word) (b : Block) : Block := preciseFault n s k sub info false (stop n .idle b)
    match frameFault b n s false a 8 with
    | some (k, sub) => fault k sub a b
    | none =>
      let x := portARead a.toNat 8 b
      let b := x.1
      let h := x.2
      let fret := ofBytes 16 (h.take 2)
      let ret : CsAddr := fret.extractLsb' 0 14
      let mask := ofBytes 16 ((h.drop 2).take 2)
      let cls : BitVec 2 := (nth 0 h 4).extractLsb' 0 2
      let depth := nth 0 h 5
      let entry := nth 0 c.shadow.toList d
      let info : Word := ret.setWidth 48 ||| entry.setWidth 48 <<< 14 ||| depth.setWidth 48 <<< 28
      if fret ≠ entry.setWidth 16 then fault 4 2 info b
      else if depth.toNat ≠ d then fault 4 3 info b
      else if cls = 3 ∨ (cls = 2 ∧ mask.extractLsb' 8 8 ≠ 0) then
        fault 4 8 (mask.setWidth 48 ||| cls.setWidth 48 <<< 16) b
      else
        let bits := savedBits cls mask
        let len := (bits.map (savedSize cls)).foldl (· + ·) 0
        let b := if len = 0 then b
          else frameArrive n s false (a + 8).toNat len (linesOf (a + 8).toNat len) (ecc.from 1) b
        (match (if len = 0 then none else frameFault b n s false (a + 8) len) with
          | some (k, sub) => fault k sub (a + 8) b
          | none =>
            let y := portARead (a + 8).toNat len b
            let l := y.2
            let b := y.1.modFile n s.lvl (fun c => { restoreAll cls bits l c with ssp := BitVec.ofNat 6 d })
            goto n ret b)
  | _ => b

/-! ### The ends of waits (R52, R54, R95, R235) -/

/-- FENCE_COMPLETE: the fenced classes are complete (R235). -/
def opFenceComplete (n : CtxNo) (b : Block) : Block :=
  match (b.ctx n).act with
  | .fence cl before => if fenceHeld b n cl before then b else goto n ((b.ctx n).upc + 1) b
  | _ => b

/-- WAIT_TIMEOUT (none of a paused island: the pause extends it, R375): a source that is true in this tick still completes the WAIT; else TMO is set, and the context goes on
at the word's TARGET (R50, R52). -/
def opWaitTimeout (n : CtxNo) (b : Block) : Block :=
  let b := settle n b
  match (b.ctx n).act with
  | .wait _ _ (some t) target =>
    if t ≤ b.now && !(b.paused_ (cluOf (engOf n))) then
      goto n target (b.modFile n (b.ctx n).lvl (fun c => { c with stat := putBit c.stat 8 true })) else b
  | _ => b

/-- SYNC_TIMEOUT (not in a pause, R375): the arrival is withdrawn, TMO is set, and the context goes on at TARGET (R95). -/
def opSyncTimeout (n : CtxNo) (b : Block) : Block :=
  match (b.ctx n).act with
  | .sync _ (some t) target =>
    if t ≤ b.now && !(b.paused_ (cluOf (engOf n))) then
      goto n target ((withdraw n b).modFile n (b.ctx n).lvl (fun c => { c with stat := putBit c.stat 8 true })) else b
  | _ => b

/-- The tag of a due AT word is pending from its selection on (R38). -/
def claimTag (n : CtxNo) (s : Snap) (b : Block) : Block := if s.w.takesTag then takeTag n s .timed b else b

/-- AT_DUE: 16 ticks before its target the word is selected again, the lowest context ID first (R31). It takes a timed-effect
entry, its tag and the divider, and has its effects within the context; its operands are read then (R54). -/
def opAtDue (n : CtxNo) (b : Block) : Block :=
  match (b.ctx n).act with
  | .atWait s t late =>
    if allCtx.find? (fun k => atReady b (ctxNo (engOf n) k)) = some (ctxOf n) then
      let s' := { snapOf b n s.w s.inj false with priv := s.priv }
      match wordFaultAt true b n s' with
      | some (k, sub, info) => preciseFault n s' k sub info false (stop n .idle b)
      | none => stop n (.atDue s' t late) (claimTag n s' (wInternal n s' b))
    else b
  | _ => b

/-- AT_TARGET: the effects outside the context are released, stamped with the target; LATE where they are not (R53), though not
for a target that R368 skipped. A retraining pause holds them (R374), and a full Affix queue a request for it (R70). A value of
a lane operation that DST may not take faults now: of the word, only its effects within the context have taken place (DESIGN
CHOICE, log entry 99). -/
def opAtTarget (n : CtxNo) (b : Block) : Block :=
  match (b.ctx n).act with
  | .atDue s t late =>
    if !(reached b.tick t) || b.paused_ (cluOf (engOf n)) || affixFull b n s.w then b
    else match laneFault b n s with
    | some (k, sub, info) =>
      preciseFault n s k sub info false (stop n .idle
        (if s.w.takesTag then b.modEng (engOf n) (fun g => g.setTag s.w.mtag none) else b))
    | none =>
      let late := late || !(onTime b t)
      let b := wExternal n s b
      let b := if late then
          b.modFile n s.lvl (fun c => { c with stat := putBit c.stat 9 true }) else b
      goto n (s.upc + 1) b
  | _ => b

end Sys2Proof.Machine
end

