-- ==== Sys2Proof/Machine/Dma.lean ====
section
/-! DEFINITION. DMA channels: hand-over, beats, completion, errors, pausing and abandoning, ledgered beats
(10_dma.md), and the responses and timeouts of the host ports (R293, R515). -/

namespace Sys2Proof.Machine
open Sys2Proof

/-! ### Fields of DMA_SH_CFG (R287) -/

def DmaSet.dir (s : DmaSet) : BitVec 2 := s.cfg.extractLsb' 0 2
def DmaSet.mode (s : DmaSet) : BitVec 2 := s.cfg.extractLsb' 2 2
def DmaSet.port (s : DmaSet) : Bool := s.cfg.getLsbD 4
def DmaSet.ledg (s : DmaSet) : Bool := s.cfg.getLsbD 5
def DmaSet.lastb (s : DmaSet) : Nat := if s.cfg.extractLsb' 6 6 = 0 then 64 else (s.cfg.extractLsb' 6 6).toNat
def DmaSet.burst (s : DmaSet) : Nat := if s.cfg.extractLsb' 12 8 = 0 then 256 else (s.cfg.extractLsb' 12 8).toNat

def dmaH2L : BitVec 2 := 0
def dmaL2H : BitVec 2 := 1
def dmaL2L : BitVec 2 := 2

/-- The fault source of channel n (R439). -/
def dmaSrc (n : BitVec 8) : Nat := 0x600 + n.toNat
/-- Its section (R284). -/
def dmaSec (n : BitVec 8) : SecId := n.extractLsb' 5 3
/-- The channel is powered and not fenced (R310). -/
def dmaLive (b : Block) (n : BitVec 8) : Bool := decide (b.mode ≠ .off) && !(b.fenced (dmaSec n))

/-! ### The descriptor check (R289) -/

/-- Bytes of a transfer of `count` beats. -/
def DmaSet.length (s : DmaSet) : Nat := 64 * (s.count.toNat - 1) + s.lastb

def hostBad (a : BitVec 52) (len : Nat) : Bool := decide (a.toNat % 64 ≠ 0 ∨ 2 ^ 52 < a.toNat + len)
def localBad (a : BitVec 52) (len : Nat) : Bool :=
  decide (a.toNat % 32 ≠ 0) ||
  !(decide (a.toNat + len ≤ 0x4000000) || decide (0x4000000 ≤ a.toNat ∧ a.toNat + len ≤ 0x4200000))

/-- The item that JREF names. -/
def DmaSet.jref (b : Block) (s : DmaSet) : Option EntryNo := itemOf b s.ring s.csn

/-- The set fails its check, or its item can take no further set (R333). -/
def badSet (b : Block) (s : DmaSet) : Bool :=
  s.dir == 3 || s.mode == 3 || s.count == 0 ||
  (if s.dir = dmaH2L then hostBad s.src s.length else localBad s.src s.length) ||
  (if s.dir = dmaL2H then hostBad s.dst s.length else localBad s.dst s.length) ||
  (s.ledg && (s.dir != dmaL2H || (match s.jref b with
    | none => true
    | some e => (entryOf b e).actsets == 255)))

/-! ### Hand-over (R298, R299) -/

/-- The state that the active set gives without a pause (R294, R302). -/
def dmaNatural (d : Dma) : DmaState :=
  if !d.started && d.credits == 0 then .armed
  else if d.act.mode = 2 ∧ d.released = 0 ∧ d.credits = 0 ∧ d.out = [] then .waitc
  else .run

/-- ERROR with its record (R304). -/
def dmaError (n : BitVec 8) (i : Nat) (code : BitVec 3) (b : Block) : Block :=
  detect (dmaSrc n) code.toNat (BitVec.ofNat 20 i |>.setWidth 24)
    (b.modChan n (fun d => { d with
      st := .error, errCode := code, errBeat := BitVec.ofNat 20 i, failed := [], aborting := false, released := 0 }))

/-- The channel becomes IDLE. -/
def dmaIdle (n : BitVec 8) (b : Block) : Block :=
  b.modChan n (fun d => { d with st := .idle, aborting := false, failed := [], released := 0, armAt := b.now })

/-- The set is one of an item whose ring's partner is lost: it is not begun before the partner is heard again or the mirror is
removed (R379). -/
def partnerGone (b : Block) (s : DmaSet) : Bool :=
  s.ledg && (let v := ringRec b s.ring; v.mirror && (b.fed.pair v.peer).lost)

/-- A hand-over: an armed shadow set is copied, checked and started; else the channel is IDLE. -/
def handover (n : BitVec 8) (b : Block) : Block :=
  if (b.chan n).arm && !(partnerGone b (b.chan n).sh) then
    let b := b.modChan n (fun d => { d with
      act := d.sh, arm := false, aBeat := 0, aDone := 0, credits := 0, creditAt := none, started := false, released := 0,
      out := [], failed := [], aborting := false, item := none })
    let s := (b.chan n).act
    let b := if s.ledg then healNamed s.ring s.csn b else b
    if badSet b s then dmaError n 0 7 b
    else
      let b := (match (if s.ledg then s.jref b else none) with
        | some e => beginSet e (b.modChan n (fun d => { d with item := some (e, (entryOf b e).nset) }))
        | none => b)
      b.modChan n (fun d =>
        let d := { d with credits := if s.mode = 0 then 1 else 0 }
        { d with st := if d.credits = 0 then .armed else if d.pauseReq then .paused else .run })
  else dmaIdle n b

/-- DMA_IDLE_HANDOVER: an IDLE channel whose shadow has been armed at the end of an earlier tick (R299). -/
def opDmaIdleHandover (n : BitVec 8) (b : Block) : Block :=
  let d := b.chan n
  if dmaLive b n && d.st == .idle && d.arm && decide (d.armAt < b.now) && !(partnerGone b d.sh) then handover n b else b

/-! ### The end of a drain (R296, R301, R303..R305) -/

/-- The active ledgered set ends (R333). -/
def dmaEndSet (n : BitVec 8) (b : Block) : Block :=
  match (b.chan n).item with
  | some x => (endSet x.1 b).modChan n (fun d => { d with item := none })
  | none => b

/-- The failed beat of lowest index. -/
def lowestFailed : List (Nat × BitVec 3) → Option (Nat × BitVec 3)
  | [] => none
  | x :: l => match lowestFailed l with
    | some y => if x.1 ≤ y.1 then some x else some y
    | none => some x

/-- The transfer completes: its pulse, DMADN, and the hand-over (R296). -/
def dmaComplete (n : BitVec 8) (b : Block) : Block :=
  let s := (b.chan n).act
  let b := raiseN n.toNat (dmaEndSet n b)
  handover n (if s.ownv then raise (.chan 1 s.owner) b else b)

/-- What follows when no beat is outstanding. -/
def dmaSettle (n : BitVec 8) (b : Block) : Block :=
  let d := b.chan n
  if d.out ≠ [] then b
  else if d.st = .idle ∨ d.st = .error ∨ d.st = .armed then b
  else if d.aborting then
    let b := dmaIdle n (dmaEndSet n b)
    match lowestFailed d.failed with
    | some x => detect (dmaSrc n) x.2.toNat (BitVec.ofNat 20 x.1 |>.setWidth 24) b
    | none => b
  else match lowestFailed d.failed with
    | some x => dmaError n x.1 x.2 (dmaEndSet n b)
    | none =>
      if d.started && d.act.count == 0 then dmaComplete n b
      else if d.st = .pausing then b.modChan n (fun d => { d with st := .paused })
      else if d.st = .run then b.modChan n (fun d => { d with st := dmaNatural d })
      else b

/-- A beat is answered: it completes, or fails with a code (R296, R304). -/
def beatDone (n : BitVec 8) (i : Nat) (code : BitVec 3) (b : Block) : Block :=
  dmaSettle n (b.modChan n (fun d =>
    let d := { d with out := d.out.filter (fun x => x.idx != i) }
    if code = 0 then { d with aDone := d.aDone + 1, beats := d.beats.count b.now 1 }
    else { d with failed := d.failed ++ [(i, code)] }))

/-- Beat i of the channel is outstanding at a stage. -/
def beatStage (d : Dma) (i : Nat) : Option BeatStage := (d.out.find? (fun x => x.idx == i)).map (fun x => x.stage)
def setStage (n : BitVec 8) (i : Nat) (t : BeatStage) (b : Block) : Block :=
  b.modChan n (fun d => { d with out := d.out.map (fun x => if x.idx = i then { x with stage := t } else x) })

/-! ### Beats (R288, R290, R291) -/

/-- Bytes of beat i: LASTB in the set's last beat. -/
def beatLen (d : Dma) (i : Nat) : Nat := if i + 1 = d.aBeat.toNat + d.act.count.toNat then d.act.lastb else 64
def beatSrc (d : Dma) (i : Nat) : Nat := d.act.src.toNat + 64 * i
def beatDst (d : Dma) (i : Nat) : Nat := d.act.dst.toNat + 64 * i

/-- A credit is spent where none is in force: it releases a burst, or the whole transfer (R294). -/
def dmaSpend (d : Dma) : Dma :=
  if d.released = 0 ∧ d.credits ≠ 0 then
    { d with credits := d.credits - 1, started := true
             released := if d.act.mode = 2 then min d.act.burst d.act.count.toNat else d.act.count.toNat }
  else d

/-- The channel may issue its next beat. -/
def dmaMayIssue (b : Block) (n : BitVec 8) : Bool :=
  let d := b.chan n
  dmaLive b n && d.st == .run && !d.pauseReq && !d.aborting && d.failed.isEmpty && d.act.count != 0 &&
  decide (d.out.length < 64) && decide ((dmaSpend d).released ≠ 0)

/-- The beat counts as issued. -/
def dmaAdvance (d : Dma) : Dma :=
  { d with aBeat := d.aBeat + 1, released := d.released - 1, act := { d.act with count := d.act.count - 1 } }

/-- The next beat leaves, at its first stage. -/
def beatOut (n : BitVec 8) (t : BeatStage) (b : Block) : Block :=
  b.modChan n (fun d =>
    let d := dmaSpend d
    dmaAdvance { d with out := d.out ++ [{ idx := d.aBeat.toNat, stage := t }] })

/-- What R309 and R334 make of the next ledgered beat: it waits for its append, is issued, skipped, or fails. While the
partner of a mirrored ring is lost, it waits (R379). -/
inductive Ledgered where
  | append | wait | issue | skip | mismatch
  deriving DecidableEq, Repr

def ledgered (b : Block) (n : BitVec 8) : Ledgered :=
  let d := b.chan n
  match d.item with
  | none => .issue
  | some (e, setno) =>
    let v := ringRec b (entryOf b e).ring
    if v.mirror && (b.fed.pair v.peer).lost then .wait
    else match findJrn b e setno d.aBeat.toNat with
    | none => .append
    | some j =>
      let v := jrnOf b j
      if v.st = 2 then
        if v.haddr = (BitVec.ofNat 52 (beatDst d d.aBeat.toNat)).extractLsb' 6 46 then .skip else .mismatch
      else if b.con.mirWaits.any (fun w => w.act == .append n) then .wait else .issue

/-- The item of the channel's set is read, with its ring and its chain. -/
def healBeat (n : BitVec 8) (b : Block) : Block := match (b.chan n).item with
  | some (e, _) => healRing (entryOf b e).ring (healItem e b)
  | none => b

/-- DMA_BEAT_ISSUE. -/
def opDmaBeatIssue (n : BitVec 8) (b : Block) : Block :=
  let b := healBeat n b
  if !(dmaMayIssue b n) then b
  else
    let d := b.chan n
    let i := d.aBeat.toNat
    match ledgered b n with
    | .append | .wait => b
    | .skip => dmaSettle n (b.modChan n (fun d =>
        dmaAdvance { dmaSpend d with aDone := d.aDone + 1, beats := d.beats.count b.now 1, skips := d.skips.count b.now 1 }))
    | .mismatch => dmaSettle n (b.modChan n (fun d => { dmaSpend d with failed := d.failed ++ [(i, 7)] }))
    | .issue =>
      if dmaThrottled n b then countPerturb b
      else if d.act.dir = dmaH2L then
        let x := hostIssue d.act.port false
          (hostReq b (.dma n i) (BitVec.ofNat 52 (beatSrc d i)) d.act.tenant []) b
        if x.2 then dmaNote n (beatOut n .hostRead x.1) else { b with dbg := x.1.dbg }
      else dmaNote n (beatOut n .localRead b)

/-- JOURNAL_APPEND: the record of the next ledgered beat; on a mirrored ring its update is sent too (R334, R378). A beat
that finds no free record waits (R335). -/
def opJournalAppend (n : BitVec 8) (b : Block) : Block :=
  let b := healBeat n b
  let d := b.chan n
  match d.item with
  | some (e, setno) =>
    if dmaMayIssue b n && ledgered b n == .append then
      match freeRecord b with
      | some j =>
        let b := appendJrn e j d.aBeat.toNat n setno (BitVec.ofNat 52 (beatDst d d.aBeat.toNat)) b
        let r := (entryOf b e).ring
        if (ringRec b r).mirror then mirrorSend r 0x02 (jrnOf b j).enc false (.append n) b else b
      | none =>
        let b' := b.modCon (fun c => { c with jfull := c.jfull.set b.now, jWaiting := true })
        if b.con.jWaiting then b' else conDetect 2 0 b'
    else b
  | none => b

/-- The code with which a bank refuses a beat's local access (R304). -/
def beatRefused : BankCheck → BitVec 3
  | .pass => 0
  | .bus => 6
  | .region => 5
  | .memue => 4

/-- The reads of a beat's rows arrive at their banks (R231). -/
def localArrive (n : BitVec 8) (i : Nat) (ecc : Ecc) (b : Block) : Block :=
  let d := b.chan n
  arrive b d.act.tenant true false (beatSrc d i) (beatLen d i) (rowLines (beatSrc d i) (beatLen d i)) ecc

/-- What the banks answer to them. -/
def localCheck (n : BitVec 8) (i : Nat) (ecc : Ecc) (b : Block) : BankCheck :=
  let d := b.chan n
  bankCheck (localArrive n i ecc b) d.act.tenant true false (beatSrc d i) (beatLen d i)

/-- The beat's reads fail at their banks. -/
def localFails (n : BitVec 8) (i : Nat) (ecc : Ecc) (b : Block) : Bool :=
  beatStage (b.chan n) i == some .localRead && localCheck n i ecc b != .pass

/-- DMA_LOCAL_READ_DONE: the row reads are performed; the host write is issued where a slot is free, or the local
writes (R291). The error is in one of the rows read (R231). -/
def opDmaLocalReadDone (n : BitVec 8) (i : Nat) (ecc : Ecc) (b : Block) : Block :=
  let d := b.chan n
  if beatStage d i ≠ some .localRead then b
  else
    let a := beatSrc d i
    let len := beatLen d i
    let k := localCheck n i ecc b
    let b := localArrive n i ecc b
    match k with
    | .pass =>
      let b' := memPerturb a (touch true false a len b)
      let l := readBytes b' a len
      if d.act.dir = dmaL2H then
        let x := hostIssue d.act.port true (hostReq b (.dma n i) (BitVec.ofNat 52 (beatDst d i)) d.act.tenant l) b'
        if x.2 then setStage n i .hostWrite x.1 else { b with dbg := x.1.dbg }
      else setStage n i (.localWrite l) b'
    | k => beatDone n i (beatRefused k) b

/-- DMA_BEAT_COMPLETE: the beat's row writes are performed; they end reservations on their words (R248, R291). The error is
in one of the rows that they write in part (R231). -/
def opDmaBeatComplete (n : BitVec 8) (i : Nat) (ecc : Ecc) (b : Block) : Block :=
  let d := b.chan n
  match beatStage d i with
  | some (.localWrite l) =>
    let a := beatDst d i
    let b := arrive b d.act.tenant false true a l.length (mergeLines true a l.length) ecc
    match bankCheck b d.act.tenant false true a l.length with
    | .pass => beatDone n i 0 (memPerturb a (spineWrite a l b))
    | k => beatDone n i (beatRefused k) b
  | _ => b

/-! ### Host responses (R293, R304, R515) -/

/-- The answer of a beat's host access: a host read carries its data on, a host write ends the beat. -/
def beatAnswer (n : BitVec 8) (i : Nat) (code : BitVec 3) (data : Beat) (b : Block) : Block :=
  let d := b.chan n
  match beatStage d i with
  | some .hostRead =>
    if code = 0 then setStage n i (.localWrite (bytesOf (beatLen d i) data)) b else beatDone n i code b
  | some .hostWrite =>
    let b := (match d.item with
      | some (e, setno) => if code = 0 then confirmJrn e setno i b else b
      | none => b)
    beatDone n i code b
  | _ => b

/-- What an answer does for the request that it ends; `code` is 0 for OK. -/
def hostAnswer (q : HostReq) (code : BitVec 3) (data : Beat) (b : Block) : Block :=
  match q.user with
  | .dma n i => beatAnswer n i code data b
  | .desc r first c => descAnswer r first c (code == 0) data b
  | .head r tries => headAnswer r tries q.data (code == 0) b
  | .compl r csn tries => complAnswer r csn tries q.data (code == 0) b
  | .refetch e csn => refetchAnswer e csn (code == 0) data b
  | .orphan => b

/-- A response that names no outstanding request of its generation is discarded, with LATERSP (R515). -/
def lateResponse (p : Bool) (tag : BitVec 12) (b : Block) : Block :=
  detect (0x560 + p.toNat) 1 ((tag.extractLsb' 0 10).setWidth 24) b

/-- ERRCODE of a response status: OK, ERROR, POISON; 0b11 and a write's 0b10 count as ERROR (R304, R514). -/
def readCode (status : BitVec 2) : BitVec 3 := if status = 0 then 0 else if status = 2 then 2 else 1
def writeCode (status : BitVec 2) : BitVec 3 := if status = 0 then 0 else 1

def opHostReadResponse (p : Bool) (tag : BitVec 12) (status : BitVec 2) (data : Beat) (b : Block) : Block :=
  match tagged (b.port p) false tag with
  | some q => hostAnswer q (readCode status) data (freeHost p false (tag.extractLsb' 0 10).toNat false b)
  | none => lateResponse p tag b

def opHostWriteResponse (p : Bool) (tag : BitVec 12) (status : BitVec 2) (b : Block) : Block :=
  match tagged (b.port p) true tag with
  | some q => hostAnswer q (writeCode status) 0 (freeHost p true (tag.extractLsb' 0 10).toNat false b)
  | none => lateResponse p tag b

/-- HOST_TIMEOUT: 1,048,576 ticks without a response; the slot is freed under a new generation (R293). -/
def opHostTimeout (p write : Bool) (slot : Nat) (b : Block) : Block :=
  let h := b.port p
  match Map.get none (if write then h.writes else h.reads) slot with
  | some q => if q.at_ + 1048576 ≤ b.now then hostAnswer q 3 0 (freeHost p write slot true b) else b
  | none => b

/-! ### Writes of DMA_CTL (R294, R301..R307) -/

def dmaStart (n : BitVec 8) (b : Block) : Block := b.modChan n (dmaAddCredit b.now)

def dmaPause (n : BitVec 8) (b : Block) : Block :=
  dmaSettle n (b.modChan n (fun d => { d with
    pauseReq := true, st := if d.st = .run ∨ d.st = .waitc then .pausing else d.st }))

def dmaResume (n : BitVec 8) (b : Block) : Block :=
  b.modChan n (fun d =>
    let d := { d with pauseReq := false }
    if d.st = .paused then { d with st := dmaNatural d }
    else if d.st = .pausing ∧ ¬ d.aborting then { d with st := .run } else d)

def dmaAbort (n : BitVec 8) (b : Block) : Block :=
  let d := b.chan n
  if d.st = .idle ∨ d.st = .error then b
  else if d.st = .armed then
    dmaIdle n (dmaEndSet n (b.modChan n (fun d => { d with aborted := d.aborted.set b.now })))
  else dmaSettle n (b.modChan n (fun d => { d with aborted := d.aborted.set b.now, aborting := true, st := .pausing }))

def dmaClrerr (n : BitVec 8) (b : Block) : Block :=
  if (b.chan n).st = .error then dmaIdle n (b.modChan n (fun d => { d with errCode := 0 })) else b

/-- A write of DMA_CTL: its bits act in the order of R307. -/
def writeDmaCtl (n : BitVec 8) (v : Reg32) (b : Block) : Block :=
  let b := if v.getLsbD 4 then dmaClrerr n b else b
  let b := if v.getLsbD 3 then dmaAbort n b else b
  let b := if v.getLsbD 2 then dmaResume n b else b
  let b := if v.getLsbD 1 then dmaPause n b else b
  if v.getLsbD 0 then dmaStart n b else b

/-- A write of a shadow register; a context's write forces TENANT, OWNER and OWNV (R286): the tenant that its store
carries. -/
def writeDmaShadow (o : Origin) (n : BitVec 8) (reg : DmaReg) (v : Reg32) (b : Block) : Block :=
  let b := b.modChan n (fun d =>
    let s := d.sh
    match reg with
    | .srcLo => { d with sh := { s with src := s.src.extractLsb' 32 20 ++ v } }
    | .srcHi => { d with sh := { s with src := v.extractLsb' 0 20 ++ s.src.extractLsb' 0 32 } }
    | .dstLo => { d with sh := { s with dst := s.dst.extractLsb' 32 20 ++ v } }
    | .dstHi => { d with sh := { s with dst := v.extractLsb' 0 20 ++ s.dst.extractLsb' 0 32 } }
    | .count => { d with sh := { s with count := v.extractLsb' 0 20 } }
    | .cfg => { d with sh := { s with cfg := v &&& 0x3FFFFFFF } }
    | .tag => { d with
        sh := { s with tenant := v.extractLsb' 0 12, owner := v.extractLsb' 12 16, ownv := v.getLsbD 28 }
        arm := v.getLsbD 31, armAt := b.now }
    | .jrefLo => { d with sh := { s with csn := setLo s.csn v } }
    | .jrefHi => { d with sh := { s with csn := setHi s.csn v, ring := v.extractLsb' 16 12 } })
  match o with
  | .ctx e k =>
    let c := b.ctx (ctxNo e k)
    b.modChan n (fun d => { d with sh := { d.sh with
      tenant := ((firstWindow (b.eng e) k).map (fun x => x.2.tenant)).getD (reqTenant c c.lvl), owner := c.chan.getD 0, ownv := true } })
  | _ => b

/-! ### Reset (R310) -/

/-- The channel is reset: its set ends, its beats are abandoned, and their answers will be discarded. -/
def resetDma (n : BitVec 8) (b : Block) : Block :=
  let b := dmaEndSet n b
  let off (m : Map (Option HostReq)) : Map (Option HostReq) := m.map (fun x => (x.1, x.2.map (fun q =>
    match q.user with
    | .dma k _ => if k = n then { q with user := .orphan } else q
    | _ => q)))
  let b := [false, true].foldl (fun b p => b.modPort p (fun h => { h with reads := off h.reads, writes := off h.writes })) b
  let b := b.modCon (fun c => { c with mirWaits := c.mirWaits.map (fun w =>
    if w.act = .append n then { w with act := .none } else w) })
  b.modChan n (fun _ => {})

end Sys2Proof.Machine
end

