-- ==== Sys2Proof/Machine/Resets.lean ====
section
/-! DEFINITION. Resets of contexts, engines, clusters and sections (R418..R425), the engine watchdogs' running (R452, R453),
machine checks and the repair of the control store (R187..R191). -/

namespace Sys2Proof.Machine
open Sys2Proof

/-! ### Leases while their owner is HALT, by the debugger or a machine check (R188, R476) -/

/-- The expiry of a halted owner's reservation begins to move with the next tick. -/
def holdLeases (n : CtxNo) (b : Block) : Block :=
  if b.dbg.holdLease then
    { b with leases := b.leases.map (fun l =>
        if l.owner = n ∧ l.heldSince = none then { l with heldSince := some b.now } else l) }
  else b

/-- The moving ends after tick `last`. -/
def Lease.unhold (last : Nat) (l : Lease) : Lease := match l.heldSince with
  | some t => { l with expiry := l.expiry + (last - t), held := l.held + (last - t), heldSince := none }
  | none => l

/-- A released owner's reservation moves no more: the present tick is not a held one. -/
def releaseLeases (n : CtxNo) (b : Block) : Block :=
  { b with leases := b.leases.map (fun l => if l.owner = n then l.unhold (b.now - 1) else l) }

/-! ### When an engine is held in reset, and its watchdog (R170, R191, R406, R410, R412, R452, R453) -/

/-- The cluster's store lets its engines run: neither EMPTY nor OUT, nor being loaded. -/
def Clu.runs (v : Clu) : Bool := decide (v.state = .loaded ∨ v.state = .patching ∨ v.state = .repair)

/-- The engine is held in reset: the mode, the stop, its section or its cluster holds it. -/
def engineHeld (b : Block) (e : EngId) : Bool :=
  !(b.mode.issues) || b.sup.stopped || b.fenced (secOf e) || !(b.clu (cluOf e)).runs

def Block.wdog (b : Block) (e : EngId) : Wdog := Map.get {} b.imp.wdogs e.toNat
/-- The period in ticks: PER below 10 acts as 10. -/
def Wdog.period (w : Wdog) : Nat := 2 ^ max 10 w.per.toNat

/-- The watchdog runs (R452, R453). -/
def wdRuns (b : Block) (e : EngId) : Bool :=
  let g := b.eng e
  (b.wdog e).en && !g.inReset && !(b.fenced (secOf e)) && (b.clu (cluOf e)).runs && !(b.clu (cluOf e)).asleep &&
  !(g.halted && b.imp.dbgFreeze)

/-- It is reloaded with the full period where it runs, and does not count where it does not. -/
def wdReload (e : EngId) (b : Block) : Block :=
  b.modEng e (fun g => { g with wdDeadline := if wdRuns b e then some (b.now + (b.wdog e).period) else none })

/-- An engine is released from reset. -/
def releaseEngine (e : EngId) (b : Block) : Block :=
  wdReload e (b.modEng e (fun g => { g with inReset := false }))

/-- The engines of a cluster are released where nothing holds them (R410, R412). -/
def releaseCluster (c : CluId) (b : Block) : Block :=
  allEngIn.foldl (fun b i => let e := mkEng c i
    if (b.eng e).inReset && !(engineHeld b e) then releaseEngine e b else b) b

/-! ### Context reset (R421..R423, R336) -/

/-- The Syntax core owes a rebind of a bound channel (R402). -/
def oweRebind (cause : Byte) (ch : Chan) (b : Block) : Block :=
  if csbValid b ch && !(b.syn.rebinds.any (fun x => x.chan == ch)) then
    { b with syn := { b.syn with rebinds := b.syn.rebinds ++ [{ chan := ch, cause := cause, stamp := b.tick, at_ := b.now }] } }
  else b

/-- The tags that a context has pending are freed, and their GENs advance (R422). -/
def freeTags (k : CtxId) (g : Eng) : Eng :=
  (g.pends k).foldl (fun g p => { g.setTag p.1 none with
    tagGen := Map.mod 0 g.tagGen p.1.toNat (· + 1), afxQ := g.afxQ.filter (fun t => t != p.1) }) g

/-- Requests in the order of their W stages. -/
def insertSeq (p : Pend) : List Pend → List Pend
  | [] => [p]
  | q :: l => if p.seq < q.seq then p :: q :: l else q :: insertSeq p l
def bySeq (l : List Pend) : List Pend := l.foldr insertSeq []

/-- A request is a store into memory. -/
def Pend.isStore (p : Pend) : Bool := match p.kind with
  | .mem op => !(isLoadOp op) && op != 0x19 && op != 0x1A
  | _ => false

/-- A store that has left before a reset is performed (R422), where its banks pass it. -/
def landStore (e : EngId) (p : Pend) (b : Block) : Block := match p.kind with
  | .mem op =>
    let a := p.ea.toNat
    let sz := opSize op
    let b := arrive b p.tenant false true a sz (mergeLines false a sz) .ok
    if bankCheck b p.tenant false true a sz = .pass then bankWrite (ctxNo e p.k) a (bytesOf sz p.data) b else b
  | _ => b

/-- The memory stores of an engine's contexts that have left before the reset tick. What else has left and is not yet performed (an
access of the register window, a step of a long operation, a call frame) is dropped: the spec does not say (the model's choice,
log entry 108). -/
def landStores (e : EngId) (mine : CtxId → Bool) (b : Block) : Block :=
  (bySeq (((List.range 32).filterMap (fun t => (b.eng e).tag (BitVec.ofNat 5 t))).filter (fun p => p.isStore && mine p.k))).foldl
    (fun b p => landStore e p b) b

/-- Those of a whole engine: their requests are complete. -/
def landEngine (e : EngId) (b : Block) : Block :=
  (landStores e (fun _ => true) b).modEng e (fun g => { g with tags := g.tags.filter (fun x => !(x.2.any Pend.isStore)) })

/-- A context is reset: it is FREE, and what it held is released. Cause 1 a context reset, 2 an engine reset, 3 a block
reset, 0 a fence, which leaves the rebind to the unfence. -/
def resetCtx (cause : Byte) (n : CtxNo) (b : Block) : Block :=
  let e := engOf n
  let k := ctxOf n
  let c := b.ctx n
  let lost := chansOf c
  let b := replayTaken (fun ch => lost.contains ch) b
  let b := if cause = 0 then b else lost.foldl (fun b ch => oweRebind cause ch b) b
  let b := { b with leases := b.leases.filter (fun l => l.owner != n) }
  let b := withdraw n b
  let b := landStores e (fun x => x == k) (releaseOwn (fun _ => true) n b)
  let b := b.modEng e (fun g =>
    let g := freeTags k g
    { g with
      div := match g.div with
        | some d => if d.k = k then none else some d
        | none => none
      xb1 := if g.xb1.held ∧ g.xb1.owner = k then { g.xb1 with held := false } else g.xb1
      xb2 := if g.xb2.held ∧ g.xb2.owner = k then { g.xb2 with held := false } else g.xb2
      waitq := g.waitq.filter (fun x => x != k)
      injErr := g.injErr.setIf b.now c.inj.isSome
      dbg := { g.dbg with step := if g.dbg.step = some k then none else g.dbg.step } })
  b.setCtx n {}

/-! ### Rings that leave HELD (R340, R412, R416) -/

/-- Every channel of the ring's set is in service and bound. -/
def ringUsable (b : Block) (v : RingRec) : Bool :=
  !(anyChan v.chbase v.chans (fun ch =>
    outOfService b ch || !(csbValid b ch) || b.syn.rebinds.any (fun x => x.chan == ch)))

/-- A ring whose channels are back goes on: it leaves the HELD state of R340, or of a stop that has ended, and resumes
the fetch that a partial QUIESCE has stopped. -/
def unholdRings (b : Block) : Block :=
  if b.sup.stopped || b.mode == .quiesce || (b.mode == .recover && b.sup.ret == .quiesce) then b
  else (liveRings b).foldl (fun b r =>
    let v := ringRec b r
    let q := b.ring r
    if v.copy || !(ringUsable b v) then b
    else
      let b := if q.quiet then b.modRing r (fun q => { q with quiet := false }) else b
      if v.st = rsHELD ∧ !q.bad ∧ q.lostFrom = none then drained r (setRingState r (if destroying b r then rsDRAIN else rsACTIVE) b)
      else b) b

/-! ### Engine, cluster and section resets (R421, R422, R425) -/

/-- An engine's own state after its reset: ENG_CTX_EN, ENG_IRQEN, ENG_EVSEL, the banks' STKBASE, the ready queue, the
counters, WERR and the debug configuration are kept. -/
def resetEngState (g : Eng) : Eng :=
  { ctxEn := g.ctxEn, irqMask := g.irqMask, swi := g.swi, werr := g.werr, rdyHi := g.rdyHi, rdyLo := g.rdyLo
    swapCnt := g.swapCnt, csConf := g.csConf, issue := g.issue, afxLate := g.afxLate, evSel := g.evSel
    tagGen := (List.range 32).foldl (fun m t => Map.mod 0 m t (· + 1)) g.tagGen
    xb1 := { stkBase := g.xb1.stkBase }, xb2 := { stkBase := g.xb2.stkBase }
    injD := g.injD, injCtx := g.injCtx, injSys := g.injSys, injDone := g.injDone, injErr := g.injErr
    dbg := { mode := g.dbg.mode, haltAll := g.dbg.haltAll, injCause := g.dbg.injCause, monIn := g.dbg.monIn,
             monOut := g.dbg.monOut, cmp := g.dbg.cmp } }

/-- An engine is reset; it runs again at once unless something holds it. A pending patch generation activates (R185). In
TEST it stays as the Debug Access Port left it. -/
def resetEngine (cause : Byte) (e : EngId) (b : Block) : Block :=
  let gen := (b.eng e).tagGen
  let held := engineHeld b e || (b.mode == .test && (b.eng e).inReset)
  let b := trigger (cluOf e) ((ctxsOf e).foldl (fun b n => resetCtx cause n b) (landEngine e b))
  let b := b.modEng e (fun g => resetEngState { g with tagGen := gen })
  let b := times 4 (fun k b => b.modTimer (cluOf e) (etIdx e k) (fun _ => {})) b
  let b := if b.fenced (secOf e) then b else activateEngine e b
  if held then b else releaseEngine e b

/-- A comparator of the pool after a cluster reset: its configuration is kept. -/
def resetPool (m : Map Cmp) : Map Cmp :=
  ((List.range 16).foldl (fun m p => Map.mod {} m p (fun c => { c with count := {} })) m)

/-- A cluster is reset. -/
def resetCluster (cause : Byte) (c : CluId) (b : Block) : Block :=
  let b := allEngIn.foldl (fun b i => resetEngine cause (mkEng c i) b) b
  { b with csRr := b.csRr.filter (fun x => x.1 / 16 != c.toNat) }.modClu c (fun v => { v with
    timers := [], wsel := [], wlo := [], lanes := { levels := v.lanes.levels }, bars := [], afxRr := 7
    pool := resetPool v.pool, aerr := {}, resetAt := none })

/-- The channels of a section. -/
def secChans (s : SecId) : List Chan := (List.range 8192).map (fun i => (s ++ BitVec.ofNat 13 i : BitVec 16))

/-- Every parked channel of a section whose CSB is VALID joins its ready queue (R425). -/
def requeueParked (s : SecId) (b : Block) : Block :=
  (secChans s).foldl (fun b ch => if parked b ch then joinReady ch b else b) b

/-- The clusters, channels, lease table, region entries, ready queues and channel events of a section are reset. -/
def resetSecParts (cause : Byte) (s : SecId) (b : Block) : Block :=
  let b := times 8 (fun i b => resetCluster cause (s ++ BitVec.ofNat 3 i : BitVec 6) b) b
  let b := times 32 (fun i b => resetDma (s ++ BitVec.ofNat 5 i : BitVec 8) b) b
  let b := { b with leases := b.leases.filter (fun l => !(l.unit == s.toNat)) }
  let b := b.modUnit s.toNat (fun u => { u with rgn := [] })
  let b := times 64 (fun i b => b.modEng (s ++ BitVec.ofNat 6 i : BitVec 9) (fun g => { g with rdyHi := [], rdyLo := [] })) b
  { b with fab := { b.fab with chEv := b.fab.chEv.filter (fun x => !(x.1 / 8192 == s.toNat)) } }

/-- A section reset without a fence (R421, R425). -/
def resetSection (s : SecId) (b : Block) : Block := requeueParked s (resetSecParts 2 s b)

/-! ### Fences and OUT (R191, R340, R411) -/

/-- The stores of a section's engines that have left before its fence are performed, before the section is isolated. -/
def landSection (s : SecId) (b : Block) : Block :=
  ((b.engs.map (fun x => (BitVec.ofNat 9 x.1 : EngId))).filter (fun e => secOf e == s)).foldl (fun b e => landEngine e b) b

/-- A section is fenced: it is isolated and reset, and the rings of its channels are reassigned. -/
def fence (s : SecId) (b : Block) : Block :=
  let b := landSection s b
  let b := b.modSec s (fun x => { x with fenced := true, fenceAt := none, resetAt := none })
  reassignWhere (fun ch => ch.extractLsb' 13 3 == s) ((resetSecParts 0 s b).cut (partSec s))

/-- A cluster enters OUT: it is reset, its engines are held in reset, and its rings are reassigned (R191, R404, R418). -/
def goOut (c : CluId) (b : Block) : Block :=
  if (b.clu c).state = .out then b
  else
    let b := b.modClu c (fun v => { v with state := .out, repairs := [], pmWait := 0, pmRepair := false, stagedPm := [], outAt := none })
    let b := (resetCluster 2 c b).cut (partClu c)
    queueEvent 2 [c.setWidth 8] (reassignWhere (fun ch => ch.extractLsb' 10 6 == c) b)

/-- The cluster goes OUT in the next tick, at rank 1 (R418, R445). -/
def requestOut (c : CluId) (byReaction : Bool) (b : Block) : Block :=
  b.modClu c (fun v => { v with outAt := some (b.now + 1, byReaction || v.outAt.any (·.2)) })

/-! ### The reset rows (R418, R419) -/

/-- CONTEXT_RESET: a reset of the context has been requested and is due. -/
def opContextReset (n : CtxNo) (b : Block) : Block :=
  let e := engOf n
  match (b.eng e).ctxResetAt with
  | some (t, m) =>
    if t ≤ b.now ∧ m.getLsbD (ctxOf n).toNat then
      let b := b.modEng e (fun g =>
        let m' := putBit m (ctxOf n).toNat false
        { g with ctxResetAt := if m' = 0 then none else some (t, m') })
      if b.fenced (secOf e) then b else (resetCtx 1 n b).cut (partCtx n)
    else b
  | none => b

/-- The request has come. -/
def due (t : Option Nat) (now : Nat) : Bool := match t with
  | some d => decide (d ≤ now)
  | none => false

/-- ENGINE_RESET. -/
def opEngineReset (e : EngId) (b : Block) : Block :=
  if due (b.eng e).resetAt b.now then
    (resetEngine 2 e (b.modEng e (fun g => { g with resetAt := none }))).cut (partEng e)
  else b

/-- SECTION_RESET. -/
def opSectionReset (s : SecId) (b : Block) : Block :=
  if due (b.sec s).resetAt b.now then
    let b := b.modSec s (fun x => { x with resetAt := none })
    if b.fenced s then b else (resetSection s b).cut (partSec s)
  else b

/-! ### Machine checks and repair (R187..R191) -/

/-- The slices of a failed word as EINFO and CLU_CS_MCHK hold them: FADDR, SLICE and LBUF (R188). -/
def mchkInfo (fa : CsAddr) (bad : BitVec 10) (lbuf : Bool) (w : Nat) : BitVec w :=
  fa.setWidth w ||| bad.setWidth w <<< 14 ||| (if lbuf then BitVec.ofNat w 0x1000000 else 0)

/-- An upset of the bits `flip` in the storage that a fetch of `x` reads: the loop buffer's word, or the store's. -/
def upset (e : EngId) (x : CsAddr) (flip : PWord) (b : Block) : Block :=
  let g := b.eng e
  if inLoop g x then
    b.setEng e { g with lbBuf := Map.set none g.lbBuf (g.lbOff x) (some (fetchP b e x ^^^ flip)) }
  else
    let k := csKey (cluOf e) (fetchAddr b e x)
    { b with cs := Map.set 0 b.cs k (Map.get 0 b.cs k ^^^ flip) }

/-- A context that holds a bank takes its machine check on it: the bank shows the cause (R162, R188). -/
def bankMchk (n : CtxNo) (m : Mchk) (b : Block) : Block :=
  match (b.ctx n).lvl with
  | .prog => b
  | .bank1 => b.modEng (engOf n) (fun g => { g with xb1 := { g.xb1 with ecause := m.ecause, einfo := m.einfo } })
  | .bank2 => b.modEng (engOf n) (fun g => { g with xb2 := { g.xb2 with ecause := m.ecause, einfo := m.einfo } })

/-- MACHINE_CHECK: the next word of the context fails its parity, with the bits `flip` upset; `stored` tells whether the
upset lies in the storage that the fetch reads. The context stops on the word. A word that fails on its way into the loop
buffer empties it (R187). -/
def opMachineCheck (n : CtxNo) (flip : PWord) (stored : Bool) (b : Block) : Block :=
  let e := engOf n
  let c := cluOf e
  let upc := (b.ctx n).upc
  let fa := fetchAddr b e upc
  let bad := (fetchP b e upc ^^^ flip).bad
  if canIssue b n && decide (upc.toNat ≤ 0x21FF) && bad != 0 then
    let lbuf := inLoop (b.eng e) upc
    let capture := (b.eng e).inRange upc && !lbuf
    let x : Exc := { code := 0x01, kind := 0, sub := 0, fupc := upc, lvl := (b.ctx n).lvl }
    let m : Mchk := { addr := fa, einfo := mchkInfo fa bad lbuf 48
                      ecause := ecause x (b.ctx n).act.midLong (decide ((b.ctx n).lvl = .bank2)) }
    let b := if stored then upset e upc flip b else b
    let b := if capture then b.modEng e (fun g => { g with lbBuf := [] }) else b
    let b := bankMchk n m (holdLeases n ((abandon n (select n b)).modCtx n (fun x => { x with mchk := some m })))
    let b := b.modClu c (fun v => { v with
      perr := v.perr.count b.now 1
      mchk := mchkInfo fa bad lbuf 32 ||| fld 25 (engIn e) ||| fld 28 (ctxOf n)
      repairs := if v.repairs.any (fun r => r.addr == fa && !r.ended) then v.repairs else v.repairs ++ [{ addr := fa }] })
    let b := detect e.toNat 1 (upc.setWidth 24 ||| (ctxOf n).setWidth 24 <<< 14) b
    detect (0x400 + c.toNat) 1 (fa.setWidth 24 ||| (engIn e).setWidth 24 <<< 14 ||| (ctxOf n).setWidth 24 <<< 17) b
  else b

/-- The address that a redirection of the failed word at `a` names, and the index below which its entry must lie: those
of the lowest enabled entry that names the patch-area word; else `a` itself. -/
def repairOrig (v : Clu) (a : CsAddr) : CsAddr × Nat :=
  match (List.range 32).find? (fun i =>
      let r := Map.get 0 v.pm i
      pmEn r && 0x2000 + (pmPaddr r).toNat == a.toNat) with
  | some i => (pmOrig (Map.get 0 v.pm i), i)
  | none => (a, 32)

/-- The address whose golden word belongs at `a`: for a repair entry's word, that of the word which it replaced (R189). -/
def repairSource (v : Clu) (a : CsAddr) : CsAddr :=
  let o := repairOrig v a
  if o.2 < 32 ∧ pmRepairBit (Map.get 0 v.pm o.2) then
    match (List.range 32).find? (fun i =>
        let r := Map.get 0 v.pm i
        pmEn r && !(pmRepairBit r) && pmOrig r == o.1) with
    | some i => 0x2000 + (pmPaddr (Map.get 0 v.pm i)).setWidth 14
    | none => o.1
  else a

/-- The highest free index below `top`. -/
def freeEntry (v : Clu) (top : Nat) : Option Nat := ((List.range top).reverse).find? (fun i => !(pmEn (Map.get 0 v.pm i)))
/-- A free patch-area word: the lowest that still holds the filler and that no enabled entry names. The words of removed
patches therefore never become free (the spec does not say which words are free: the model's choice, log entry 87). -/
def freePatchWord (b : Block) (c : CluId) : Option (BitVec 9) :=
  ((List.range 512).map (BitVec.ofNat 9)).find? (fun p =>
    (csWord b c (0x2000 + p.setWidth 14)).word == fillerWord &&
    !((List.range 32).any (fun i => let r := Map.get 0 (b.clu c).pm i; pmEn r && pmPaddr r == p)))

/-- Both golden copies fail, or no room is left: the cluster goes OUT (R191). -/
def repairFails (c : CluId) (a : CsAddr) (b : Block) : Block :=
  detect (0x400 + c.toNat) 3 (a.setWidth 24) (requestOut c false b)

/-- CS_REPAIR: the Syntax core repairs the oldest failed word, unless the repair generation of that word is in progress. `readback`
tells whether the word reads back right after it is written; `bad0` and `bad1` whether a replica's golden word is uncorrectable.
Only a new generation waits for one in progress (R190). A word that fails again within 1 ms is redirected and not written at its
own address: R189 does not say whether step 2 comes before step 3 (the model's choice, log entry 106). -/
def opCsRepair (c : CluId) (readback bad0 bad1 : Bool) (b : Block) : Block :=
  let v := b.clu c
  match v.repairs.find? (fun r => !r.ended) with
  | none => b
  | some r =>
    if !v.runs || v.pmRepair || v.outAt.isSome then b
    else
      let a := r.addr
      let w := csWord b c a
      match goldenFor b v (repairSource v a) bad0 bad1 with
      | none => repairFails c a b
      | some g =>
        let finish (b : Block) : Block := b.modClu c (fun v => { v with repairs := endFirst v.repairs })
        let again := (match v.lastRepair.find? (fun x => x.1 == a.toNat) with
          | some x => decide (b.now < x.2 + 1000000)
          | none => false)
        if w.bad = 0 ∧ w = g then finish b
        else if readback && !again then
          let b := csWrite c a g b
          let b := b.modClu c (fun v => { v with lastRepair := Map.insert (Map.erase v.lastRepair a.toNat) a.toNat b.now })
          finish (detect (0x400 + c.toNat) 2 (a.setWidth 24) b)
        else if v.state ≠ .loaded then b
        else
          let o := repairOrig v a
          match freeEntry v o.2, freePatchWord b c with
          | some i, some p =>
            let b := csWrite c (0x2000 + p.setWidth 14) g b
            let b := commitGen c (Map.set 0 v.pm i (mkPm o.1 p true)) true b
            detect (0x400 + c.toNat) 2 (a.setWidth 24 ||| 0x4000) b
          | _, _ => repairFails c a b

/-- CS_REPAIR_END: an ended repair; each context stopped on its word goes on as the policy gives (R190). A reset that the policy
gives is requested, and acts at rank 1 in the next tick (R418): until then the context stays stopped. -/
def opCsRepairEnd (c : CluId) (b : Block) : Block :=
  let v := b.clu c
  match v.repairs.find? (fun r => r.ended) with
  | none => b
  | some r =>
    let b := b.modClu c (fun v => { v with repairs := v.repairs.erase r })
    let stopped := ((List.range 128).map (fun i => (c ++ BitVec.ofNat 7 i : BitVec 13))).filter (fun n =>
      (b.ctx n).mchk.map (·.addr) == some r.addr)
    stopped.foldl (fun b n =>
      if (b.ctx n).mchk.map (·.addr) ≠ some r.addr then b
      else if v.policy = 0 then (releaseLeases n b).modCtx n (fun x => { x with mchk := none })
      else if v.policy = 1 then requestCtxReset (engOf n) (BitVec.ofNat 16 (2 ^ (ctxOf n).toNat)) b
      else requestEngineReset (engOf n) b) b

end Sys2Proof.Machine
end

