-- ==== Sys2Proof/Machine/Modes.lean ====
section
/-! DEFINITION. Modes, WAKE, section power, RECOVER, QUIESCE, block resets and cluster sleep (R406..R432, R526). -/

namespace Sys2Proof.Machine
open Sys2Proof

def Block.modSup (b : Block) (f : Sup → Sup) : Block := { b with sup := f b.sup }
def allSecs : List SecId := (List.range 8).map (BitVec.ofNat 3)
def allClus : List CluId := (List.range 64).map (BitVec.ofNat 6)
/-- The engines and clusters that the state lists: the others are as a cold reset leaves them. -/
def listedEngs (b : Block) : List EngId := b.engs.map (fun x => BitVec.ofNat 9 x.1)
def listedClus (b : Block) : List CluId := b.clus.map (fun x => BitVec.ofNat 6 x.1)

/-- The Syntax core programs a region entry: a locked one ignores it (R252). -/
def putRegion (u k first last : Nat) (b : Block) : Block :=
  b.modUnit u (fun m =>
    if (m.entry k).locked then m
    else
      let e : Rgn := { base := BitVec.ofNat 14 first, limit := BitVec.ofNat 14 last, ctl := 0x8C000000 }
      { m with rgn := Map.set {} m.rgn k e })
/-- Entries 15 and 14 of the dual-port region, over both copies of the ledger (R318), and entry 13, over the receive slots (R361;
the entry's number is the model's choice, log entry 109). -/
def ledgerRegions (b : Block) : Block := putRegion 8 13 0x1E0 0x1FF (putRegion 8 14 0x100 0x19F (putRegion 8 15 0 0x9F b))

/-- The block takes a mode; QDONE is cleared on leaving QUIESCE, and in LOAD the ledger's region entries are programmed
(R206, R318, R406, R434). -/
def setMode (m : Mode) (b : Block) : Block :=
  timersEnter m { (if m = .load then ledgerRegions b else b) with mode := m, sup := { b.sup with qdone := b.sup.qdone && m == .quiesce } }

def secPwrSrc (s : SecId) : Nat := 0x510 + s.toNat

/-! ### RECOVER and the stop (R408, R409, R411, R412) -/

/-- RECOVER is entered from SERVICE or QUIESCE; `secs` sections are fenced by what enters it. -/
def enterRecover (secs : Nat) (b : Block) : Block :=
  match b.mode with
  | .service | .quiesce =>
    setMode .recover (b.modSup (fun u => { u with ret := b.mode, recoverAt := b.now, recoverSecs := secs }))
  | .recover => b.modSup (fun u => { u with recoverSecs := u.recoverSecs + secs })
  | _ => b

/-- A section is fenced, and the block recovers. -/
def fenceRecover (s : SecId) (b : Block) : Block := if b.fenced s then b else fence s (enterRecover 1 b)

/-- SECTION_FENCE: a fence that a reaction has ordered is due. -/
def opSectionFence (s : SecId) (b : Block) : Block :=
  if due (b.sec s).fenceAt b.now then fenceRecover s (b.modSec s (fun x => { x with fenceAt := none })) else b

/-- RECOVER_END: every recovery window is closed; the block returns to its return mode. -/
def opRecoverEnd (b : Block) : Block :=
  if b.mode == .recover && !b.sup.stopped && !(recovering b) then unholdRings (setMode b.sup.ret b) else b

/-- The budget of the present RECOVER: 5 ms for each section fenced, 1.1 ms otherwise. -/
def recoverBudget (u : Sup) : Nat := if u.recoverSecs = 0 then 1100000 else 5000000 * u.recoverSecs

/-- The block stops: every engine is held in reset, and every ring is HELD. -/
def stopBlock (b : Block) : Block :=
  let b := b.modSup (fun u => { u with stopped := true, stopAt := none })
  let b := ((listedEngs b).foldl (fun b e => resetEngine 2 e b) b).cutEngines
  (liveRings b).foldl (fun b r => setRingState r rsHELD b) b

/-- CLUSTER_RESET: a reset of the cluster has been requested, or the cluster is to go OUT; where a reaction ordered it the block
recovers (R418, R445). -/
def opClusterReset (c : CluId) (b : Block) : Block :=
  match (b.clu c).outAt with
  | some (t, r) =>
    if t ≤ b.now then
      let b := goOut c (b.modClu c (fun v => { v with outAt := none }))
      if r then enterRecover 0 b else b
    else if due (b.clu c).resetAt b.now then (resetCluster 2 c b).cut (partClu c) else b
  | none => if due (b.clu c).resetAt b.now then (resetCluster 2 c b).cut (partClu c) else b

/-- RECOVER_OVERRUN: RECOVER has not returned within its budget and 1 ms. A stop that an L3 reaction or IREG has asked for
is due at the same place (R446, R458). -/
def opRecoverOverrun (b : Block) : Block :=
  if b.mode == .off || b.sup.stopped then b
  else if due b.sup.stopAt b.now ||
      (b.mode == .recover && decide (b.sup.recoverAt + recoverBudget b.sup + 1000000 < b.now)) then stopBlock b
  else b

/-! ### The power handshake (R254, R413, R414, R426) -/

/-- A section is treated as powered: its interleave takes effect and its banks are being cleared. -/
def powerUp (s : SecId) (b : Block) : Block :=
  (b.modSec s (fun x => { x with powered := true, reqAt := none, clearing := true })).modUnit s.toNat
    (fun u => { u with act := u.ilv })

/-- The block raises SEC_PWR_REQ: where ACK is still high the section is powered at once. -/
def raiseReq (s : SecId) (b : Block) : Block :=
  let b := b.modSec s (fun x => { x with req := true, reqAt := some b.now })
  if (b.sec s).ack then powerUp s b else b
/-- It lowers REQ. -/
def lowerReq (s : SecId) (b : Block) : Block :=
  b.modSec s (fun x => { x with req := false, reqAt := if x.ack then some b.now else none })

/-- A cold WAKE is under way. -/
def coldWake (b : Block) : Bool := b.mode == .wake && b.sup.before.isNone

/-- SEC_PWR_ACK_RISE. -/
def opSecPwrAckRise (s : SecId) (b : Block) : Block :=
  let x := b.sec s
  if b.mode = .off ∨ x.ack then b
  else
    let b := b.modSec s (fun x => { x with ack := true })
    if x.req then powerUp s b else detect (secPwrSrc s) 4 0 b

/-- SEC_PWR_ACK_FALL: unpowered as asked, or a section fault, which during the clearing of a cold WAKE lowers REQ. -/
def opSecPwrAckFall (s : SecId) (b : Block) : Block :=
  let x := b.sec s
  if b.mode = .off ∨ !x.ack then b
  else
    let b := b.modSec s (fun x => { x with ack := false, powered := false, reqAt := none, clearing := false })
    if !x.req then b
    else
      let b := detect (secPwrSrc s) 1 0 b
      if coldWake b && x.fenced then b.modSec s (fun x => { x with req := false }) else fenceRecover s b

/-- SEC_PWR_ACK_TIMEOUT: ACK has not followed a change of REQ within 1 ms. -/
def opSecPwrAckTimeout (s : SecId) (b : Block) : Block :=
  match (b.sec s).reqAt with
  | some t =>
    if t + 1000000 ≤ b.now ∧ b.mode ≠ .off ∧ (b.sec s).ack ≠ (b.sec s).req then
      detect (secPwrSrc s) 2 0 (b.modSec s (fun x => { x with req := false, reqAt := none }))
    else b
  | none => b

/-- WAKE_ACK_TIMEOUT: ACK is still low 9,000 ticks into a cold WAKE. -/
def opWakeAckTimeout (s : SecId) (b : Block) : Block :=
  let x := b.sec s
  if coldWake b && x.req && !x.ack && decide (9000 ≤ b.now) then
    detect (secPwrSrc s) 3 0 (b.modSec s (fun x => { x with req := false, reqAt := none }))
  else b

/-- The banks of a section are zeros without poison, and its lease table is empty (R254). -/
def clearBanks (s : SecId) (b : Block) : Block :=
  let inside (a : Nat) : Bool := a / 0x800000 == s.toNat
  { b with
    mem := b.mem.filter (fun x => !(inside x.1)), poison := b.poison.filter (fun l => !(inside (8 * l)))
    wbs := b.wbs.filter (fun l => !(inside (8 * l))), leases := b.leases.filter (fun l => l.unit != s.toNat) }

/-- SECTION_CLEAR_END: in a cold WAKE the fence bit clears; a section powered up later stays fenced until the Syntax core
has rebuilt it (R412, R426). -/
def opSectionClearEnd (s : SecId) (b : Block) : Block :=
  let x := b.sec s
  if x.clearing && x.powered && b.sup.fuseDone then
    let b := clearBanks s b
    if coldWake b then b.modSec s (fun x => { x with clearing := false, fenced := false })
    else b.modSec s (fun x => { x with clearing := false, rebuild := true })
  else b

/-! ### Fuses (R253, R457, R463, R526) -/

/-- A repair entry of a bank: a column in use, or one above 287, which fails with its record. -/
def fuseRepair (bank : Nat) (f : BitVec 10) (b : Block) : Block :=
  if !(f.getLsbD 9) then b
  else
    let u := if bank < 128 then bank / 16 else 8
    let i := if bank < 128 then bank % 16 else bank - 128
    if 287 < (f.extractLsb' 0 9).toNat then
      detect (bankSrc bank) 5 ((f.extractLsb' 0 9).setWidth 24)
        (b.modUnit u (fun m => { m with repair := Map.mod 0 m.repair i (fun v => v ||| 8) }))
    else b.modUnit u (fun m => { m with repair := Map.mod 0 m.repair i (· + 1) })

/-- The word at fuse index `i`. -/
def applyFuse (i : Nat) (d : Reg32) (b : Block) : Block :=
  if i < 0x120 then
    let k := i / 2
    if i % 2 = 0 then
      fuseRepair k (d.extractLsb' 20 10) (fuseRepair k (d.extractLsb' 10 10) (fuseRepair k (d.extractLsb' 0 10) b))
    else fuseRepair k (d.extractLsb' 0 10) b
  else if i < 0x12C then
    { b with imp := { b.imp with keyDig := b.imp.keyDig ||| (d.setWidth 384 <<< (32 * (i - 0x120))) } }
  else
    { b with
      imp := { b.imp with keyValid := d.getLsbD 0 }
      dbg := { b.dbg with fuseEn := d.getLsbD 1, mfr := d.extractLsb' 2 11 }
      sup := { b.sup with fuseDone := true } }

/-- FUSE_WORD and FUSE_TIMEOUT: the next fuse word of a WAKE is returned, or taken as 0. -/
def nextFuse (d : Reg32) (b : Block) : Block :=
  if b.mode == .wake && !b.sup.fuseDone then
    applyFuse b.sup.fuseIdx d (b.modSup (fun u => { u with fuseIdx := u.fuseIdx + 1 }))
  else b

/-! ### Cold reset and WAKE (R418, R426) -/

/-- A cold reset: the block is OFF. The TAP has a reset of its own, and the free values go on. -/
def coldReset (b : Block) : Block :=
  { free := b.free, dbg := { tap := b.dbg.tap, tapDr := b.dbg.tapDr, cells := b.dbg.cells } }

/-- POWER_ON: the first tick of a cold WAKE. -/
def opPowerOn (b : Block) : Block :=
  if b.mode ≠ .off then b
  else
    let b := { coldReset b with mode := .wake }
    let b := { b with syn := { b.syn with st := .boot }, imp := { b.imp with synDeadline := some (2 ^ 24) } }
    allSecs.foldl (fun b s => raiseReq s b) b

/-- TEST leaves memory, control stores and the registers named in R428 as a cold WAKE does; the fuse values apply again. -/
def testClear (b : Block) : Block :=
  let b := { b with mem := [], poison := [], wbs := [], leases := [], cs := [], con := {} }
  let b := times 256 (fun i b => resetDma (BitVec.ofNat 8 i) b) b
  let b := (listedClus b).foldl (fun b c => b.modClu c (fun v => {
    lanes := { levels := v.lanes.levels }, sleepCfg := v.sleepCfg, pool := v.pool, monEntry := v.monEntry,
    monValid := v.monValid, trigAt := v.trigAt })) b
  times 9 (fun u b => b.modUnit u (fun m => { unitReset u with repair := m.repair })) b

/-! ### Block reset and warm WAKE (R343, R420, R421, R425, R427, R499) -/

/-- The mirrored structures with an uncorrectable line. -/
def brokenStructs (b : Block) : List Nat :=
  b.poison.filterMap (fun l =>
    let off := 8 * l - 0x4000000
    if 0x4000000 ≤ 8 * l then (structAt (if 0x100000 ≤ off then off - 0x100000 else off)).map (·.1) else none)
/-- The entries whose ACTSETS, at byte 15 of the record, is not 0. -/
def activeEntries (b : Block) : List EntryNo :=
  b.mem.filterMap (fun x =>
    if dpr 0x40000 ≤ x.1 ∧ x.1 < dpr 0x80000 ∧ x.1 % 32 = 15 then some (BitVec.ofNat 13 ((x.1 - dpr 0x40000) / 32)) else none)

/-- The Concord unit after a block reset: ring registers and work queues from the records, every ACTSETS 0, every TAKEN
item to be replayed (R343, R421). -/
def resetConcord (b : Block) : Block :=
  let b := b.modCon (fun c => { c with refetch := [], jWaiting := false })
  let kept : List RingNo := b.con.rings.map (fun x => BitVec.ofNat 12 x.1)
  let b := (kept ++ (liveRings b).filter (fun r => !(kept.contains r))).foldl (fun b r =>
    let b := healRing r b
    b.modRing r (fun q => {
      tail := q.acc.extractLsb' 0 32, acc := q.acc, bad := q.bad, quiet := q.quiet, lostFrom := q.lostFrom
      doneAck := q.doneAck, abandoned := q.abandoned
      headDirty := q.headDirty || q.headOut })) b
  let b := (brokenStructs b).foldl (fun b off => healCopy (dpr off) b) b
  let b := (activeEntries b).foldl (fun b e => modEntry e (fun x => { x with actsets := 0 }) b) b
  let b := replayTaken (fun _ => true) b
  rebuildQueues (b.con.held.foldl (fun b e => opReplay e b) b)

/-- A head after a block reset (R499): its latches and line actions are gone, and it is YOUNG. -/
def resetHead (h : Head) : Head :=
  { h with latch := false, plLatch := false, laq := [], frames := 0, fper := 0, l0ofs := 0, lper16 := 0, lines := 0 }

/-- The registers of an origin after a block reset: those of the FED_ window are kept. -/
def resetOrg (o : OrgRegs) : OrgRegs := { txD := o.txD, txDst := o.txDst, txDue := o.txDue, txStat := o.txStat }

/-- The Syntax core restarts: its private memory is kept, and commands queued or running are discarded (R427). An event that was
posted and not acknowledged stays in the event queue, and is posted again. -/
def restartSyntax (st : SynState) (y : Syn) : Syn :=
  { y with st := st, mbx := [], queue := [], run := none, done := {}, posted := none, evq := y.posted.toList ++ y.evq, hirqPend := {} }

/-- A block reset, with its RSTCAUSE. -/
def blockReset (cause : BitVec 4) (b : Block) : Block :=
  let m := b.mode
  let b := b.modSup (fun u => { u with
    ret := if m = .service ∨ m = .quiesce then m else u.ret
    before := if m = .wake then u.before else some m
    stopped := false, qdone := false, inReset := true, cause := cause, resetAt := none, stopAt := none, resetTick := b.now
    count := if u.count = 0xFFFF then u.count else u.count + 1 })
  let b := { b with mode := .wake }
  let clus := listedClus b
  let engs := (listedEngs b).filter (fun e => !(clus.contains (cluOf e)))
  let b := clus.foldl (fun b c => (resetCluster 3 c b).modClu c (fun v => { v with asleep := false, idleSince := none, sleepAt := none, outAt := none })) b
  let b := engs.foldl (fun b e => resetEngine 3 e b) b
  let b := (listedEngs b).foldl (fun b e => b.modEng e (fun g => { g with
    rdyHi := [], rdyLo := [], resetAt := none, ctxResetAt := none })) b
  let b := times 256 (fun i b => resetDma (BitVec.ofNat 8 i) b) b
  let b := resetConcord { b with leases := [] }
  let b := timersEnter .wake b
  { b with
    hp := b.hp.map (fun x => (x.1, resetPort x.2))
    fab := { evtOut := b.fab.evtOut, pins := b.fab.pins, pulseEnd := b.fab.pulseEnd, sched := b.fab.sched, evtWrit := b.fab.evtWrit
             drives := b.fab.drives, era := b.fab.era, evtIn := b.fab.evtIn
             ticksecAt := b.fab.ticksecAt, ticksecSkip := b.fab.ticksecSkip, stepped := b.fab.stepped }
    secs := b.secs.map (fun x => (x.1, { x.2 with fenceAt := none, resetAt := none }))
    syn := restartSyntax .boot b.syn
    ras := { b.ras with heads := b.ras.heads.map (fun x => (x.1, resetHead x.2)) }
    dbg := { b.dbg with bus := none, pEn := false, pActive := false, pSeed := 1, lfsr := 1, pMem := 0, pHost := 0, pQueue := 0,
                        pXing := 0, pDma := 0, pCnt := {} }
    org := b.org.map (fun x => (x.1, resetOrg x.2)), paused := [], rsp := [], held := []
    xing := b.xing.map (fun x => (x.1, { x.2 with busy := false })) }

/-- BLOCK_RESET: BRST_N is sampled low, or a block reset that was requested is due. -/
def opBlockReset (brst : Bool) (b : Block) : Block :=
  if b.mode = .off then b
  else if brst then
    if b.sup.brst then b else ((blockReset 1 b).cut partBlock).modSup (fun u => { u with brst := true })
  else match b.sup.resetAt with
    | some (t, cause) => if t ≤ b.now then (blockReset cause b).cut partBlock else b
    | none => b

/-- WARM_WAKE: BRST_N is high again, in a tick behind the reset tick, or 16 ticks have passed since the reset; the Syntax core restarts, and parked channels
go to their ready queues (R425). -/
def opWarmWake (b : Block) : Block :=
  if b.mode == .wake && b.sup.inReset &&
      (if b.sup.brst then decide (b.sup.resetTick < b.now) else decide (b.sup.resetTick + 16 ≤ b.now)) then
    let b := b.modSup (fun u => { u with inReset := false, brst := false })
    let b := { b with syn := { b.syn with st := .boot } }
    allSecs.foldl (fun b s => if b.fenced s then b else requeueParked s b) b
  else b

/-- Clearing is complete: the fuses are read and no section is being cleared. A warm WAKE reads and clears nothing (R427). -/
def wakeCleared (b : Block) : Bool := b.sup.before.isSome || b.sup.fuseDone && allSecs.all (fun s => !((b.sec s).clearing) && !((b.sec s).reqAt.isSome))

/-- The modes from which a warm WAKE leads to RECOVER (R427). -/
def Mode.works : Mode → Bool
  | .service | .recover | .quiesce => true
  | _ => false

/-- WAKE_END: clearing is complete and the Syntax core is READY. Without a key digest it sends NOKEY (R457). -/
def opWakeEnd (testReq : Bool) (b : Block) : Block :=
  if b.mode == .wake && !b.sup.inReset && wakeCleared b then
    let b := { b with syn := { b.syn with st := .ready, beatAt := b.now } }
    let b := if b.imp.keyValid && !b.imp.keyRevoked then b else detect 0x564 2 0 b
    match b.sup.before with
    | none => setMode (if testReq then .test else .load) b
    | some m =>
      if m.works && b.sup.trimv then
        allClus.foldl (fun b c => releaseCluster c b)
          (setMode .recover (b.modSup (fun u => { u with recoverAt := b.now, recoverSecs := 1 })))
      else setMode .load (if m = .test then testClear b else b)
  else b

/-! ### Mode requests (R408, R410, R415, R416) -/

/-- Entry to SERVICE from TRIM: engines of LOADED clusters are released, and run all contexts where none is enabled. -/
def enterService (b : Block) : Block :=
  let b := setMode .service b
  allClus.foldl (fun b c =>
    if (b.clu c).runs ∧ !(b.fenced (cluSec c)) then
      allEngIn.foldl (fun b i =>
        let e := mkEng c i
        if (b.eng e).ctxEn = 0 then b.modEng e (fun g => { g with ctxEn := 0xFFFF }) else b) (releaseCluster c b)
    else b) b

/-- Entry to QUIESCE; with some sections named, the rings with a channel there drain (R416). -/
def enterQuiesce (mask : Byte) (b : Block) : Block :=
  let b := setMode .quiesce (b.modSup (fun u => { u with secMask := mask }))
  if mask = 0 then b
  else (liveRings b).foldl (fun b r =>
    let v := ringRec b r
    b.modRing r (fun q => { q with quiet := anyChan v.chbase v.chans (fun ch => mask.getLsbD (ch.extractLsb' 13 3).toNat) })) b

/-- QUIESCE to SERVICE: ring fetch resumes on every ring. -/
def leaveQuiesce (b : Block) : Block :=
  let b := setMode .service (b.modSup (fun u => { u with secMask := 0 }))
  (liveRings b).foldl (fun b r => b.modRing r (fun q => { q with quiet := false })) b

/-- QUIESCE to LOAD: every engine is reset, and held. -/
def quiesceToLoad (b : Block) : Block :=
  let b := setMode .load b
  ((listedEngs b).foldl (fun b e => resetEngine 2 e b) b).cutEngines

/-- TEST to LOAD: every engine is held in reset, and everything that a scan may have changed is cleared. -/
def testToLoad (b : Block) : Block :=
  setMode .load (testClear ((listedEngs { b with mode := .load }).foldl (fun b e => resetEngine 2 e b) { b with mode := .load }).cutEngines)

/-- A ring has no item that is consumed and not retired, and no descriptor under way. -/
def ringDrained (b : Block) (r : RingNo) : Bool := (ringRec b r).next == (ringRec b r).ret && (b.ring r).fetches.isEmpty
def dmaDrained (d : Dma) : Bool := decide (d.st = .idle ∨ d.st = .error)

/-- The conditions of R415. -/
def drainedAll (b : Block) : Bool :=
  (liveRings b).all (fun r => (ringRec b r).next == (ringRec b r).ret) &&
  (b.dma.all (fun x => dmaDrained x.2)) && portsIdle b && b.con.mirWaits.isEmpty

/-- A section that the partial QUIESCE in force names. -/
def named (b : Block) (s : SecId) : Bool := b.sup.secMask.getLsbD s.toNat
/-- The rings and the DMA channels of the named sections have drained (R416). -/
def drainedPart (b : Block) : Bool :=
  (liveRings b).all (fun r => !(b.ring r).quiet || ringDrained b r) &&
  b.dma.all (fun x => !(named b (BitVec.ofNat 3 (x.1 / 32))) || dmaDrained x.2)

/-- A partial QUIESCE (R416): the drained sections are fenced and powered down; once they are unpowered and no recovery
window is open, the block is in SERVICE, where a drained ring waits for its channels. -/
def partQuiesce (b : Block) : Block :=
  if allSecs.any (fun s => named b s && !(b.fenced s && !(b.sec s).req)) then
    if drainedPart b then
      allSecs.foldl (fun b s => if named b s then
        let b := fenceRecover s b
        if (b.sec s).req then lowerReq s b else b
        else b) b
    else b
  else if allSecs.all (fun s => !(named b s) || !(b.sec s).powered) && !(recovering b) then
    unholdRings (setMode .service (b.modSup (fun u => { u with secMask := 0 })))
  else b

/-- QUIESCE_DONE. -/
def opQuiesceDone (b : Block) : Block :=
  if b.mode ≠ .quiesce then b
  else if b.sup.secMask ≠ 0 then partQuiesce b
  else if drainedAll b then b.modSup (fun u => { u with qdone := true }) else b

/-! ### Cluster sleep (R217, R218, R431, R432) -/

/-- A context that lets its cluster sleep. -/
def ctxIdle (c : Ctx) : Bool :=
  c.muls.isEmpty && c.inj.isNone && c.excs.isEmpty && !c.halt.halted && c.mchk.isNone &&
  ((c.chan.isNone && c.act == .idle) || (match c.act with
    | .yieldOn _ => true
    | .wait s _ d _ => d.isNone && !(decide (28 ≤ s.toNat ∧ s.toNat ≤ 39))
    | _ => false))

/-- The idle conditions of a cluster. -/
def clusterIdle (b : Block) (c : CluId) : Bool :=
  allEngIn.all (fun i =>
    let e := mkEng c i
    let g := b.eng e
    (ctxsOf e).all (fun n => ctxIdle (b.ctx n)) && g.rdyHi.isEmpty && g.rdyLo.isEmpty && g.tags.isEmpty && g.afxQ.isEmpty &&
    g.div.isNone) && decide ((b.clu c).pmWait = 0)

/-- CLUSTER_SLEEP: the conditions have held for IDLE × 64 ticks: as this tick ends the cluster falls asleep, unless a trigger comes
in it (R432). -/
def opClusterSleep (c : CluId) (b : Block) : Block :=
  let v := b.clu c
  if v.sleepCfg.getLsbD 0 && !v.asleep && clusterIdle b c && v.trigAt != some b.now && !(b.fenced (cluSec c)) &&
      decide (b.mode ≠ .off) && !(b.paused_ c) && (match v.idleSince with
        | some t => decide (t + (v.sleepCfg.extractLsb' 16 16).toNat * 64 ≤ b.now)
        | none => false) then
    b.modClu c (fun v => { v with sleepAt := some b.now })
  else b

/-- The cluster sleeps: its clock stops. -/
def fallAsleep (c : CluId) (b : Block) : Block :=
  let b := (holdTimers c b).modClu c (fun v => { v with asleep := true, trigAt := none, sleepAt := none })
  allEngIn.foldl (fun b i => wdReload (mkEng c i) b) b

/-- The clusters whose sleep tick this is, as it ends. -/
def sleepDue (b : Block) : Block :=
  (listedClus b).foldl (fun b c =>
    if (b.clu c).sleepAt ≠ some b.now then b
    else if (b.clu c).trigAt = some b.now ∨ !(clusterIdle b c) then b.modClu c (fun v => { v with sleepAt := none })
    else fallAsleep c b) b

/-- CLUSTER_WAKE: a trigger has come; the timers make up the CLK_SLOW edges that the sleep took. -/
def opClusterWake (c : CluId) (edges : Nat) (b : Block) : Block :=
  let v := b.clu c
  if v.asleep ∧ v.trigAt.isSome then
    let b := b.modClu c (fun v => { v with asleep := false, idleSince := none })
    let b := allEngIn.foldl (fun b i => wdReload (mkEng c i) b) b
    settleClu c (times 40 (fun x b => advance (slowTicks edges) true c x b) b)
  else b

/-- The idle conditions as a tick ends: since when they hold, of each cluster that may sleep. -/
def noteIdle (b : Block) : Block :=
  { b with clus := b.clus.map (fun x =>
      let c : CluId := BitVec.ofNat 6 x.1
      if x.2.sleepCfg.getLsbD 0 && !x.2.asleep then
        (x.1, { x.2 with idleSince := if clusterIdle b c then some (x.2.idleSince.getD b.now) else none })
      else x) }

end Sys2Proof.Machine
end

