-- ==== Sys2Proof/Machine/Imperative.lean ====
section
/-! DEFINITION. The Imperative partition: the fault collector, its log, promotion, escalation and reactions, the fault pin,
the watchdogs and fault injection (R436..R461, R534). -/

namespace Sys2Proof.Machine
open Sys2Proof

def Block.modImp (b : Block) (f : Imp → Imp) : Block := { b with imp := f b.imp }

/-! ### Sources (R439, R440, R497, R534) -/

/-- The class of a source. -/
def srcClass (s : BitVec 11) : Nat :=
  let n := s.toNat
  if n < 0x200 then 0 else if n < 0x400 then 1 else if n < 0x440 then 2 else if n < 0x480 then 3
  else if n < 0x500 then 4 else if n < 0x510 then 5 else if n < 0x518 then 6 else if n < 0x560 then 7
  else if n < 0x562 then 8 else if n = 0x562 then 9 else if n = 0x563 then 7 else if n = 0x564 then 10
  else if n = 0x565 then 1 else if n < 0x56A then 11 else if n = 0x56A then 12 else if n = 0x56B then 15
  else if n < 0x700 then 13 else 14

/-- The part that an L2 or L3 reaction fences. -/
inductive Part where
  | cluster (c : CluId)
  | section_ (s : SecId)
  | none
  deriving DecidableEq, Repr

def srcPart (s : BitVec 11) : Part :=
  let n := s.toNat
  if n < 0x200 then .cluster (BitVec.ofNat 6 (n / 8))
  else if n < 0x400 then .cluster (BitVec.ofNat 6 ((n - 0x200) / 8))
  else if n < 0x440 then .cluster (BitVec.ofNat 6 (n - 0x400))
  else if n < 0x480 then .cluster (BitVec.ofNat 6 (n - 0x440))
  else if n < 0x500 then .section_ (BitVec.ofNat 3 ((n - 0x480) / 16))
  else if n < 0x510 then .none
  else if n < 0x518 then .section_ (BitVec.ofNat 3 (n - 0x510))
  else if n < 0x558 then .cluster (BitVec.ofNat 6 (n - 0x518))
  else .none

/-- The highest listed code of a source; engines have codes apart. A crossing of the reserved island numbers, a source of
0x56C..0x5FF and every other code are reserved. -/
def codeListed (s : BitVec 11) (k : Byte) : Bool :=
  let n := s.toNat
  let c := k.toNat
  if n < 0x200 then decide ((1 ≤ c ∧ c ≤ 9) ∨ (0x20 ≤ c ∧ c ≤ 0x23))
  else
    let top :=
      if n < 0x400 then 1 else if n < 0x440 then 4 else if n < 0x480 then 1 else if n < 0x510 then 5
      else if n < 0x518 then 4 else if n < 0x560 then 2 else if n < 0x562 then 1 else if n = 0x562 then 6
      else if n = 0x563 then 1 else if n = 0x564 then 2 else if n = 0x565 then 1 else if n < 0x56A then 4
      else if n = 0x56A then 3 else if n = 0x56B then 1 else if n < 0x600 then 0 else if n < 0x700 then 7 else 6
    decide (1 ≤ c ∧ c ≤ top)

/-! ### Choosing the record (R442, R534) -/

def slotOf (b : Block) (s : Nat) : Option Slot := Map.get none b.imp.slots s

/-- The record that is processed next. -/
def firstHeld : Map (Option Slot) → Option (Nat × Slot)
  | [] => none
  | (i, v) :: m => match v, firstHeld m with
    | none, r => r
    | some v, none => some (i, v)
    | some v, some r => if ahead r (i, v) then some r else some (i, v)

/-! ### Promotion and escalation (R447..R450) -/

def Block.src (b : Block) (s : BitVec 11) : SrcState := Map.get {} b.imp.srcs s.toNat
def Block.modSrc (b : Block) (s : BitVec 11) (f : SrcState → SrcState) : Block :=
  b.modImp (fun i => { i with srcs := Map.mod {} i.srcs s.toNat f })
/-- W in ticks, and N. -/
def SrcState.window (v : SrcState) : Nat := 2 ^ (v.cfg.extractLsb' 8 5).toNat * 1000
def SrcState.thresh (v : SrcState) : Nat := (v.cfg.extractLsb' 0 8).toNat
def SrcState.logOff (v : SrcState) : Bool := v.cfg.getLsbD 13

/-- The count after a record with `n` counted events detected at `d`, and whether it promotes. -/
def countEvents (d n : Nat) (v : SrcState) : SrcState × Bool :=
  if n = 0 then (v, false)
  else
    let v := if v.count = 0 ∨ v.start + v.window ≤ d then { v with start := d, count := 0 } else v
    let c := v.count + n
    if v.thresh ≠ 0 ∧ v.thresh ≤ c then ({ v with count := 0 }, true) else ({ v with count := c }, false)

/-- The base level of a held record: of an injected and a real event, the real one's, or with REACT the higher (R456). -/
def slotBase (s : BitVec 11) (x : Slot) : Nat :=
  let own := baseLevel s x.code
  if x.inj && x.real && x.injReact then max own (baseLevel s x.injCode) else own

/-- IMP_CLASS_CFG[k]: ESCEN is 1 at reset. -/
def Block.classCfg (b : Block) (k : Nat) : BitVec 2 := Map.get 2 b.imp.classCfg k

/-- LEVEL, PROMO and ESC of a record. -/
def fixLevel (b : Block) (k base : Nat) (promo : Bool) : Nat × Bool :=
  let l := if promo then base + 1 else base
  let esc := decide (1 ≤ l) && b.imp.unack.on.getLsbD k && (b.classCfg k).getLsbD 1
  (min 3 (if esc then l + 1 else l), esc)

/-! ### The log (R441, R444) -/

def logAt (b : Block) (j : Nat) : LogRec := Map.get {} b.imp.log j

/-- A port's pointer moves past a record that is overwritten unread. -/
def logLost (ireg : Bool) (b : Block) : Block :=
  let i := b.imp
  if (if ireg then i.rdI else i.rdH) + 1024 ≤ i.logged then
    detect 0x56B 1 (if ireg then 1 else 0) (b.modImp (fun i =>
      if ireg then { i with rdI := i.rdI + 1, lostI := i.lostI.count b.now 1 } else { i with rdH := i.rdH + 1, lostH := i.lostH.count b.now 1 }))
  else b

/-- A record is written to the log. -/
def logWrite (r : LogRec) (b : Block) : Block :=
  let b := logLost true (logLost false b)
  b.modImp (fun i => { i with
    log := Map.set {} i.log (i.logged % 1024) { r with seq := BitVec.ofNat 16 i.logged }, logged := i.logged + 1 })

/-- The record's 16 bytes. -/
def LogRec.bytes (r : LogRec) : List Byte :=
  bytesOf 6 r.stamp ++ bytesOf 2 r.src ++ [r.code, r.lvl] ++ bytesOf 2 r.seq ++ [r.mult] ++ bytesOf 3 r.info

/-- IMP_LOG_POP (R444): of HREG or IREG, the oldest unread record's index, and the pointer advances unless it is a peek. -/
def logPop (ireg peek : Bool) (b : Block) : Block × Reg32 :=
  let p := if ireg then b.imp.rdI else b.imp.rdH
  if p < b.imp.logged then
    (if peek then b else b.modImp (fun i => if ireg then { i with rdI := p + 1 } else { i with rdH := p + 1 }),
      fldN 0 (p % 1024) ||| bit 31 true)
  else (b, 0)

/-! ### The fault pin (R451) -/

/-- A reaction starts the pulse, or extends it. -/
def startPulse (b : Block) : Block :=
  b.modImp (fun i => { i with pulse := some (match i.pulse with
    | some (s, _) => (s, b.now + 1004)
    | none => (b.now + 4, b.now + 1004)) })

/-- FAULT_PIN_PULSE_END: the pin takes the level last written. -/
def opFaultPinPulseEnd (b : Block) : Block :=
  match b.imp.pulse with
  | some (_, e) =>
    if e ≤ b.now then b.modImp (fun i => { i with pulse := none, pinWrite := none, pinHold := i.pinLevel }) else b
  | none => b

/-- The level outside pulses, from the end of the fourth tick after its write. -/
def pinBase (b : Block) : Bool := match b.imp.pinWrite with
  | some (t, l) => if t < b.now then l else b.imp.pinHold
  | none => b.imp.pinHold
/-- FAULT_OUT_N is low. -/
def pinLow (b : Block) : Bool :=
  b.mode == .off || !(pinBase b) || (match b.imp.pulse with
    | some (s, _) => decide (s < b.now)
    | none => false)
/-- A write of IMP_PIN.LEVEL. -/
def writePin (l : Bool) (b : Block) : Block :=
  b.modImp (fun i => { i with pinLevel := l, pinHold := pinBase b, pinWrite := some (b.now + 4, l) })

/-! ### Reactions (R443, R445, R446) -/

/-- The part is fenced, or enters OUT, at rank 1 in the next tick; a part that is fenced already causes no second fence. -/
def fencePart (p : Part) (b : Block) : Block := match p with
  | .section_ s => if b.fenced s then b else b.modSec s (fun x => { x with fenceAt := some (b.now + 1) })
  | .cluster c => if (b.clu c).state = .out then b else requestOut c true b
  | .none => b

/-- The class policy of an L3 record. Where the record names a part, its fence suffices (R446). -/
def policy (k : Nat) (p : Part) (b : Block) : Block :=
  if (b.classCfg k).getLsbD 0 then b.modSup (fun u => { u with stopAt := some (b.now + 1) })
  else match p with
    | .none => b.modSup (fun u => { u with resetAt := some (b.now + 1, 3) })
    | .section_ _ | .cluster _ => b

/-- The reaction to a record of class k at a level. -/
def react (k lvl : Nat) (p : Part) (b : Block) : Block :=
  if lvl < 2 then b
  else
    let b := startPulse (fencePart p b)
    let b := b.modImp (fun i => { i with unack := i.unack.set b.now (BitVec.ofNat 16 (2 ^ k)) })
    if lvl = 3 then policy k p b else b

/-- The held record `x` of source `s` is processed. -/
def collect (s : BitVec 11) (x : Slot) (b : Block) : Block :=
  let v := b.src s
  let k := srcClass s
  let base := slotBase s x
  let (v', promo) := countEvents x.at_ x.counts v
  let (lvl, esc) := fixLevel b k base promo
  let young := v.young || decide (x.at_ < v.youngAt + v.window)
  let b := (b.modImp (fun i => { i with slots := Map.set none i.slots s.toNat none, lastReact := some b.now })).modSrc s
    (fun _ => v')
  let b := if lvl = 0 ∧ v.logOff then b else logWrite {
      stamp := x.stamp
      src := s.setWidth 16 ||| (if x.inj then 0x800 else 0) ||| (if x.inj && x.real then 0x1000 else 0)
      code := x.code
      lvl := BitVec.ofNat 8 (lvl + 4 * base) ||| (if promo then 0x10 else 0) ||| (if esc then 0x20 else 0) |||
        (if young then 0x40 else 0)
      mult := x.mult, info := x.info } b
  if x.real || x.injReact then react k lvl (srcPart s) b else b

/-- FAULT_REACTION: the first held record is processed in its reaction tick, 10 ticks behind its detection and 5 more for each
record that was ahead of it, and one every 5 ticks (R442). -/
def opFaultReaction (b : Block) : Block :=
  match firstHeld b.imp.slots with
  | none => b
  | some (i, x) =>
    if b.mode == .off || decide (b.now < x.at_ + 10 + 5 * x.queue) || (match b.imp.lastReact with
        | some t => decide (b.now < t + 5)
        | none => false) then b
    else collect (BitVec.ofNat 11 i) x b

/-- SOURCE_WINDOW_MATURE (R448). -/
def opSourceWindowMature (s : BitVec 11) (b : Block) : Block :=
  if (b.src s).young ∧ (b.src s).youngAt + (b.src s).window ≤ b.now ∧ b.mode ≠ .off then
    b.modSrc s (fun v => { v with young := false })
  else b
/-- A write of IMP_SRC_CFG[i] makes the window YOUNG. -/
def writeSrcCfg (s : BitVec 11) (d : Reg32) (b : Block) : Block :=
  b.modSrc s (fun v => { v with cfg := d.extractLsb' 0 14, young := true, youngAt := b.now })

/-! ### Watchdogs (R452..R454) -/

/-- WATCHDOG_BITE: the record, and the engine reset in the next tick. -/
def opWatchdogBite (e : EngId) (b : Block) : Block :=
  if wdRuns b e ∧ due (b.eng e).wdDeadline b.now ∧ b.mode ≠ .off then
    let b := (requestEngineReset e b).modEng e (fun g => { g with wdDeadline := none })
    detect (0x200 + e.toNat) 1 0 (b.modImp (fun i => { i with bites := i.bites.count b.now 1 }))
  else b

/-- The Syntax watchdog's period: SYNPER below 10 acts as 10. -/
def synPeriod (i : Imp) : Nat := 2 ^ max 10 i.synPer.toNat

/-- SYNTAX_WATCHDOG_BITE: the record, and SYN_STAT.STATE = FAILED; the core restarts at the next tick. -/
def opSyntaxWatchdogBite (b : Block) : Block :=
  if b.imp.synEn ∧ due b.imp.synDeadline b.now ∧ b.mode ≠ .off then
    let b := b.modImp (fun i => { i with bites := i.bites.count b.now 1, synDeadline := some (b.now + synPeriod i) })
    detect 0x565 1 0 { b with syn := { b.syn with st := .failed } }
  else b

/-- The restart of a failed Syntax core: commands are discarded, and SYNRESTART tells how many (R427, R454). -/
def restartFailed (b : Block) : Block :=
  if b.syn.st = .failed then
    let n := b.syn.queue.length + (if b.syn.run.isSome then 1 else 0)
    queueEvent 6 [BitVec.ofNat 8 n] { b with syn := restartSyntax (if b.mode = .wake then .boot else .ready) b.syn }
  else b

/-- A kick of engine watchdogs: CLU_WDKICK with its key (R452, R461). Only the Syntax core and contexts of the cluster
kick. -/
def wdKick (o : Origin) (c : CluId) (d : Reg32) (b : Block) : Block :=
  let may : Bool := match o with
    | .synCore => true
    | .ctx e _ => cluOf e == c
    | _ => false
  if may && d.extractLsb' 16 16 == (0x4B49 : BitVec 16) then
    allEngIn.foldl (fun b i => if d.getLsbD i.toNat then wdReload (mkEng c i) b else b) b
  else b

/-! ### Injection (R455, R456) -/

/-- An injected event enters its source's slot, stamped with the next tick. -/
def injectEvent (s : BitVec 11) (k : Byte) (info : BitVec 24) (reactOn count : Bool) (b : Block) : Block :=
  let n := if count then 1 else 0
  let slots := match slotOf b s.toNat with
    | none => enterSlot s.toNat { stamp := b.tick + 1, at_ := b.now + 1, code := k, info := info, inj := true, real := false,
                                  counts := n, injCode := k, injReact := reactOn } b.imp.slots
    | some h =>
      let take := !h.real && decide (baseLevel s h.code < baseLevel s k)
      Map.set none b.imp.slots s.toNat (some { h with
        mult := if h.mult = 255 then 255 else h.mult + 1, inj := true, counts := h.counts + n
        code := if take then k else h.code, info := if take then info else h.info
        injCode := if h.inj && decide (baseLevel s k ≤ baseLevel s h.injCode) then h.injCode else k
        injReact := h.injReact || reactOn })
  b.modImp (fun i => { i with slots := slots })

/-- A write of IMP_INJ: its fields, ERR cleared by a 1, and GO. -/
def writeInj (d : Reg32) (b : Block) : Block :=
  let b := b.modImp (fun i => { i with inj := d &&& 0x003FF7FF, injErr := i.injErr.clearIf b.now (d.getLsbD 30) })
  if !(d.getLsbD 31) then b
  else
    let s : BitVec 11 := d.extractLsb' 0 11
    let k : Byte := d.extractLsb' 12 8
    if (b.mode = .test ∨ (b.mode ≠ .off ∧ b.imp.testOpen)) ∧ codeListed s k then
      injectEvent s k b.imp.injInfo (d.getLsbD 20) (d.getLsbD 21) b
    else b.modImp (fun i => { i with injErr := i.injErr.set b.now })

/-! ### Registers (R444, R457, R458, R460) -/

/-- IMP_WDOG[e]. -/
def wdogReg (b : Block) (e : EngId) : Reg32 :=
  let w := b.wdog e
  bit 0 w.en ||| fld 1 w.per ||| bit 6 (w.en && !(wdRuns b e)) ||| bit 7 (wdRuns b e)
def writeWdog (e : EngId) (d : Reg32) (b : Block) : Block :=
  let b := b.modImp (fun i => { i with wdogs := Map.set {} i.wdogs e.toNat { en := d.getLsbD 0, per := d.extractLsb' 1 5 } })
  if d.getLsbD 0 then wdReload e b else b.modEng e (fun g => { g with wdDeadline := none })

/-- A write of IMP_WDOG_CFG; a watchdog of a halted engine that begins to run restarts with its full period. -/
def writeWdogCfg (d : Reg32) (b : Block) : Block :=
  let frz := b.imp.dbgFreeze
  let b := b.modImp (fun i =>
    let i := { i with dbgFreeze := d.getLsbD 0, synEn := d.getLsbD 1, synPer := d.extractLsb' 8 5 }
    { i with synDeadline := if i.synEn then (if b.imp.synEn then b.imp.synDeadline else some (b.now + synPeriod i)) else none })
  if frz = d.getLsbD 0 then b
  else (listedEngs b).foldl (fun b e => if (b.eng e).halted then wdReload e b else b) b

/-- IMP_MODECTL (R458). -/
def modeStop (b : Block) : Block :=
  (b.modImp (fun i => { i with stopReq := true })).modSup (fun u => { u with stopAt := some (b.now + 1) })
def modeBreset (key : Byte) (b : Block) : Block :=
  if key = 0xA5 then b.modSup (fun u => { u with resetAt := some (b.now + 1, 3) }) else b

/-- IMP_TESTLOCK lands only with its key. -/
def writeTestlock (d : Reg32) (b : Block) : Block :=
  if d.extractLsb' 8 8 = 0x5A then b.modImp (fun i => { i with testOpen := d.getLsbD 0 }) else b
def keyRevoke (b : Block) : Block := b.modImp (fun i => { i with keyRevoked := true })
/-- IMP_KEYCTL.VALID. -/
def keyUsable (b : Block) : Bool := b.imp.keyValid && !b.imp.keyRevoked

def impStat (b : Block) : Reg32 :=
  fldN 0 (b.imp.slots.filter (fun x => x.2.isSome)).length ||| bit 12 (pinLow b) ||| bit 13 (match b.imp.pulse with
    | some (s, _) => decide (s < b.now)
    | none => false)

/-- A read of an IMP_ offset without side effect; `ireg` chooses the port's copies. -/
def impRead (b : Block) (ireg : Bool) (off : Nat) : Reg32 :=
  let i := b.imp
  if off < 0x40 then match off with
    | 0x00 => impStat b
    | 0x04 => bit 0 i.pinLevel
    | 0x08 => fld 0 (i.unack.pre b.now)
    | 0x0C => fldN 0 (i.logged % 1024) ||| fldN 16 (i.logged % 65536)
    | 0x10 => (logPop ireg true b).2
    | 0x14 => fld 0 ((if ireg then i.lostI else i.lostH).pre b.now)
    | 0x18 => bit 0 i.dbgFreeze ||| bit 1 i.synEn ||| fld 8 i.synPer
    | 0x1C => fld 0 (i.bites.pre b.now)
    | 0x20 => i.inj ||| bit 30 (i.injErr.pre b.now)
    | 0x24 => fld 0 i.injInfo
    | 0x28 => bit 0 i.testOpen
    | 0x2C => bit 0 i.stopReq
    | 0x30 => bit 0 (keyUsable b) ||| bit 1 i.keyRevoked
    | _ => 0
  else if off < 0x80 then fld 0 (b.classCfg ((off - 0x40) / 4))
  else if off < 0xB0 then i.keyDig.extractLsb' (8 * (off - 0x80)) 32
  else if off < 0x800 then 0
  else if off < 0x1000 then wdogReg b (BitVec.ofNat 9 ((off - 0x800) / 4))
  else if off < 0x2000 then 0
  else if off < 0x4000 then fld 0 (b.src (BitVec.ofNat 11 ((off - 0x2000) / 4))).cfg
  else if off < 0x6000 then
    let s : BitVec 11 := BitVec.ofNat 11 ((off - 0x4000) / 4)
    (if (b.src s).count < 256 then fldN 0 (b.src s).count else fld 0 (Config.wideCount (b.src s).count)) ||| bit 8 (b.src s).young ||| bit 9 (slotOf b s.toNat).isSome
  else if off < 0x8000 then 0
  else if off < 0xC000 then ofBytes 32 (((logAt b ((off - 0x8000) / 16)).bytes.drop (off % 16)).take 4)
  else 0

/-- An IREG write of an IMP_ offset below 0xC000. -/
def impWrite (off : Nat) (d : Reg32) (b : Block) : Block :=
  if off < 0x40 then match off with
    | 0x04 => writePin (d.getLsbD 0) b
    | 0x08 => b.modImp (fun i => { i with unack := i.unack.clear b.now (d.extractLsb' 0 16) })
    | 0x18 => writeWdogCfg d b
    | 0x20 => writeInj d b
    | 0x24 => b.modImp (fun i => { i with injInfo := d.extractLsb' 0 24 })
    | 0x28 => writeTestlock d b
    | 0x2C =>
      let b := if d.getLsbD 0 then modeStop b else b
      if d.getLsbD 1 then modeBreset (d.extractLsb' 8 8) b else b
    | 0x30 => if d.getLsbD 1 then keyRevoke b else b
    | _ => b
  else if off < 0x80 then
    b.modImp (fun i => { i with classCfg := Map.set 2 i.classCfg ((off - 0x40) / 4) (d.extractLsb' 0 2) })
  else if 0x800 ≤ off ∧ off < 0x1000 then writeWdog (BitVec.ofNat 9 ((off - 0x800) / 4)) d b
  else if 0x2000 ≤ off ∧ off < 0x4000 then writeSrcCfg (BitVec.ofNat 11 ((off - 0x2000) / 4)) d b
  else b

end Sys2Proof.Machine
end

