-- ==== Sys2Proof/Machine/Injection.lean ====
section
/-! DEFINITION. Injected words (R275, R276, R471), and the background accesses of the memory banks (R238, R242, R244). -/

namespace Sys2Proof.Machine
open Sys2Proof

/-! ### The injection slot (R275) -/

/-- A GO for a context: discarded with WERR while its slot is full, with ERR while the context is FREE. -/
def injectGo (o : Origin) (e : EngId) (k : CtxId) (sys : Bool) (b : Block) : Block :=
  let n := ctxNo e k
  let c := b.ctx n
  if c.inj.isSome then b.modEng e (fun g => { g with werr := g.werr.set b.now })
  else if c.chan.isNone && !(match c.act with
      | .swap .. => true
      | _ => false) then b.modEng e (fun g => { g with injErr := g.injErr.set b.now })
  else trigger (cluOf e) (b.modCtx n (fun c => { c with
    inj := some { w := Map.get 0 (b.eng e).injD (orgKey o), sys := sys, src := o } }))

/-- A CANCEL withdraws the word of the context's slot. -/
def injectCancel (e : EngId) (k : CtxId) (b : Block) : Block := b.modCtx (ctxNo e k) (fun c => { c with inj := none })

/-! ### Selection and execution (R276, R471) -/

/-- The slot number of an origin in `Snap.inj`. -/
def injSlot : Origin → Nat
  | .dap => 0
  | .synCore => 1
  | _ => 2

/-- ECAUSE that the entry of exception `x` would write at the context's level (R158, R163). -/
def wouldCause (l : Lvl) (x : Exc) : Word :=
  match l with
  | .prog => ecause x x.long false
  | _ => ecause { x with code := 0x10, sub := x.code } x.long true

/-- An exception of a word injected into a halted context: nothing happens but ERR and DBG_INJCAUSE (R471). -/
def injHeld (n : CtxNo) (x : Exc) (b : Block) : Block :=
  b.modEng (engOf n) (fun g => { g with injErr := g.injErr.set b.now, dbg := { g.dbg with injCause := wouldCause (b.ctx n).lvl x } })

/-- The word's W stage. -/
def injEffects (n : CtxNo) (s : Snap) (b : Block) : Block := wStage n s b

/-- JUMP: any wait is abandoned, the level's progress is 0, a group that it holds is released with its partial RX entry, and UPC
is TARGET. -/
def injJump (n : CtxNo) (s : Snap) (b : Block) : Block :=
  ((releaseOwn (fun l => l == s.lvl) n (abandon n b)).modFile n s.lvl (fun c => { setProgress s.lvl c 0 with upc := s.w.target })).modCtx n
    (fun c => { c with halt := { c.halt with skipCmp := false } })

/-- The sequencer operation of an injected word whose effects are done. -/
def injSeq (n : CtxNo) (s : Snap) (b : Block) : Block :=
  if s.w.seq = 1 then injJump n s b
  else if s.w.seq = 14 ∧ !(b.ctx n).halt.halted then
    let upc := (b.ctx n).upc
    (seqHalt n s (abandon n b)).modCtx n (fun c => { c with upc := upc })
  else b

/-- An exception that has become pending since. -/
def newExc (old new : Ctx) : Option Exc := new.excs.find? (fun x => !(old.excs.contains x))

/-- INJECTED_WORD: the pending word is selected; it is no fetch, and its selection moves no pointer. A long instruction stops at
its boundary first, and a WAIT whose source the word makes true completes (R50). A word whose W stage raises an exception takes
no sequencer operation: its exception is precise (R276). -/
def opInjectedWord (n : CtxNo) (b : Block) : Block :=
  match (b.ctx n).inj with
  | none => b
  | some i =>
    if injReady b n i.w then
      let e := engOf n
      let s := snapOf b n i.w (some (injSlot i.src)) i.sys
      let b := leaveLong n (b.modCtx n (fun c => { c with inj := none }))
      let b := b.modEng e (fun g => { g with issue := g.issue.count b.now 1 })
      let done (b : Block) : Block := b.modEng e (fun g => { g with injDone := g.injDone.set b.now })
      let c := b.file n s.lvl
      if !(cond b n c i.w) then done b
      else match wordFault b n s with
        | some (code, sub, info) =>
          let x : Exc := { code := code, kind := 0, sub := sub, fupc := s.upc, einfo := info, lvl := s.lvl }
          if (b.ctx n).halt.halted then injHeld n x b
          else (preciseFault n s code sub info false (abandon n b)).modEng e (fun g => { g with injErr := g.injErr.set b.now })
        | none =>
          let b' := injEffects n s b
          let b' := if (newExc (b.ctx n) (b'.ctx n)).isSome then b' else injSeq n s b'
          (match newExc (b.ctx n) (b'.ctx n) with
            | some x =>
              if (b.ctx n).halt.halted then injHeld n x b
              else done (b'.modEng e (fun g => { g with injErr := g.injErr.set b.now }))
            | none => settle n (done b'))
    else b

/-! ### Background accesses of the banks -/

/-- STARVATION_EVENT: a main bank's oldest non-engine request has waited its limit. -/
def opStarvationEvent (bank : BitVec 7) (b : Block) : Block :=
  let s := bank.extractLsb' 4 3
  if b.mode = .off ∨ b.fenced s then b
  else
    let k := (bank.extractLsb' 0 4).toNat
    let v := (Map.get {} (b.unit s.toNat).starv k).count b.now 1
    detect (bankSrc bank.toNat) 3 (v.val.setWidth 24) (b.modUnit s.toNat (fun u => { u with starv := Map.set {} u.starv k v }))

/-- A bank works: it exists, and its section, fenced or not, is powered and cleared (R244, R254). -/
def bankLive (b : Block) (bank : Nat) : Bool :=
  let x := b.sec (BitVec.ofNat 3 (bank / 16))
  decide (b.mode ≠ .off ∧ bank < 144) && (decide (128 ≤ bank) || (x.powered && !x.clearing))

/-- ECC_WRITEBACK: the first corrected line of the bank is written back. -/
def opEccWriteback (bank : Nat) (b : Block) : Block :=
  if bankLive b bank then
    match b.wbs.find? (fun l => bankOf b (8 * l) == bank) with
    | some l => { b with wbs := b.wbs.filter (fun x => x != l) }
    | none => b
  else b

/-- Unit, bank in unit and number of rows of a block bank (R227, R229). -/
def bankUnit (bank : Nat) : Nat × Nat × Nat := if bank < 128 then (bank / 16, bank % 16, 16384) else (8, bank - 128, 4096)

/-- Address of a bank's row (R227..R229). -/
def rowAddr (b : Block) (bank row : Nat) : Nat :=
  if bank < 128 then
    let s := bank / 16
    s * 0x800000 + (if (b.unit s).act then bank % 16 * 0x80000 + row * 32 else row * 512 + bank % 16 * 32)
  else 0x4000000 + (bank - 128) * 0x20000 + row * 32

/-- PATROL_SCRUB: the bank reads its next row, with the errors that it meets in its lines; a copy of the ledger that proves
uncorrectable is repaired (R244, R336). -/
def opPatrolScrub (bank : Nat) (ecc : Ecc) (b : Block) : Block :=
  let u := bankUnit bank
  if bankLive b bank && (b.unit u.1).scrubEn then
    let row := Map.get 0 (b.unit u.1).scrubRow u.2.1
    let a := rowAddr b bank row
    let b := b.modUnit u.1 (fun m => { m with scrubRow := Map.set 0 m.scrubRow u.2.1 ((row + 1) % u.2.2) })
    let b := eccAt (linesOf a 32) ecc b
    if 128 ≤ bank then healCopy (a + 16) (healCopy a b) else b
  else b

end Sys2Proof.Machine
end

