-- ==== Sys2Proof/Machine/Crypto.lean ====
section
/-! DEFINITION. SHA-384 (FIPS 180-4) and the check of an ECDSA P-384 signature (FIPS 186-4, SEC 1) that R175 and R176
name. The spec names the two standards and gives neither's arithmetic: PRESUMED (log entry 33). -/

namespace Sys2Proof.Machine
open Sys2Proof

/-! ### SHA-384 -/

abbrev W64 := BitVec 64

/-- The eight initial words. -/
def shaInit : List W64 :=
  [0xCBBB9D5DC1059ED8, 0x629A292A367CD507, 0x9159015A3070DD17, 0x152FECD8F70E5939,
   0x67332667FFC00B31, 0x8EB44A8768581511, 0xDB0C2E0D64F98FA7, 0x47B5481DBEFA4FA4]

/-- The eighty round constants. -/
def shaK0 : List W64 :=
  [0x428A2F98D728AE22, 0x7137449123EF65CD, 0xB5C0FBCFEC4D3B2F, 0xE9B5DBA58189DBBC,
   0x3956C25BF348B538, 0x59F111F1B605D019, 0x923F82A4AF194F9B, 0xAB1C5ED5DA6D8118,
   0xD807AA98A3030242, 0x12835B0145706FBE, 0x243185BE4EE4B28C, 0x550C7DC3D5FFB4E2,
   0x72BE5D74F27B896F, 0x80DEB1FE3B1696B1, 0x9BDC06A725C71235, 0xC19BF174CF692694,
   0xE49B69C19EF14AD2, 0xEFBE4786384F25E3, 0x0FC19DC68B8CD5B5, 0x240CA1CC77AC9C65,
   0x2DE92C6F592B0275, 0x4A7484AA6EA6E483, 0x5CB0A9DCBD41FBD4, 0x76F988DA831153B5,
   0x983E5152EE66DFAB, 0xA831C66D2DB43210, 0xB00327C898FB213F, 0xBF597FC7BEEF0EE4,
   0xC6E00BF33DA88FC2, 0xD5A79147930AA725, 0x06CA6351E003826F, 0x142929670A0E6E70,
   0x27B70A8546D22FFC, 0x2E1B21385C26C926, 0x4D2C6DFC5AC42AED, 0x53380D139D95B3DF,
   0x650A73548BAF63DE, 0x766A0ABB3C77B2A8, 0x81C2C92E47EDAEE6, 0x92722C851482353B]
def shaK1 : List W64 :=
  [0xA2BFE8A14CF10364, 0xA81A664BBC423001, 0xC24B8B70D0F89791, 0xC76C51A30654BE30,
   0xD192E819D6EF5218, 0xD69906245565A910, 0xF40E35855771202A, 0x106AA07032BBD1B8,
   0x19A4C116B8D2D0C8, 0x1E376C085141AB53, 0x2748774CDF8EEB99, 0x34B0BCB5E19B48A8,
   0x391C0CB3C5C95A63, 0x4ED8AA4AE3418ACB, 0x5B9CCA4F7763E373, 0x682E6FF3D6B2B8A3,
   0x748F82EE5DEFB2FC, 0x78A5636F43172F60, 0x84C87814A1F0AB72, 0x8CC702081A6439EC,
   0x90BEFFFA23631E28, 0xA4506CEBDE82BDE9, 0xBEF9A3F7B2C67915, 0xC67178F2E372532B,
   0xCA273ECEEA26619C, 0xD186B8C721C0C207, 0xEADA7DD6CDE0EB1E, 0xF57D4F7FEE6ED178,
   0x06F067AA72176FBA, 0x0A637DC5A2C898A6, 0x113F9804BEF90DAE, 0x1B710B35131C471B,
   0x28DB77F523047D84, 0x32CAAB7B40C72493, 0x3C9EBE0A15C9BEBC, 0x431D67C49C100D4C,
   0x4CC5D4BECB3E42B6, 0x597F299CFC657E2A, 0x5FCB6FAB3AD6FAEC, 0x6C44198C4A475817]
def shaK : List W64 := shaK0 ++ shaK1

/-- The message with its padding: 0x80, zeros, and the length in bits in 16 bytes, to a multiple of 128 bytes. -/
def shaPad (l : List Byte) : List Byte :=
  let n := l.length
  l ++ [0x80] ++ List.replicate ((239 - n % 128) % 128) 0 ++ (bytesOf 16 (BitVec.ofNat 128 (8 * n))).reverse

/-- The words of `n` blocks of eight bytes, big-endian. -/
def shaWords : Nat → List Byte → List W64
  | 0, _ => []
  | n + 1, l => BitVec.ofNat 64 (natOfBytesBE (l.take 8)) :: shaWords n (l.drop 8)

def sig0 (x : W64) : W64 := x.rotateRight 1 ^^^ x.rotateRight 8 ^^^ x >>> 7
def sig1 (x : W64) : W64 := x.rotateRight 19 ^^^ x.rotateRight 61 ^^^ x >>> 6
def bsig0 (x : W64) : W64 := x.rotateRight 28 ^^^ x.rotateRight 34 ^^^ x.rotateRight 39
def bsig1 (x : W64) : W64 := x.rotateRight 14 ^^^ x.rotateRight 18 ^^^ x.rotateRight 41

/-- The round constants and schedule words of the rounds left: `win` holds the next sixteen words. -/
def shaRounds : List W64 → List W64 → List W64 → List W64
  | [], _, v => v
  | k :: ks, win, v =>
    let w := nth 0 win 0
    let a := nth 0 v 0
    let b := nth 0 v 1
    let c := nth 0 v 2
    let e := nth 0 v 4
    let f := nth 0 v 5
    let g := nth 0 v 6
    let t1 := nth 0 v 7 + bsig1 e + ((e &&& f) ^^^ (~~~e &&& g)) + k + w
    let t2 := bsig0 a + ((a &&& b) ^^^ (a &&& c) ^^^ (b &&& c))
    let next := sig1 (nth 0 win 14) + nth 0 win 9 + sig0 (nth 0 win 1) + w
    shaRounds ks (win.drop 1 ++ [next]) [t1 + t2, a, b, c, nth 0 v 3 + t1, e, f, g]

/-- One block of 128 bytes. -/
def shaBlock (h : List W64) (block : List Byte) : List W64 :=
  List.zipWith (fun x y : W64 => x + y) h (shaRounds shaK (shaWords 16 block) h)

def shaBlocks : Nat → List W64 → List Byte → List W64
  | 0, h, _ => h
  | n + 1, h, l => shaBlocks n (shaBlock h (l.take 128)) (l.drop 128)

/-- The 48-byte digest. -/
def sha384 (l : List Byte) : List Byte :=
  let m := shaPad l
  ((shaBlocks (m.length / 128) shaInit m).take 6).flatMap (fun x => (bytesOf 8 x).reverse)

/-! ### P-384 -/

def p384p : Nat := 2 ^ 384 - 2 ^ 128 - 2 ^ 96 + 2 ^ 32 - 1
def p384n : Nat := 0xffffffffffffffffffffffffffffffffffffffffffffffffc7634d81f4372ddf581a0db248b0a77aecec196accc52973
def p384b : Nat := 0xb3312fa7e23ee7e4988e056be3f82d19181d9c6efe8141120314088f5013875ac656398d8a2ed19d2a85c8edd3ec2aef
def p384g : Nat × Nat :=
  (0xaa87ca22be8b05378eb1c71ef320ad746e1d3b628ba79b9859f741e082542a385502f25dbf55296c3a545e3872760ab7,
   0x3617de4a96262c6f5d9e98bf9292dc29f8f41dbd289a147ce9da3113b5f0b8c00a60b1ce1d7e819d7a431d7c90ea0e5f)

/-- x ^ e modulo m, over the `k` low bits of e. -/
def powMod (m : Nat) : Nat → Nat → Nat → Nat
  | 0, _, _ => 1
  | k + 1, x, e => (if e % 2 = 1 then x else 1) * powMod m k (x * x % m) (e / 2) % m
/-- The inverse modulo a prime of 384 bits. -/
def invMod (m x : Nat) : Nat := powMod m 384 (x % m) (m - 2)
def subMod (m x y : Nat) : Nat := (x + (m - y % m)) % m

/-- The sum of two points; none is the point at infinity. -/
def pAdd : Option (Nat × Nat) → Option (Nat × Nat) → Option (Nat × Nat)
  | none, q => q
  | p, none => p
  | some (x1, y1), some (x2, y2) =>
    if x1 = x2 ∧ (y1 + y2) % p384p = 0 then none
    else
      let l := if x1 = x2 then subMod p384p (3 * x1 * x1) 3 * invMod p384p (2 * y1) % p384p
        else subMod p384p y2 y1 * invMod p384p (subMod p384p x2 x1) % p384p
      let x3 := subMod p384p (l * l) (x1 + x2)
      some (x3, subMod p384p (l * subMod p384p x1 x3) y1)
/-- A multiple of a point, over the `k` low bits of the factor. -/
def pMul : Nat → Nat → Option (Nat × Nat) → Option (Nat × Nat)
  | 0, _, _ => none
  | k + 1, f, p => pAdd (if f % 2 = 1 then p else none) (pMul k (f / 2) (pAdd p p))

/-- The point lies on the curve. -/
def onCurve (x y : Nat) : Bool :=
  decide (x < p384p ∧ y < p384p) && decide ((y * y + 3 * x) % p384p = (x * x * x + p384b) % p384p)

/-- The signature (r, s) over a digest verifies under a key of 97 bytes. -/
def ecdsaOk (key digest sig : List Byte) : Bool :=
  let x := natOfBytesBE ((key.drop 1).take 48)
  let y := natOfBytesBE ((key.drop 49).take 48)
  let r := natOfBytesBE (sig.take 48)
  let s := natOfBytesBE ((sig.drop 48).take 48)
  let w := invMod p384n s
  decide (nth 0 key 0 = 4) && onCurve x y && decide (0 < r ∧ r < p384n ∧ 0 < s ∧ s < p384n) &&
  (match pAdd (pMul 384 (natOfBytesBE digest * w % p384n) (some p384g)) (pMul 384 (r * w % p384n) (some (x, y))) with
    | some q => decide (q.1 % p384n = r)
    | none => false)

end Sys2Proof.Machine
end

