-- ==== Sys2Proof/Machine/Loading.lean ====
section
/-! DEFINITION. Images and patch packages: their checks, the load of the control stores, the golden copies and their
rebuild, and the commit of a patch (R171..R178, R182..R185, R318, R412). -/

namespace Sys2Proof.Machine
open Sys2Proof

/-! ### Bulk replacement -/

/-- The entries of indexes `lo .. lo + n - 1` of a sparse array replaced by those of a list, `d` being unlisted. -/
def Map.splice {α : Type} [DecidableEq α] (d : α) (m : Map α) (lo n : Nat) (l : List α) : Map α :=
  m.filter (fun x => decide (x.1 < lo)) ++
  ((List.range l.length).zip l).filterMap (fun x => if x.2 = d then none else some (lo + x.1, x.2)) ++
  m.filter (fun x => decide (lo + n ≤ x.1))

/-- The Syntax core writes a long run of bytes: as `memWrite`, with the reservations on it ended. -/
def bulkWrite (a : Nat) (l : List Byte) (b : Block) : Block :=
  let n := l.length
  breakLeases { b with
    mem := Map.splice 0 b.mem a n l
    poison := b.poison.filter (fun x => !(covered a n x))
    wbs := b.wbs.filter (fun x => !(decide (a / 8 ≤ x ∧ 8 * x < a + n))) } none a n

/-- The words of a cluster's whole store are replaced; its loop buffers hold none of them (R68). -/
def csReplace (c : CluId) (ws : List PWord) (b : Block) : Block :=
  let b := { b with cs := Map.splice 0 b.cs (c.toNat * 16384) 16384 ws }
  allEngIn.foldl (fun b i => b.modEng (mkEng c i) (fun g => { g with lbBuf := [] })) b

/-! ### Fields of an image or package (R172..R175, R182) -/

/-- `n` bytes at offset `i`, as a number. -/
def imgN (l : List Byte) (i n : Nat) : Nat := natOfBytes ((l.drop i).take n)
/-- All of `n` bytes at offset `i` are 0. -/
def imgZero (l : List Byte) (i n : Nat) : Bool := ((l.drop i).take n).all (fun x => x == 0)

/-- TOTAL, and the trailer's parts. -/
def imgTotal (l : List Byte) : Nat := imgN l 0x10 4
def trailer (l : List Byte) (i n : Nat) : List Byte := (l.drop (imgTotal l + i)).take n

/-- A body's descriptor. -/
structure BodyDesc where
  off : Nat
  count : Nat
  xvBase : Byte
  policy : Byte
  deriving DecidableEq, Repr

def bodyDesc (l : List Byte) (b : Nat) : BodyDesc :=
  let o := 0x80 + 16 * b
  { off := imgN l o 4, count := imgN l (o + 4) 2, xvBase := nth 0 (l.drop (o + 6)) 0, policy := nth 0 (l.drop (o + 7)) 0 }

/-- The record at offset `o` is laid out as R174 says, and its parity matches its word. -/
def recordOk (l : List Byte) (o offMask : Nat) : Bool :=
  let r := (l.drop o).take 24
  (recWord r).bad == 0 && decide (imgN r 20 2 < 1024) && decide (imgN r 22 2 ≤ offMask)

/-- Body index of a cluster, or 0xFF. -/
def imgCmap (l : List Byte) (c : Nat) : Nat := imgN l (0x40 + c) 1

/-! ### The checks of R176 -/

/-- Steps 1 to 5: the result code of the first that fails. -/
def checkCommon (b : Block) (format : Nat) (l : List Byte) : Option Nat :=
  if !(decide (imgN l 0 4 = 0x584A574B ∧ imgN l 4 2 = format ∧ imgTotal l % 8 = 0 ∧ imgTotal l + 248 = l.length)) then some 0x10
  else if !(b.imp.keyValid && !b.imp.keyRevoked && sha384 (trailer l 0 97) == bytesOf 48 b.imp.keyDig) then some 0x11
  else
    let dig := sha384 (l.take (imgTotal l))
    if dig != trailer l 104 48 then some 0x12
    else if !(ecdsaOk (trailer l 0 97) dig (trailer l 152 96)) then some 0x13
    else if imgN l 8 4 ≠ blockVersion.toNat then some 0x14
    else none

/-- Two bodies' words do not overlap. -/
def apart (x y : BodyDesc) : Bool := decide (x.off + 24 * x.count ≤ y.off ∨ y.off + 24 * y.count ≤ x.off)

/-- Step 6, of an image. -/
def layoutOk (l : List Byte) : Bool :=
  let n := imgN l 0x14 1
  let ds := (List.range n).map (bodyDesc l)
  decide (1 ≤ n ∧ n ≤ 16) && imgZero l 6 2 && imgZero l 0x15 43 && trailer l 97 7 == List.replicate 7 (0 : Byte) &&
  (List.range 64).all (fun c => decide (imgCmap l c < n ∨ imgCmap l c = 0xFF)) &&
  (List.range 64).any (fun c => imgCmap l c != 0xFF) &&
  (List.range n).all (fun k =>
    let d := bodyDesc l k
    decide (d.off % 8 = 0 ∧ 0x180 ≤ d.off ∧ d.off + 24 * d.count ≤ imgTotal l ∧ 1 ≤ d.count ∧ d.count ≤ 8192 ∧ d.policy.toNat < 4) &&
    imgZero l (0x80 + 16 * k + 8) 8) &&
  (List.range (16 - n)).all (fun k => imgZero l (0x80 + 16 * (n + k)) 16) &&
  (List.range n).all (fun i => (List.range i).all (fun j => apart (nth { off := 0, count := 0, xvBase := 0, policy := 0 } ds i)
    (nth { off := 0, count := 0, xvBase := 0, policy := 0 } ds j))) &&
  ds.all (fun d => (List.range d.count).all (fun i => recordOk l (d.off + 24 * i) 0))

/-! ### Loading (R177, R178, R318) -/

/-- The filler word as the store holds it (R171). -/
def fillerP : PWord := stored fillerWord

/-- The words of a body, and the whole store that it gives. -/
def bodyWords (l : List Byte) (d : BodyDesc) : List PWord :=
  (List.range d.count).map (fun i => recWord ((l.drop (d.off + 24 * i)).take 24))
def storeOf (ws : List PWord) : List PWord := ws ++ List.replicate (8704 - ws.length) fillerP

/-- The bytes of a golden slot: the words, then the cleared patch table. -/
def goldenBytes (ws : List PWord) : List Byte := ws.flatMap (fun w => wordRec w 0) ++ List.replicate 128 0

/-- A cluster is loaded from body `k`, or emptied. -/
def loadCluster (l : List Byte) (c : CluId) (b : Block) : Block :=
  let k := imgCmap l c.toNat
  let d := bodyDesc l k
  let ws := if k = 0xFF then [] else bodyWords l d
  (csReplace c (storeOf ws) b).modClu c (fun v =>
    let v := { v with
      patch := 0, pm := [], pmOld := [], stagedPm := [], pmActive := 0, pmWait := 0, pmRepair := false, pmLate := false, repairs := []
      lastRepair := [] }
    if k = 0xFF then { v with state := .empty, body := 0, image := 0, policy := 0, xvBase := 0, xvValid := false }
    else { v with
      state := .loaded, body := BitVec.ofNat 4 k, image := BitVec.ofNat 32 (imgN l 0xC 4), policy := d.policy.setWidth 2
      xvBase := d.xvBase, xvValid := true })

/-- Entry 63 of a section, over its golden range. -/
def goldenRegion (s : SecId) (b : Block) : Block :=
  putRegion s.toNat 63 (s.toNat * 2048 + 0x500) (s.toNat * 2048 + 0x5FF) b

/-- An image that has passed every check is loaded. A fenced section's stores and golden slots are rebuilt at its
unfence. -/
def loadImage (l : List Byte) (b : Block) : Block :=
  let n := imgN l 0x14 1
  let b := allSecs.foldl (fun b s => b.modSec s (fun x => { x with rebuild := x.fenced, stale := false })) b
  let b := allClus.foldl (fun b c => loadCluster l c b) b
  let b := { b with syn := { b.syn with
    bodies := (List.range n).foldl (fun m k => Map.set 0 m k (bodyDesc l k).count) [] } }
  let b := times n (fun k b =>
    let g := goldenBytes (storeOf (bodyWords l (bodyDesc l k)))
    [false, true].foldl (fun b r =>
      let body : BitVec 4 := BitVec.ofNat 4 k
      if goldenOk b (goldenSec body r) then bulkWrite (goldenBase body r) g b else b) b) b
  let b := allSecs.foldl (fun b s => if b.fenced s then b else goldenRegion s b) b
  unholdRings b

/-- LOADED: the clusters that an image loads. -/
def loadedMask (l : List Byte) : BitVec 64 :=
  (List.range 64).foldl (fun m c => putBit m c (imgCmap l c != 0xFF)) 0

/-! ### Patch packages (R182..R185) -/

def pkgEntry (l : List Byte) (i : Nat) : Reg32 := BitVec.ofNat 32 (imgN l (0x20 + 4 * i) 4)
def pkgNent (l : List Byte) : Nat := imgN l 0x15 1
def pkgNword (l : List Byte) : Nat := imgN l 0x18 2
/-- Record `j`: its word and its patch-area offset. -/
def pkgWord (l : List Byte) (j : Nat) : PWord := recWord ((l.drop (0xA0 + 24 * j)).take 24)
def pkgOff (l : List Byte) (j : Nat) : BitVec 9 := BitVec.ofNat 9 (imgN l (0xA0 + 24 * j + 22) 2)

/-- Step 6, of a package. -/
def pkgLayoutOk (l : List Byte) : Bool :=
  decide (pkgNent l ≤ 32 ∧ pkgNword l ≤ 512 ∧ 0xA0 + 24 * pkgNword l ≤ imgTotal l) &&
  imgZero l 6 2 && imgZero l 0x1A 6 && trailer l 97 7 == List.replicate 7 (0 : Byte) &&
  (List.range 32).all (fun i =>
    let r := pkgEntry l i
    if i < pkgNent l then r.extractLsb' 23 8 == (0 : BitVec 8) else r == 0) &&
  (List.range (pkgNword l)).all (fun j => recordOk l (0xA0 + 24 * j) 511)

/-- The target clusters: the loaded ones of the body. -/
def pkgTargets (b : Block) (l : List Byte) : List CluId :=
  allClus.filter (fun c => (b.clu c).runs && decide ((b.clu c).body.toNat = imgN l 0x14 1))

/-- Step 7 for one target: STALE or NOROOM. -/
def pkgFits (l : List Byte) (v : Clu) : Option Nat :=
  let repair (r : Reg32) : Bool := pmEn r && pmRepairBit r
  let offs := (List.range (pkgNword l)).map (pkgOff l)
  if v.image.toNat ≠ imgN l 0xC 4 ∨ v.patch.toNat ≠ imgN l 0x16 2 then some 0x16
  else if (List.range 32).any (fun i =>
      let r := Map.get 0 v.pm i
      (repair r && decide (i < pkgNent l)) || (pmEn r && offs.contains (pmPaddr r))) then some 0x17
  else none

/-- The table that a package gives a cluster: its repair entries stay. -/
def pkgTable (l : List Byte) (v : Clu) : Map Reg32 :=
  (List.range 32).foldl (fun m i =>
    let r := Map.get 0 v.pm i
    Map.set 0 m i (if pmEn r && pmRepairBit r then r else pkgEntry l i)) []

/-- A package is applied to a cluster: its words are staged, then written into the patch area, and its table is committed
(R183 steps 1 to 4). -/
def pkgCommit (l : List Byte) (c : CluId) (b : Block) : Block :=
  let t := pkgTable l (b.clu c)
  let b := b.modClu c (fun v => { v with stagedPm := (List.range (pkgNword l)).map (fun j => (pkgOff l j, pkgWord l j)) })
  commitGen c t false
    (times (pkgNword l) (fun j b => csWrite c (0x2000 + (pkgOff l j).setWidth 14) (pkgWord l j) b) b)

/-- A commit that a fence has discarded (R185): the cluster keeps its old table until its store is rewritten, and the PATCHLOST
record of R440 is sent. -/
def pkgDiscard (c : CluId) (b : Block) : Block :=
  let b := detect (0x400 + c.toNat) 4 0 (b.modSec (cluSec c) (fun x => { x with rebuild := true }))
  if (b.clu c).pmWait = 0 then b
  else b.modClu c (fun v => { v with pm := v.pmOld, pmWait := 0, state := .loaded, stagedPm := [] })

/-! ### Rebuild of a section at its unfence (R178, R412) -/

/-- The patch table of a body's golden copy, from the replica that its section allows. -/
def goldenTable (b : Block) (body : BitVec 4) : Map Reg32 :=
  let second := !(goldenOk b (goldenSec body false))
  (List.range 32).foldl (fun m i => Map.set 0 m i (ofBytes 32 (readBytes b (goldenPm body second i) 4))) []

/-- The whole store of a body from its golden copies; none where a word fails in both. -/
def goldenStore (b : Block) (body : BitVec 4) : Option (List PWord) :=
  (List.range 8704).foldr (fun a r => match r, goldenWord b body (BitVec.ofNat 14 a) false false with
    | some l, some w => some (w :: l)
    | _, _ => none) (some [])

/-- The golden slots of section s are rebuilt from the other replicas; false where one of them is not to be had. -/
def rebuildSlots (s : SecId) (b : Block) : Block × Bool :=
  b.syn.bodies.foldl (fun (x : Block × Bool) y =>
    let body : BitVec 4 := BitVec.ofNat 4 y.1
    [false, true].foldl (fun (x : Block × Bool) r =>
      if goldenSec body r ≠ s then x
      else if goldenOk x.1 (goldenSec body (!r)) then
        (bulkWrite (goldenBase body r) (readBytes x.1 (goldenBase body (!r)) 209024) x.1, x.2)
      else (x.1, false)) x) (b, true)

/-- A cluster's store is rewritten from the golden copies; where they fail the cluster goes OUT (R191). -/
def rebuildCluster (c : CluId) (b : Block) : Block :=
  let v := b.clu c
  if !v.runs then b
  else match goldenStore b v.body with
    | some ws => (csReplace c ws b).modClu c (fun w => { w with
        state := .loaded, pm := goldenTable b v.body, pmOld := [], pmWait := 0, pmRepair := false, repairs := [], stagedPm := [] })
    | none => detect (0x400 + c.toNat) 3 0 (goOut c b)

/-- The clusters of a section. -/
def secClus (s : SecId) : List CluId := (List.range 8).map (fun i => (s ++ BitVec.ofNat 3 i : BitVec 6))

/-- A section that was powered down, or that missed a load or a commit, is rebuilt: its golden slots, and its clusters' stores
unless only the slots have missed something. Slots that have no other replica stay stale. -/
def rebuildSection (s : SecId) (b : Block) : Block :=
  if (b.sec s).rebuild || (b.sec s).stale then
    let x := rebuildSlots s b
    let b := if (b.sec s).rebuild then (secClus s).foldl (fun b c => rebuildCluster c b) x.1 else x.1
    b.modSec s (fun y => { y with rebuild := false, stale := !x.2 })
  else b

end Sys2Proof.Machine
end

