-- ==== Sys2Proof/Machine/Debug.lean ====
section
/-! DEFINITION. Debug and run control: halts, steps, leases across a halt, comparators, the debug bus master, perturbation
and the DBG_ registers (R462..R484). -/

namespace Sys2Proof.Machine
open Sys2Proof

def Block.modDbg (b : Block) (f : Dbg → Dbg) : Block := { b with dbg := f b.dbg }
def Block.modEngDbg (b : Block) (e : EngId) (f : EngDebug → EngDebug) : Block :=
  b.modEng e (fun g => { g with dbg := f g.dbg })

/-! ### Leases across a halt (R476) -/

/-- A write of DBG_CTL. -/
def writeDbgCtl (d : Reg32) (b : Block) : Block :=
  let b := b.modDbg (fun g => { g with side := d.getLsbD 0, holdLease := d.getLsbD 1 })
  if d.getLsbD 1 then
    { b with leases := b.leases.map (fun l =>
        if ((b.ctx l.owner).halt.halted ∨ (b.ctx l.owner).mchk.isSome) ∧ l.heldSince = none then { l with heldSince := some b.now } else l) }
  else { b with leases := b.leases.map (Lease.unhold b.now) }

/-- HOLD_LEASE_END: a reservation held for 1,000,000 ticks in all ends by expiry, with a HOLDEND record. -/
def opHoldLeaseEnd (n : CtxNo) (b : Block) : Block :=
  match b.leases.find? (fun l => l.owner == n && (match l.heldSince with
      | some t => decide (1000000 ≤ l.held + (b.now - t))
      | none => false)) with
  | some l =>
    let b := { b with leases := b.leases.filter (fun x => x.owner != n) }
    let b := b.modUnit l.unit (fun m => { m with expired := m.expired.count b.now 1 })
    let b := b.modFile n (b.ctx n).lvl (fun c => { c with stat := putBit c.stat 6 true })
    detect (engOf n).toNat 0x23 ((ctxOf n).setWidth 24) b
  | none => b

/-! ### Halt, release and step (R465..R470) -/

/-- CONTEXT_HALT: a context that must halt stops at its boundary, as an interrupt would stop it. -/
def opContextHalt (n : CtxNo) (b : Block) : Block :=
  let e := engOf n
  let c := b.ctx n
  let g := b.eng e
  if mustHalt b n && !c.halt.halted && c.chan.isSome && c.mchk.isNone && !g.inReset && !(g.dividing (ctxOf n)) &&
      c.act.boundary (midBit b n) then
    let b := b.modEngDbg e (fun d =>
      if d.step = some (ctxOf n) then { d with step := none, cause := (ctxOf n).setWidth 12 ||| 0x040 }
      else match c.halt.request with
        | some (cause, i) => { d with
            cause := (ctxOf n).setWidth 12 ||| cause.setWidth 12 <<< 4 ||| i.setWidth 12 <<< 7 }
        | none => d)
    holdLeases n ((abandon n b).modCtx n (fun c => { c with
      halt := { c.halt with halted := true, request := none, stepping := false } }))
  else b

/-- A context is HALT by the debugger, or FREE. -/
def haltedOrFree (c : Ctx) : Bool := (c.chan.isNone && c.act == .idle) || c.halt.halted

/-- HALT_COMPLETE: RUN reads 0b01, engine timers freeze, and the watchdog stops (R216, R453, R467). -/
def opHaltComplete (e : EngId) (b : Block) : Block :=
  let g := b.eng e
  if g.dbg.haltReq && !g.halted && !g.inReset && (ctxsOf e).all (fun n => haltedOrFree (b.ctx n)) then
    let b := freezeTimers e (b.modEng e (fun g => { g with halted := true }))
    if b.imp.dbgFreeze then wdReload e b else b
  else b

/-- Halt requests that DBG_ENG_CFG.MODE turns away. -/
def haltRefused (e : EngId) (b : Block) : Block := b.modEngDbg e (fun d => { d with err := d.err.set b.now })

/-- A DEBUG exception that a write of DBG_ENG_CTL asks for (R472). -/
def askDebug (n : CtxNo) (b : Block) : Block :=
  pendExc n { code := 0x0E, kind := 2, sub := 0x3F, fupc := (b.ctx n).upc, lvl := .prog } b

/-- A bound context, or one whose channel is being moved. -/
def haltable (b : Block) (n : CtxNo) : Bool := (b.ctx n).chan.isSome || (match (b.ctx n).act with
  | .swap .. => true
  | _ => false)

/-- Halt requests for contexts of an engine: halts, DEBUG exceptions, or refused. -/
def haltContexts (e : EngId) (mask : BitVec 16) (whole : Bool) (b : Block) : Block :=
  let named := (ctxsOf e).filter (fun n => mask.getLsbD (ctxOf n).toNat && haltable b n)
  let md := (b.eng e).dbg.mode
  if md = 1 then
    let b := named.foldl (fun b n =>
      if (b.ctx n).halt.halted || (b.ctx n).halt.request.isSome then b else askHalt n 1 0 b) b
    if whole then askEngineHalt e b else b
  else if md = 2 then named.foldl (fun b n => askDebug n b) b
  else haltRefused e b

/-- RELEASE: every context that the debugger halted goes on; in TEST it releases an engine from reset (R406), that of an
EMPTY cluster too (the model's choice between R170 and R406: log entry 86). -/
def dbgRelease (e : EngId) (b : Block) : Block :=
  let was := (b.eng e).halted
  let b := (ctxsOf e).foldl (fun b n =>
    let b := if (b.ctx n).halt.halted then releaseLeases n b else b
    b.modCtx n (fun c => { c with halt := if c.halt.halted then { skipCmp := true } else { c.halt with request := none } })) b
  let b := b.modEng e (fun g => { g with halted := false, dbg := { g.dbg with haltReq := false, step := none } })
  if was then
    let b := freezeTimers e b
    let b := if b.imp.dbgFreeze then wdReload e b else b
    activateEngine e b
  else if b.mode == .test && (b.eng e).inReset then releaseEngine e b
  else b

/-- STEP: one step of a halted context of a halted engine, which first activates a committed generation, since the step
fetches (R184). -/
def dbgStep (e : EngId) (k : CtxId) (b : Block) : Block :=
  let n := ctxNo e k
  let g := b.eng e
  if g.halted && g.dbg.step.isNone && (b.ctx n).halt.halted then
    (releaseLeases n (activateEngine e b)).modCtx n (fun c => { c with halt := { stepping := true, skipCmp := true } })
      |>.modEngDbg e (fun d => { d with step := some k })
  else haltRefused e b

/-- STEPABORT: a stepped wait ends early. -/
def dbgStepAbort (e : EngId) (b : Block) : Block := match (b.eng e).dbg.step with
  | some k =>
    let n := ctxNo e k
    if (b.ctx n).act.stepWaits then askHalt n 4 0 b else b
  | none => b

/-- A write of DBG_ENG_CTL: its bits act in the order of their places, the context halts first (log entry 32). -/
def writeEngCtl (e : EngId) (d : Reg32) (b : Block) : Block :=
  let b := if d.extractLsb' 16 16 ≠ 0 then haltContexts e (d.extractLsb' 16 16) false b else b
  let b := if d.getLsbD 0 then haltContexts e 0xFFFF true b else b
  let b := if d.getLsbD 1 then dbgRelease e b else b
  let b := if d.getLsbD 2 then dbgStep e (d.extractLsb' 4 4) b else b
  if d.getLsbD 3 then dbgStepAbort e b else b

/-! ### Comparators (R473, R474, R484) -/

/-- DBG_CMP_CTL as it is kept. -/
def cmpMask : Reg32 := 0xFFFF07FF

/-- An engine's own comparators: CTL, ADDR_LO, ADDR_HI, COUNT at offsets 0, 4, 8, 12. -/
def cmpWrite (now r : Nat) (d : Reg32) (c : Cmp) : Cmp := match r with
  | 0 => { c with ctl := d &&& cmpMask }
  | 4 => { c with addr := setLo c.addr d }
  | 8 => { c with addr := setHi c.addr d }
  | 12 => { c with count := c.count.put now (d.extractLsb' 0 16) }
  | _ => c
def cmpRead (now r : Nat) (c : Cmp) : Reg32 := match r with
  | 0 => c.ctl
  | 4 => lo32 c.addr
  | 8 => hi32 c.addr
  | 12 => fld 0 (c.count.pre now)
  | _ => 0

/-- Pool comparators that an engine-in-cluster owns. -/
def poolOwned (v : Clu) (i : BitVec 3) : Nat :=
  ((List.range 16).filter (fun p => (Map.get {} v.pool p).owned && (Map.get {} v.pool p).owner == i)).length

/-- DBG_PCMP_CTL[p]: a write that sets OWNED lands where the stored EN is 0 and the owner has room. -/
def pcmpCtl (c : CluId) (p : Nat) (d : Reg32) (b : Block) : Block :=
  let v := b.clu c
  let old := Map.get {} v.pool p
  let own : BitVec 3 := d.extractLsb' 11 3
  if d.getLsbD 14 && !(!(old.ctl.getLsbD 0) && (decide (poolOwned v own < 6) || (old.owned && old.owner == own))) then
    b.modClu c (fun v => { v with aerr := v.aerr.set b.now })
  else b.modClu c (fun v => { v with pool := Map.mod {} v.pool p (fun x => { x with
    ctl := d &&& cmpMask, owned := d.getLsbD 14, owner := own }) })

/-- DBG_POOL. -/
def dbgPool (now : Nat) (v : Clu) : Reg32 :=
  (List.range 16).foldl (fun r p => r ||| bit p (Map.get {} v.pool p).owned) (bit 16 (v.aerr.pre now))

/-! ### The debug area of a cluster window (R484) -/

/-- DBG_ENG_STAT. -/
def dbgEngStat (b : Block) (e : EngId) : Reg32 :=
  let g := b.eng e
  fldN 0 (if g.dbg.step.isSome then 3 else if g.halted then 2 else if g.dbg.haltReq then 1 else 0) ||| bit 2 (g.dbg.err.pre b.now) |||
  (ctxsOf e).foldl (fun r n => r ||| bit (16 + (ctxOf n).toNat) (b.ctx n).halt.halted) 0

/-- Offset `r` of an engine's 64 bytes. -/
def dbgEngRead (b : Block) (e : EngId) (r : Nat) : Reg32 :=
  let d := (b.eng e).dbg
  match r with
  | 0x00 => fld 0 d.mode ||| bit 2 d.haltAll
  | 0x08 => dbgEngStat b e
  | 0x0C => fld 0 d.cause
  | 0x10 => lo32 d.injCause
  | 0x14 => hi32 d.injCause
  | 0x18 => d.monIn
  | 0x1C => d.monOut
  | _ => if 0x20 ≤ r ∧ r < 0x40 then cmpRead b.now (r % 16) (Map.get {} d.cmp ((r - 0x20) / 16)) else 0
def dbgEngWrite (e : EngId) (r : Nat) (v : Reg32) (b : Block) : Block := match r with
  | 0x00 => b.modEngDbg e (fun d => { d with mode := v.extractLsb' 0 2, haltAll := v.getLsbD 2 })
  | 0x04 => writeEngCtl e v b
  | 0x08 => b.modEngDbg e (fun d => { d with err := d.err.clearIf b.now (v.getLsbD 2) })
  | 0x18 => b.modEngDbg e (fun d => { d with monIn := v })
  | 0x1C => b.modEngDbg e (fun d => { d with monOut := v })
  | _ =>
    if 0x20 ≤ r ∧ r < 0x40 then
      b.modEngDbg e (fun d => { d with cmp := Map.mod {} d.cmp ((r - 0x20) / 16) (cmpWrite b.now (r % 16) v) })
    else b

/-- Offset `r` from +0x1000 of a cluster window. -/
def dbgCluRead (b : Block) (c : CluId) (r : Nat) : Reg32 :=
  let v := b.clu c
  if r < 0x200 then dbgEngRead b (mkEng c (BitVec.ofNat 3 (r / 0x40))) (r % 0x40)
  else if r < 0x300 then
    let x := Map.get {} v.pool ((r - 0x200) / 16)
    if r % 16 = 0 then x.ctl ||| fld 11 x.owner ||| bit 14 x.owned else cmpRead b.now (r % 16) x
  else if r = 0x300 then dbgPool b.now v
  else if r = 0x304 then fld 0 v.monEntry ||| bit 31 v.monValid
  else 0
def dbgCluWrite (c : CluId) (r : Nat) (d : Reg32) (b : Block) : Block :=
  if r < 0x200 then dbgEngWrite (mkEng c (BitVec.ofNat 3 (r / 0x40))) (r % 0x40) d b
  else if r < 0x300 then
    let p := (r - 0x200) / 16
    if r % 16 = 0 then pcmpCtl c p d b
    else b.modClu c (fun v => { v with pool := Map.mod {} v.pool p (cmpWrite b.now (r % 16) d) })
  else if r = 0x300 then b.modClu c (fun v => { v with aerr := v.aerr.clearIf b.now (d.getLsbD 16) })
  else if r = 0x304 then b.modClu c (fun v => { v with monEntry := d.extractLsb' 0 14, monValid := d.getLsbD 31 })
  else b

/-- A context's system store may write DBG_MON_OUT and the own comparators of its engine. -/
def dbgCtxMay (e : EngId) (c : CluId) (r : Nat) : Bool :=
  decide (r < 0x200) && mkEng c (BitVec.ofNat 3 (r / 0x40)) == e && decide (0x1C ≤ r % 0x40)

/-! ### The debug bus master (R477, R478) -/

/-- Bytes of an access, by DBG_MCTL.SIZE. -/
def busSize (d : Dbg) : Nat := if d.mctl.extractLsb' 12 2 = 0 then 1 else if d.mctl.extractLsb' 12 2 = 1 then 2 else 4

/-- The answer of the Debug Access Port. -/
def dapAnswer (v : Reg32) (denied : Bool) (b : Block) : Block := { b with rsp := Map.set none b.rsp 1 (some (v, denied)) }

/-- An access ends with an outcome: it is answered, and DBG_MADDR advances. -/
def busEnd (err : BitVec 3) (v : Reg32) (b : Block) : Block :=
  dapAnswer v false (b.modDbg (fun d => { d with
    bus := none, merr := err, sticky := d.sticky.setIf b.now (err != 0), mdata := if (d.bus.map (fun x => x.write)).getD false then d.mdata else v
    maddr := if d.mctl.getLsbD 14 then d.maddr + BitVec.ofNat 48 (busSize d) else d.maddr }))

/-- The first address of the access's bytes lies with the last in main memory, or in the dual-port region. -/
def busArea (a n : Nat) : Bool := match areaOf a n with
  | .main | .dpr => true
  | _ => false

/-- A DAP access of DBG_MDATA begins; while one is under way the port holds the next. -/
def busStart (write : Bool) (data : Reg32) (b : Block) : Block :=
  if b.dbg.bus.isSome then b
  else
    let d := b.dbg
    let b := b.modDbg (fun d => { d with
      bus := some { write := write, addr := d.maddr, size := busSize d, data := data, at_ := b.now }
      mdata := if write then data else d.mdata })
    if busArea d.maddr.toNat (busSize d) then b else busEnd 1 0 b

/-- ERR of a bank's refusal. -/
def busRefused : BankCheck → BitVec 3
  | .pass => 0
  | .bus => 2
  | .region => 3
  | .memue => 4

/-- DEBUG_BUS_ACCESS_DONE: the bank performs the access. -/
def opDebugBusAccessDone (ecc : Ecc) (b : Block) : Block :=
  match b.dbg.bus with
  | none => b
  | some x =>
    let a := x.addr.toNat
    let t : Tenant := b.dbg.mctl.extractLsb' 0 12
    let lines := if x.write then mergeLines false a x.size else linesOf a x.size
    let b := arrive b t (!x.write) x.write a x.size lines ecc
    let b := if inFenced b a x.size then b else memPerturb a b
    match bankCheck b t (!x.write) x.write a x.size with
    | .pass =>
      if x.write then
        busEnd 0 0 (spineWrite a (bytesOf x.size x.data) b)
      else
        let b := touch true false a x.size b
        busEnd 0 (ofBytes 32 (readBytes b a x.size)) b
    | k => busEnd (busRefused k) 0 b

/-- DEBUG_BUS_TIMEOUT: 2^20 memory cycles have passed, and the request is withdrawn. -/
def opDebugBusTimeout (b : Block) : Block :=
  match b.dbg.bus with
  | some x => if x.at_ + 655360 ≤ b.now then busEnd 5 0 b else b
  | none => b

/-! ### Perturbation and the instance's debug registers (R480, R481, R483) -/

/-- The condition of ACTIVE. -/
def perturbOn (b : Block) : Bool := b.dbg.pEn && (b.mode == .test || (b.mode == .service && b.imp.testOpen))

/-- A write of the seed loads the LFSR; 0 acts as 1. -/
def seedWrite (d : Reg32) (b : Block) : Block := b.modDbg (fun g => { g with pSeed := d, lfsr := if d = 0 then 1 else d })

/-- The registers of 0x0A00..0x0B1F of the instance window. -/
def dbgInstRead (b : Block) (r : Nat) : Reg32 :=
  let d := b.dbg
  match r with
  | 0xA00 => bit 0 d.side ||| bit 1 d.holdLease ||| bit 2 d.fuseEn
  | 0xA04 => lo32 d.maddr
  | 0xA08 => hi32 d.maddr
  | 0xA0C => fld 0 d.mctl
  | 0xA10 => d.mdata
  | 0xA14 => fld 0 d.merr ||| bit 3 (d.sticky.pre b.now)
  | 0xB00 => bit 0 d.pEn ||| bit 1 d.pActive
  | 0xB04 => d.pSeed
  | 0xB08 => fld 0 d.pMem
  | 0xB0C => fld 0 d.pHost
  | 0xB10 => fld 0 d.pQueue
  | 0xB14 => fld 0 d.pXing
  | 0xB18 => fld 0 d.pDma
  | 0xB1C => d.pCnt.pre b.now
  | _ => 0
def dbgInstWrite (r : Nat) (v : Reg32) (b : Block) : Block := match r with
  | 0xA00 => writeDbgCtl v b
  | 0xA04 => b.modDbg (fun d => { d with maddr := setLo d.maddr v })
  | 0xA08 => b.modDbg (fun d => { d with maddr := setHi d.maddr v })
  | 0xA0C => b.modDbg (fun d => { d with mctl := v.extractLsb' 0 15 })
  | 0xA14 => b.modDbg (fun d => { d with sticky := d.sticky.clearIf b.now (v.getLsbD 3) })
  | 0xB00 => b.modDbg (fun d => { d with pEn := v.getLsbD 0 })
  | 0xB04 => seedWrite v b
  | 0xB08 => b.modDbg (fun d => { d with pMem := v.extractLsb' 0 18 })
  | 0xB0C => b.modDbg (fun d => { d with pHost := v.extractLsb' 0 12 })
  | 0xB10 => b.modDbg (fun d => { d with pQueue := v.extractLsb' 0 23 })
  | 0xB14 => b.modDbg (fun d => { d with pXing := v.extractLsb' 0 9 })
  | 0xB18 => b.modDbg (fun d => { d with pDma := v.extractLsb' 0 20 })
  | _ => b

end Sys2Proof.Machine
end

