-- ==== Sys2Proof/Machine/Raster.lean ====
section
/-! DEFINITION. Raster heads: strobes, shadow writes, line actions, commits and RCOM_ (R485..R501). -/

namespace Sys2Proof.Machine
open Sys2Proof

abbrev HeadNo := BitVec 8

def Block.head (b : Block) (h : HeadNo) : Head := Map.get {} b.ras.heads h.toNat
def Block.modHead (b : Block) (h : HeadNo) (f : Head → Head) : Block :=
  { b with ras := { b.ras with heads := Map.mod {} b.ras.heads h.toNat f } }

/-- A detection of head h (R439, R497). -/
def headDetect (h : HeadNo) (code : Nat) (info : BitVec 24) (b : Block) : Block := detect (0x700 + h.toNat) code info b

/-- YOUNG (R487): two FRAME strobes have not come yet. -/
def Head.young (h : Head) : Bool := decide (h.frames < 2)

/-- HEAD_LTICK (R488). -/
def Head.ltick (h : Head) : Tick :=
  if h.young ∨ h.lcmp = 0xFFFF then 0
  else h.fstamp + h.l0ofs.setWidth 48 + BitVec.ofNat 48 (h.lcmp.toNat * h.lper16.toNat / 16)

/-! ### RCOM_ (R492, R493) -/

/-- A message takes its place in ascending stamp order, behind those of its stamp. -/
def rcomInsert (m : RcomMsg) : List RcomMsg → List RcomMsg
  | [] => [m]
  | x :: l => if m.at_ < x.at_ then m :: x :: l else x :: rcomInsert m l

/-- A SHADOW message: head, layer, index, data, PROT. -/
def shadowMsg (h : HeadNo) (layer : BitVec 4) (index : BitVec 12) (data : Word) (prot : Bool) : BitVec 96 :=
  (1 : BitVec 96) ||| h.setWidth 96 <<< 4 ||| layer.setWidth 96 <<< 12 ||| index.setWidth 96 <<< 16 |||
  data.setWidth 96 <<< 32 ||| (if prot then 1 <<< 80 else 0)

/-- A COMMIT message: head, LMASK, HEAD_FRAME[15:0], PROT. -/
def commitMsg (h : HeadNo) (lmask frame : BitVec 16) (prot : Bool) : BitVec 96 :=
  (2 : BitVec 96) ||| h.setWidth 96 <<< 4 ||| lmask.setWidth 96 <<< 16 ||| frame.setWidth 96 <<< 32 |||
  (if prot then 1 <<< 80 else 0)

/-- A message enters the outbound queue with a stamp. -/
def rcomEnqueue (stamp : Tick) (at_ : Nat) (shadow : Bool) (m : BitVec 96) (b : Block) : Block :=
  { b with ras := { b.ras with rcom := rcomInsert { stamp := stamp, at_ := at_, shadow := shadow, msg := m } b.ras.rcom } }

/-- A write is discarded for want of room: OVF and an RCOMOVF record (R490, R493). -/
def overflow (h : HeadNo) (layer : BitVec 4) (index : BitVec 12) (b : Block) : Block :=
  headDetect h 4 (index.setWidth 24 ||| layer.setWidth 24 <<< 12) (b.modHead h (fun x => { x with ovf := x.ovf.set b.now }))

/-- A SHADOW message is sent with a stamp; its share holds 256. -/
def sendShadow (h : HeadNo) (stamp : Tick) (at_ : Nat) (m : BitVec 96) (b : Block) : Block :=
  if 256 ≤ (b.ras.rcom.filter (fun x => x.shadow)).length then overflow h (m.extractLsb' 12 4) (m.extractLsb' 16 12) b
  else rcomEnqueue stamp at_ true m b

/-- RCOM_SEND: the first queued message leaves 8 ticks after its stamp, or later with LATE; one a tick. -/
def opRcomSend (b : Block) : Block :=
  match b.ras.rcom with
  | [] => b
  | m :: rest =>
    if b.mode = .off ∨ b.now < m.at_ + 8 ∨ b.ras.sentAt = some b.now then b
    else
      let late : BitVec 96 := if m.at_ + 8 < b.now then 1 <<< 81 else 0
      { b with ras := { b.ras with rcom := rest, sentAt := some b.now, sent := some (m.msg ||| late) } }

/-! ### Strobes (R485..R488, R490, R491, R496) -/

/-- The fields of an RSTEV_ message. -/
def rsKind (m : BitVec 64) : BitVec 4 := m.extractLsb' 0 4
def rsHead (m : BitVec 64) : HeadNo := m.extractLsb' 4 8
def rsArg (m : BitVec 64) : BitVec 16 := m.extractLsb' 12 16
/-- A KIND that is not reserved, and zeros above ARG. -/
def rsGood (m : BitVec 64) : Bool := decide (1 ≤ (rsKind m).toNat ∧ (rsKind m).toNat ≤ 4) && m.extractLsb' 28 36 == 0

/-- The strobe is taken: the block runs, the message is one of the KIND, and the head is enabled. -/
def strobed (b : Block) (k : BitVec 4) (m : BitVec 64) : Bool :=
  decide (b.mode ≠ .off) && rsGood m && rsKind m == k && (b.head (rsHead m)).en

/-- A value that a 32-bit statistics register takes: where R487 gives none that fits, a free value. -/
def stat32 (v : Option Nat) (k : Nat) : Reg32 := match v with
  | some x => if x < 2 ^ 32 then BitVec.ofNat 32 x else Config.headOpen k
  | none => Config.headOpen k

/-- HEAD_LPER16 of the frame that ends: none where no line 0 came. -/
def lper16Of (h : Head) : Option Nat :=
  if h.lcount < 2 then some 0
  else h.l0.map (fun l0 => (h.lstamp - l0).toNat * 16 / (h.lcount - 1))

/-- The statistics at a FRAME strobe stamped s; `k` numbers the free values. A head without history keeps zeros. -/
def frameStats (s : Tick) (k : Nat) (h : Head) : Head :=
  let h := if h.frames = 0 then h else { h with
    fper := stat32 (some (s - h.fstamp).toNat) k
    l0ofs := stat32 (h.l0.map (fun t => (t - h.fstamp).toNat)) (k + 1)
    lper16 := stat32 (lper16Of h) (k + 2)
    lines := if h.lcount < 65536 then BitVec.ofNat 16 h.lcount else (Config.headOpen (k + 3)).setWidth 16 }
  { h with frame := h.frame + 1, fstamp := s, frames := if h.frames < 2 then h.frames + 1 else h.frames
           lcount := 0, l0 := none }

/-- The frame that ends is of unexpected length (R496). -/
def unexpected (old new : Head) : Bool :=
  decide (new.tol ≠ 0xFFFFF) &&
  (decide (new.tol.toNat < max new.fper.toNat old.fper.toNat - min new.fper.toNat old.fper.toNat) || new.lines != old.lines)

/-- A frame of unexpected length: DISCONT with its record, line actions dropped, commits held. -/
def discont (h : HeadNo) (b : Block) : Block :=
  let fper := (b.head h).fper
  headDetect h 2 (if fper.toNat < 2 ^ 24 then fper.setWidth 24 else 0xFFFFFF)
    (b.modHead h (fun x => { x with
      discont := x.discont.set b.now, clean := 0, hold := true, ladrop := x.ladrop.setIf b.now (!x.laq.isEmpty), laq := [] }))

/-- A frame of the expected length: CLEAN counts up to 2, which ends HOLD. -/
def cleanFrame (x : Head) : Head :=
  let n := if x.clean.toNat < 2 then x.clean + 1 else x.clean
  { x with clean := n, hold := x.hold && n != 2 }

/-- The latches are forwarded at a FRAME strobe: the ordinary COMMIT before the protected one (R491, R493, R495). -/
def forwardLatches (h : HeadNo) (b : Block) : Block :=
  let x := b.head h
  if x.hold then b
  else
    let bit16 : BitVec 16 := BitVec.ofNat 16 (2 ^ x.plLayer.toNat)
    let b := if x.latch then
        rcomEnqueue b.tick b.now false (commitMsg h (if x.plEn then ~~~bit16 else 0xFFFF) (x.frame.extractLsb' 0 16) false)
          (b.modHead h (fun x => { x with latch := false })) else b
    if x.plEn && x.plLatch then
      rcomEnqueue b.tick b.now false (commitMsg h bit16 (x.frame.extractLsb' 0 16) true)
        (b.modHead h (fun x => { x with plLatch := false, plCnt := x.plCnt.count b.now 1 }))
    else b

/-- FRAME. -/
def opFrame (m : BitVec 64) (b : Block) : Block :=
  if !(strobed b 1 m) then b
  else
    let h := rsHead m
    let old := b.head h
    let b := { b.modHead h (frameStats b.tick b.free) with free := b.free + 4 }
    let b := raiseN (0x200 + h.toNat) b
    let b := match old.chan with
      | some ch => raise (.chan 4 ch) b
      | none => b
    let b :=
      if old.young then b
      else if unexpected old (b.head h) then discont h b
      else b.modHead h cleanFrame
    forwardLatches h b

/-- LINE: HEAD_LINE, RLINE at the compare line, and the line actions of the line. -/
def opLine (m : BitVec 64) (b : Block) : Block :=
  if !(strobed b 2 m) then b
  else
    let h := rsHead m
    let n := rsArg m
    let x := b.head h
    let b := b.modHead h (fun x => { x with
      line := n, lcount := x.lcount + 1, l0 := if n = 0 then some b.tick else x.l0, lstamp := b.tick
      laq := x.laq.filter (fun a => a.line != n) })
    let b := match x.chan with
      | some ch => if n = x.lcmp ∧ n ≠ 0xFFFF then raise (.chan 5 ch) b else b
      | none => b
    (x.laq.filter (fun a => a.line == n)).foldl (fun b a => sendShadow h b.tick b.now a.msg b) b

/-- UNDERRUN and CLONE (R497): a changed value is stored and reported. -/
def opUnderrun (m : BitVec 64) (b : Block) : Block :=
  let h := rsHead m
  if b.mode = .off ∨ !(rsGood m) ∨ rsKind m ≠ 3 ∨ rsArg m = (b.head h).underrun then b
  else headDetect h 1 ((rsArg m).setWidth 24) (b.modHead h (fun x => { x with underrun := rsArg m }))
def opClone (m : BitVec 64) (b : Block) : Block :=
  let h := rsHead m
  let v : BitVec 9 := (rsArg m).extractLsb' 0 9
  if b.mode = .off ∨ !(rsGood m) ∨ rsKind m ≠ 4 ∨ v = (b.head h).clone then b
  else headDetect h 3 (v.setWidth 24) (b.modHead h (fun x => { x with clone := v }))

/-- RSTEV_BADMSG: a malformed message is dropped with a BADMSG record (R485). -/
def opBadmsg (m : BitVec 64) (b : Block) : Block :=
  if b.mode = .off ∨ rsGood m then b else headDetect (rsHead m) 6 ((rsKind m).setWidth 24) b

/-! ### Writes (R489..R491, R495, R500) -/

/-- The origin may store to the head's registers: a context only where its channel is the head's (R489). -/
def headMay (b : Block) (o : Origin) (h : HeadNo) : Bool := match o with
  | .ctx e k => (b.ctx (ctxNo e k)).chan.isSome && (b.ctx (ctxNo e k)).chan == (b.head h).chan
  | _ => true
/-- A store to a head's registers, discarded with FOREIGN where the origin may not. -/
def headStore (o : Origin) (h : HeadNo) (f : Block → Block) (b : Block) : Block :=
  if headMay b o h then f b else b.modHead h (fun x => { x with foreign := x.foreign.set b.now })

/-- HEAD_SHW_HI: a shadow write, or a line action; a write of the protected layer is discarded. -/
def shwHi (o : Nat) (h : HeadNo) (d : Reg32) (b : Block) : Block :=
  let r := b.orgRegs o
  let x := b.head h
  let adr := Map.get 0 r.shwAddr h.toNat
  let index : BitVec 12 := adr.extractLsb' 0 12
  let layer : BitVec 4 := adr.extractLsb' 12 4
  let m := shadowMsg h layer index (d.extractLsb' 0 16 ++ Map.get 0 r.shwLo h.toNat : BitVec 48) false
  if x.plEn && layer == x.plLayer then
    headDetect h 5 (index.setWidth 24 ||| layer.setWidth 24 <<< 12) (b.modHead h (fun x => { x with pviol := x.pviol.set b.now }))
  else if d.getLsbD 31 then
    if 16 ≤ x.laq.length then overflow h layer index b
    else b.modHead h (fun x => { x with laq := x.laq ++ [{ line := adr.extractLsb' 16 16, msg := m }] })
  else sendShadow h b.tick b.now m b

/-- HEAD_COMMIT.COMMIT. -/
def setLatchOf (h : HeadNo) (b : Block) : Block := b.modHead h (fun x => { x with latch := true })

/-- HEAD_CFG: a write of EN = 1 leaves the head without history (R487). -/
def writeHeadCfg (h : HeadNo) (d : Reg32) (b : Block) : Block :=
  b.modHead h (fun x =>
    let x := { x with en := d.getLsbD 0, tol := d.extractLsb' 1 20 }
    if d.getLsbD 0 then { x with frames := 0, fper := 0, l0ofs := 0, lper16 := 0, lines := 0, lcount := 0, l0 := none } else x)

/-- IMP_PL_DATA_HI: the protected shadow write is stamped with the next tick (R495). -/
def plDataHi (h : HeadNo) (d : BitVec 16) (b : Block) : Block :=
  let b := b.modHead h (fun x => { x with plData := setHi x.plData (d.setWidth 32) })
  let x := b.head h
  if x.plEn then sendShadow h (b.tick + 1) (b.now + 1) (shadowMsg h x.plLayer x.plAddr x.plData true) b else b
/-- IMP_PL_COMMIT. -/
def plCommit (h : HeadNo) (b : Block) : Block := b.modHead h (fun x => { x with plLatch := x.plLatch || x.plEn })

/-! ### Registers (R500, R501) -/

def headStat (now : Nat) (x : Head) : Reg32 :=
  bit 0 x.young ||| bit 1 (x.discont.pre now) ||| fld 2 x.clean ||| bit 4 x.hold ||| bit 5 x.latch ||| bit 6 (x.ovf.pre now) |||
  bit 7 (x.pviol.pre now) ||| bit 8 (x.ladrop.pre now) ||| bit 9 (x.foreign.pre now)

/-- A read of offset `r` of head h by the origin with key `o`. -/
def headRead (b : Block) (o : Nat) (h : HeadNo) (r : Nat) : Reg32 :=
  let x := b.head h
  match r with
  | 0x00 => bit 0 x.en ||| fld 1 x.tol
  | 0x04 => headStat b.now x
  | 0x08 => (match x.chan with
    | some c => fld 0 c ||| bit 16 true
    | none => 0)
  | 0x0C => lo32 x.frame
  | 0x10 => hi32 x.frame
  | 0x14 => fld 0 x.line
  | 0x18 => lo32 x.fstamp
  | 0x1C => hi32 x.fstamp
  | 0x20 => if x.young then 0 else x.fper
  | 0x24 => if x.young then 0 else x.l0ofs
  | 0x28 => if x.young then 0 else x.lper16
  | 0x2C => if x.young then 0 else fld 0 x.lines
  | 0x30 => fld 0 x.lcmp
  | 0x34 => lo32 x.ltick
  | 0x38 => hi32 x.ltick
  | 0x40 => Map.get 0 (b.orgRegs o).shwAddr h.toNat
  | 0x44 => Map.get 0 (b.orgRegs o).shwLo h.toNat
  | 0x4C => fldN 0 x.laq.length
  | 0x50 => fld 0 x.underrun
  | 0x54 => fld 0 x.clone
  | _ => 0

/-- A write of offset `r` of head h that has no row of its own. -/
def headWrite (o : Nat) (h : HeadNo) (r : Nat) (d : Reg32) (b : Block) : Block :=
  match r with
  | 0x00 => writeHeadCfg h d b
  | 0x04 => b.modHead h (fun x => { x with
      discont := x.discont.clearIf b.now (d.getLsbD 1), ovf := x.ovf.clearIf b.now (d.getLsbD 6), pviol := x.pviol.clearIf b.now (d.getLsbD 7)
      ladrop := x.ladrop.clearIf b.now (d.getLsbD 8), foreign := x.foreign.clearIf b.now (d.getLsbD 9) })
  | 0x30 => b.modHead h (fun x => { x with lcmp := d.extractLsb' 0 16 })
  | 0x3C => if d.getLsbD 0 then setLatchOf h b else b
  | 0x40 => b.modOrg o (fun q => { q with shwAddr := Map.set 0 q.shwAddr h.toNat d })
  | 0x44 => b.modOrg o (fun q => { q with shwLo := Map.set 0 q.shwLo h.toNat d })
  | 0x48 => shwHi o h d b
  | _ => b

/-- The IMP_PL_ registers of head h, at offset `r` (R501). -/
def plRead (b : Block) (h : HeadNo) (r : Nat) : Reg32 :=
  let x := b.head h
  match r with
  | 0x00 => bit 0 x.plEn ||| fld 1 x.plLayer
  | 0x04 => fld 0 x.plAddr
  | 0x08 => lo32 x.plData
  | 0x0C => hi32 x.plData
  | 0x14 => bit 0 x.plLatch ||| fld 16 (x.plCnt.pre b.now)
  | _ => 0
def plWrite (h : HeadNo) (r : Nat) (d : Reg32) (b : Block) : Block :=
  match r with
  | 0x00 => b.modHead h (fun x => { x with plEn := d.getLsbD 0, plLayer := d.extractLsb' 1 4 })
  | 0x04 => b.modHead h (fun x => { x with plAddr := d.extractLsb' 0 12 })
  | 0x08 => b.modHead h (fun x => { x with plData := setLo x.plData d })
  | 0x0C => plDataHi h (d.extractLsb' 0 16) b
  | 0x10 => if d.getLsbD 0 then plCommit h b else b
  | _ => b

end Sys2Proof.Machine
end

