-- ==== Sys2Proof/Machine/Spine.lean ====
section
/-! DEFINITION. The registers of the instance, SYN, MBX, RING, DMA, FED and section windows: what each offset reads, what a
read clears, and what a write does (R193, R221, R255, R256, R285, R316, R350, R383, R385..R391, R434, R518). -/

namespace Sys2Proof.Machine
open Sys2Proof

/-! ### Modes and resets (R434) -/

/-- The mode code of R406. -/
def Mode.code : Mode → Nat
  | .off => 0
  | .wake => 1
  | .test => 2
  | .load => 3
  | .trim => 4
  | .service => 5
  | .recover => 6
  | .quiesce => 7

/-- One bit for each section. -/
def secBits (p : SecId → Bool) : Reg32 := allSecs.foldl (fun r s => r ||| bit s.toNat (p s)) 0

def instMode (b : Block) : Reg32 :=
  fldN 0 b.mode.code ||| bit 3 (b.mode == .service && allSecs.any (fun s => b.fenced s)) ||| bit 4 b.sup.stopped |||
  bit 5 b.sup.qdone ||| bit 6 b.sup.trimv ||| bit 7 (trimYoung b)
def instSec (b : Block) : Reg32 :=
  secBits (fun s => b.fenced s) ||| secBits (fun s => (b.sec s).req) <<< 8 ||| secBits (fun s => (b.sec s).ack) <<< 16

/-- INST_RESET: BLOCK with the wrong key makes the whole write void. -/
def writeInstReset (d : Reg32) (b : Block) : Block :=
  if d.getLsbD 0 && d.extractLsb' 8 8 != (0xA5 : BitVec 8) then b
  else
    let b := if d.getLsbD 0 then b.modSup (fun u => { u with resetAt := some (u.resetAt.getD (b.now + 1, 2)) }) else b
    allSecs.foldl (fun b s =>
      if d.getLsbD (16 + s.toNat) then b.modSec s (fun x => { x with resetAt := some (x.resetAt.getD (b.now + 1)) }) else b) b

/-! ### Memory units (R58, R255, R256) -/

/-- The registers that a section and the dual-port region have alike, by the section's offsets. -/
def unitRead (now : Nat) (u : MemUnit) (r : Nat) : Reg32 := match r with
  | 0x48 => fld 0 u.lease
  | 0x4C => fld 0 (u.expired.pre now) ||| fld 16 (u.full.pre now)
  | 0x58 => u.eccCe.pre now
  | 0x5C => fld 0 (u.eccUe.pre now)
  | 0x60 => fld 0 u.eccLast
  | _ => 0
def unitClear (now r : Nat) (u : MemUnit) : MemUnit := match r with
  | 0x4C => { u with expired := u.expired.clear now, full := u.full.clear now }
  | 0x58 => { u with eccCe := u.eccCe.clear now }
  | 0x5C => { u with eccUe := u.eccUe.clear now }
  | _ => u

/-- Region entry `k`: BASE, LIMIT, CTL at offsets 0, 4, 8 of its 16 bytes; a locked entry ignores writes (R252). -/
def rgnRead (u : MemUnit) (r : Nat) : Reg32 :=
  let x := u.entry (r / 16)
  match r % 16 with
  | 0 => fld 0 x.base
  | 4 => fld 0 x.limit
  | 8 => x.ctl
  | _ => 0
def rgnWrite (mask : BitVec 14) (r : Nat) (d : Reg32) (u : MemUnit) : MemUnit :=
  if (u.entry (r / 16)).locked then u
  else { u with rgn := Map.mod {} u.rgn (r / 16) (fun x => match r % 16 with
    | 0 => { x with base := d.extractLsb' 0 14 &&& mask }
    | 4 => { x with limit := d.extractLsb' 0 14 &&& mask }
    | 8 => { x with ctl := d &&& 0x8FFFFFFF }
    | _ => x) }

/-- The section window. -/
def secRead (b : Block) (s : SecId) (r : Nat) : Reg32 :=
  let u := b.unit s.toNat
  if r < 0x70 then match r with
    | 0x40 => fld 0 u.chBase
    | 0x44 => bit 0 u.ilv ||| bit 1 u.act
    | 0x50 => fld 0 u.starvK
    | 0x68 => bit 0 u.scrubEn ||| fld 1 u.scrubRate
    | _ => unitRead b.now u r
  else if 0x80 ≤ r ∧ r < 0xC0 then fld 0 ((Map.get {} u.starv ((r - 0x80) / 4)).pre b.now)
  else if 0xC0 ≤ r ∧ r < 0x100 then fld 0 (Map.get 0 u.repair ((r - 0xC0) / 4))
  else if 0x400 ≤ r ∧ r < 0x800 then rgnRead u (r - 0x400)
  else 0
/-- The record of a starvation event of this tick carries EVENTS as the tick leaves it (R238). -/
def starvNote (bank : Nat) (v : BitVec 16) (b : Block) : Block :=
  b.modImp (fun i => { i with slots := Map.mod none i.slots (bankSrc bank) (fun x => x.map (fun y =>
    if y.at_ = b.now ∧ y.code = 3 ∧ y.real = true then { y with info := v.setWidth 24 } else y)) })

def secClear (s : SecId) (r : Nat) (b : Block) : Block :=
  if 0x80 ≤ r ∧ r < 0xC0 then
    let k := (r - 0x80) / 4
    let b := b.modUnit s.toNat (fun u => { u with starv := Map.mod {} u.starv k (fun c => c.clear b.now) })
    starvNote (16 * s.toNat + k) (Map.get {} (b.unit s.toNat).starv k).val b
  else b.modUnit s.toNat (unitClear b.now r)
def secWrite (s : SecId) (r : Nat) (d : Reg32) (b : Block) : Block :=
  b.modUnit s.toNat (fun u =>
    if 0x400 ≤ r ∧ r < 0x800 then rgnWrite 0x3FFF (r - 0x400) d u
    else match r with
      | 0x40 => { u with chBase := d.extractLsb' 0 5 }
      | 0x44 => { u with ilv := d.getLsbD 0 }
      | 0x48 => { u with lease := d.extractLsb' 0 24 }
      | 0x50 => { u with starvK := d.extractLsb' 0 5 }
      | 0x68 => { u with scrubEn := d.getLsbD 0, scrubRate := d.extractLsb' 1 4 }
      | _ => u)

/-- The dual-port registers of the instance window, 0x0200..0x04FF; the common ones by the section's offsets. -/
def dprOff (r : Nat) : Nat := match r with
  | 0x200 => 0x48
  | 0x204 => 0x4C
  | 0x210 => 0x58
  | 0x214 => 0x5C
  | 0x218 => 0x60
  | _ => 0
def dprRegRead (b : Block) (r : Nat) : Reg32 :=
  let u := b.unit 8
  if r = 0x208 then fld 0 (u.susp.pre b.now)
  else if r = 0x20C then fld 0 u.suspLast
  else if r < 0x240 then unitRead b.now u (dprOff r)
  else if r < 0x280 then fld 0 (Map.get 0 u.repair ((r - 0x240) / 4))
  else if 0x400 ≤ r ∧ r < 0x500 then rgnRead u (r - 0x400)
  else 0
def dprRegClear (r : Nat) (b : Block) : Block :=
  b.modUnit 8 (fun u => if r = 0x208 then { u with susp := u.susp.clear b.now } else unitClear b.now (dprOff r) u)
def dprRegWrite (r : Nat) (d : Reg32) (b : Block) : Block :=
  b.modUnit 8 (fun u =>
    if r = 0x200 then { u with lease := d.extractLsb' 0 24 }
    else if 0x400 ≤ r ∧ r < 0x500 then rgnWrite 0x1FF (r - 0x400) d u else u)

/-! ### The Concord registers (R350) -/

/-- Ledger entries assigned to no ring. -/
def freeEntries (b : Block) : Nat := 8192 - (b.con.ranges.map (fun x => x.2.1)).sum

/-- A read of 0x0800..0x082F by an origin; INST_CONC_TAKE acts for contexts only (R326). -/
def concRead (b : Block) (o : Origin) (r : Nat) : Reg32 :=
  let q := b.orgRegs (orgKey o)
  let c := b.con
  match r with
  | 0x800 => (match o with
    | .ctx e k => (takeItem (ctxNo e k) b).2
    | _ => 0)
  | 0x804 => lo32 q.icsn
  | 0x808 => hi32 q.icsn ||| fld 16 q.iring
  | 0x80C => q.rval
  | 0x814 => fld 0 q.dstat
  | 0x818 => bit 0 (recovering b) ||| bit 1 (c.jfull.pre b.now) ||| bit 2 (c.mirfix.pre b.now)
  | 0x81C => fldN 0 (freeEntries b) ||| fldN 16 c.jfree
  | 0x820 => c.accepts.pre b.now
  | 0x824 => c.rejects.pre b.now
  | 0x828 => c.replays.pre b.now
  | 0x82C => c.retires.pre b.now
  | _ => 0
def concClear (o : Origin) (r : Nat) (b : Block) : Block := match r with
  | 0x800 => (match o with
    | .ctx e k => (takeItem (ctxNo e k) b).1
    | _ => b)
  | 0x820 => b.modCon (fun c => { c with accepts := c.accepts.clear b.now })
  | 0x824 => b.modCon (fun c => { c with rejects := c.rejects.clear b.now })
  | 0x828 => b.modCon (fun c => { c with replays := c.replays.clear b.now })
  | 0x82C => b.modCon (fun c => { c with retires := c.retires.clear b.now })
  | _ => b
def concWrite (o : Origin) (r : Nat) (d : Reg32) (b : Block) : Block := match r with
  | 0x80C => b.modOrg (orgKey o) (fun q => { q with rval := d })
  | 0x810 => (match o with
    | .ctx e k => concDone (ctxNo e k) d b
    | _ => b)
  | 0x818 => b.modCon (fun c => { c with jfull := c.jfull.clearIf b.now (d.getLsbD 1), mirfix := c.mirfix.clearIf b.now (d.getLsbD 2) })
  | _ => b

/-! ### The instance window -/

def instRead (b : Block) (o : Origin) (r : Nat) : Reg32 :=
  if r < 0x100 then match r with
    | 0x00 => blockId
    | 0x04 => blockVersion
    | 0x08 => instMode b
    | 0x0C => instSec b
    | 0x14 => fld 0 b.sup.cause ||| fld 16 b.sup.count
    | 0x20 => lo32 b.tick
    | 0x24 => hi32 b.tick
    | 0x28 => bit 31 b.fab.goatAt.isSome
    | 0x2C => lo32 b.fab.goTick
    | 0x30 => hi32 b.fab.goTick
    | 0x34 => bit 0 (b.fab.stepped.pre b.now) ||| bit 1 (b.fab.golate.pre b.now)
    | 0x60 => fld 0 (b.syn.hirqPend.pre b.now)
    | 0x64 => fld 0 b.syn.hirqEn
    | 0x68 => fld 0 (hirqLine b)
    | _ => 0
  else if r < 0x180 then b.evtReg (BitVec.ofNat 5 ((r - 0x100) / 4))
  else if 0x200 ≤ r ∧ r < 0x500 then dprRegRead b r
  else if 0x800 ≤ r ∧ r < 0x830 then concRead b o r
  else if 0xA00 ≤ r ∧ r < 0xB20 then dbgInstRead b r
  else 0
/-- The side effect of a read. -/
def instClear (o : Origin) (r : Nat) (b : Block) : Block :=
  if 0x200 ≤ r ∧ r < 0x220 then dprRegClear r b
  else if 0x800 ≤ r ∧ r < 0x830 then concClear o r b
  else if r = 0xB1C then b.modDbg (fun d => { d with pCnt := d.pCnt.clear b.now })
  else b
/-- A write of INST_SWEV. -/
def raiseSwev (d : Reg32) (b : Block) : Block := times 32 (fun i b => if d.getLsbD i then raiseN (0x1C0 + i) b else b) b

/-- The DBG_ registers are written by the Debug Access Port only, the PERTURB_ ones by it and by HREG (R480, R483). -/
def instWrite (o : Origin) (r : Nat) (d : Reg32) (b : Block) : Block :=
  if r < 0x100 then match r with
    | 0x10 => writeInstReset d b
    | 0x28 => writeTimerGo d b
    | 0x2C => { b with fab := { b.fab with goTick := setLo b.fab.goTick d } }
    | 0x30 => { b with fab := { b.fab with goTick := setHi b.fab.goTick d } }
    | 0x34 => { b with fab := { b.fab with
        stepped := b.fab.stepped.clearIf b.now (d.getLsbD 0), golate := b.fab.golate.clearIf b.now (d.getLsbD 1) } }
    | 0x38 => raiseSwev d b
    | 0x60 => { b with syn := { b.syn with hirqPend := b.syn.hirqPend.clear b.now (d.extractLsb' 0 8) } }
    | 0x64 => { b with syn := { b.syn with hirqEn := d.extractLsb' 0 8 } }
    | _ => b
  else if r < 0x180 then writeEvtOut (BitVec.ofNat 5 ((r - 0x100) / 4)) d b
  else if 0x200 ≤ r ∧ r < 0x500 then dprRegWrite r d b
  else if 0x800 ≤ r ∧ r < 0x830 then concWrite o r d b
  else if 0xA00 ≤ r ∧ r < 0xB00 then (if o = .dap then dbgInstWrite r d b else b)
  else if 0xB00 ≤ r ∧ r < 0xB20 then (if o = .dap ∨ o = .hreg then dbgInstWrite r d b else b)
  else b

/-! ### Syntax status, doorbells and mailboxes (R385, R389, R391, R394) -/

def synStat (y : Syn) : Reg32 :=
  fldN 0 (match y.st with
    | .reset => 0
    | .boot => 1
    | .ready => 2
    | .failed => 3) |||
  bit 2 y.run.isSome ||| fldN 3 y.queue.length ||| (match y.run with
    | some x => fld 10 x.pair
    | none => 0)
def synRead (b : Block) (r : Nat) : Reg32 :=
  let y := b.syn
  match r with
  | 0x00 => synStat y
  | 0x04 => fwVersion
  | 0x08 => fld 0 y.cfg
  | 0x10 => lo32 (y.done.pre b.now)
  | 0x14 => hi32 (y.done.pre b.now)
  | 0x18 => fld 0 (y.evLost.pre b.now)
  | 0x1C => y.heartbeat
  | _ => 0
def synClear (r : Nat) (b : Block) : Block := if r = 0x18 then { b with syn := { b.syn with evLost := b.syn.evLost.clear b.now } } else b
/-- The 64-bit mask with a register's bits in its low, or its high half. -/
def half64 (high : Bool) (d : Reg32) : BitVec 64 := if high then d ++ (0 : BitVec 32) else (0 : BitVec 32) ++ d
/-- EVACK; a failed core accepts no doorbell. -/
def evack (b : Block) : Block :=
  if b.syn.st = .failed then b else { b with syn := { b.syn with posted := none, evackAt := some b.now } }
def synWrite (o : Origin) (r : Nat) (d : Reg32) (b : Block) : Block := match o with
  | .ctx .. => b
  | _ => match r with
    | 0x08 => { b with syn := { b.syn with cfg := d.extractLsb' 0 7 } }
    | 0x0C => if d.getLsbD 0 then evack b else b
    | 0x10 => { b with syn := { b.syn with done := b.syn.done.clear b.now (half64 false d) } }
    | 0x14 => { b with syn := { b.syn with done := b.syn.done.clear b.now (half64 true d) } }
    | _ => b

def Block.mbx (b : Block) (m : BitVec 6) : Mbx := Map.get {} b.syn.mbx m.toNat
def Block.modMbx (b : Block) (m : BitVec 6) (f : Mbx → Mbx) : Block :=
  { b with syn := { b.syn with mbx := Map.mod {} b.syn.mbx m.toNat f } }
def mbxWerr (m : BitVec 6) (b : Block) : Block := b.modMbx m (fun x => { x with werr := x.werr.set b.now })
/-- Only HREG and the Debug Access Port reach the mailboxes. -/
def reachesMbx : Origin → Bool
  | .hreg | .dap => true
  | _ => false
def mbxRead (b : Block) (o : Origin) (m : BitVec 6) (r : Nat) : Reg32 :=
  let x := b.mbx m
  if !(reachesMbx o) then 0
  else if r < 0x40 then Map.get 0 x.req (r / 4)
  else if r < 0x80 then Map.get 0 x.rsp ((r - 0x40) / 4)
  else if r = 0x84 then fld 0 x.st ||| bit 2 (x.werr.pre b.now) ||| fld 16 x.tag
  else 0
/-- A doorbell (R391): the pair is QUEUED, or the GO is discarded with WERR; a failed core accepts none. -/
def mbxGo (m : BitVec 6) (b : Block) : Block :=
  let x := b.mbx m
  if m = 63 ∨ x.st = 1 ∨ x.st = 2 then mbxWerr m b
  else if b.syn.st = .failed then b
  else
    let b := b.modMbx m (fun x => { x with st := 1, tag := (Map.get 0 x.req 0).extractLsb' 16 16 })
    { b with syn := { b.syn with queue := b.syn.queue ++ [m], done := b.syn.done.clear b.now (BitVec.ofNat 64 (2 ^ m.toNat)) } }
def mbxWrite (o : Origin) (m : BitVec 6) (r : Nat) (d : Reg32) (b : Block) : Block :=
  let x := b.mbx m
  if !(reachesMbx o) then b
  else if r < 0x40 then
    if x.st = 1 ∨ x.st = 2 then mbxWerr m b else b.modMbx m (fun x => { x with req := Map.set 0 x.req (r / 4) d })
  else if r = 0x80 then (if d.getLsbD 0 then mbxGo m b else b)
  else if r = 0x84 then b.modMbx m (fun x => { x with werr := x.werr.clearIf b.now (d.getLsbD 2) })
  else b

/-! ### Rings (R316) -/

def ringRead (b : Block) (n : RingNo) (r : Nat) : Reg32 := match r with
  | 0x0 => (b.ring n).tail
  | 0x4 => lo32 (b.ring n).acc
  | 0x8 => lo32 (ringRec b n).ret
  | 0xC => ringStat b n
  | _ => 0
def ringStatWrite (n : RingNo) (d : Reg32) (b : Block) : Block :=
  let b := b.modRing n (fun q => { q with dberr := q.dberr.clearIf b.now (d.getLsbD 3), limit := q.limit.clearIf b.now (d.getLsbD 7) })
  if d.getLsbD 4 then hosterrClear n b else b
def ringWriteReg (n : RingNo) (r : Nat) (d : Reg32) (b : Block) : Block := match r with
  | 0x0 => ringDb n d b
  | 0xC => ringStatWrite n d b
  | _ => b

/-! ### DMA channels (R285) -/

def dmaStateCode : DmaState → Nat
  | .idle => 0
  | .armed => 1
  | .run => 2
  | .waitc => 3
  | .pausing => 4
  | .paused => 5
  | .error => 6
def dmaStat (now : Nat) (d : Dma) : Reg32 :=
  fldN 0 (dmaStateCode d.st) ||| fld 3 d.errCode ||| bit 6 d.pauseReq ||| bit 7 (d.aborted.pre now) ||| bit 8 (d.povr.pre now) |||
  fld 16 d.credits ||| fldN 24 d.out.length
/-- A set's registers, by the shadow offsets less 0x80. -/
def dmaSetRead (s : DmaSet) (arm : Bool) (r : Nat) : Reg32 := match r with
  | 0x00 => lo32 s.src
  | 0x04 => (s.src.extractLsb' 32 20).setWidth 32
  | 0x08 => lo32 s.dst
  | 0x0C => (s.dst.extractLsb' 32 20).setWidth 32
  | 0x10 => fld 0 s.count
  | 0x14 => s.cfg
  | 0x18 => fld 0 s.tenant ||| fld 12 s.owner ||| bit 28 s.ownv ||| bit 31 arm
  | 0x1C => lo32 s.csn
  | 0x20 => hi32 s.csn ||| fld 16 s.ring
  | _ => 0
def dmaRead (b : Block) (n : BitVec 8) (r : Nat) : Reg32 :=
  let d := b.chan n
  if r < 0x40 then match r with
    | 0x04 => dmaStat b.now d
    | 0x08 => fld 0 d.errBeat
    | 0x0C => d.beats.pre b.now
    | 0x10 => d.skips.pre b.now
    | _ => 0
  else if r = 0x64 then fld 0 d.aBeat
  else if r = 0x68 then fld 0 d.aDone
  else if r < 0x64 then dmaSetRead d.act false (r - 0x40)
  else if 0x80 ≤ r ∧ r < 0xA4 then dmaSetRead d.sh d.arm (r - 0x80)
  else 0
def dmaClear (n : BitVec 8) (r : Nat) (b : Block) : Block := match r with
  | 0x0C => b.modChan n (fun d => { d with beats := d.beats.clear b.now })
  | 0x10 => b.modChan n (fun d => { d with skips := d.skips.clear b.now })
  | _ => b
/-- The shadow register at an offset. -/
def dmaRegAt (r : Nat) : Option DmaReg := match r with
  | 0x80 => some .srcLo
  | 0x84 => some .srcHi
  | 0x88 => some .dstLo
  | 0x8C => some .dstHi
  | 0x90 => some .count
  | 0x94 => some .cfg
  | 0x98 => some .tag
  | 0x9C => some .jrefLo
  | 0xA0 => some .jrefHi
  | _ => none
def dmaRegOff : DmaReg → Nat
  | .srcLo => 0x80
  | .srcHi => 0x84
  | .dstLo => 0x88
  | .dstHi => 0x8C
  | .count => 0x90
  | .cfg => 0x94
  | .tag => 0x98
  | .jrefLo => 0x9C
  | .jrefHi => 0xA0
def dmaWrite (o : Origin) (n : BitVec 8) (r : Nat) (d : Reg32) (b : Block) : Block :=
  if r = 0 then writeDmaCtl n d b
  else if r = 4 then
    b.modChan n (fun x => { x with aborted := x.aborted.clearIf b.now (d.getLsbD 7), povr := x.povr.clearIf b.now (d.getLsbD 8) })
  else match dmaRegAt r with
    | some reg => writeDmaShadow o n reg d b
    | none => b

/-! ### Federation (R360, R362, R383, R518) -/

def fedRead (b : Block) (o : Origin) (r : Nat) : Reg32 :=
  let d := b.fed
  let q := b.orgRegs (orgKey o)
  if r < 0x20 then match r with
    | 0x00 => fedStat b
    | 0x04 => d.cfg
    | 0x08 => fld 0 d.ofs ||| fld 16 d.delay
    | 0x0C => fedTstat b
    | 0x10 => d.retx.pre b.now
    | 0x14 => d.crcerr.pre b.now
    | _ => 0
  else if r < 0x30 then fedPort d (BitVec.ofNat 2 ((r - 0x20) / 4))
  else if r < 0x40 then fld 0 (d.port (BitVec.ofNat 2 ((r - 0x30) / 4))).asym
  else if r < 0x68 then Map.get 0 q.txD ((r - 0x40) / 4)
  else if r < 0x100 then match r with
    | 0x68 => fld 0 q.txDst
    | 0x6C => lo32 q.txDue
    | 0x70 => hi32 q.txDue
    | 0x78 => fld 0 q.txStat
    | 0x80 => (match o with
      | .ctx e k => (fedRxTake (ctxNo e k) b).2
      | _ => 0)
    | _ => 0
  else if 0x1000 ≤ r ∧ r < 0x1800 then fld 0 (d.route (BitVec.ofNat 9 ((r - 0x1000) / 4)))
  else 0
def fedClear (o : Origin) (r : Nat) (b : Block) : Block := match r with
  | 0x10 => b.modFed (fun d => { d with retx := d.retx.clear b.now })
  | 0x14 => b.modFed (fun d => { d with crcerr := d.crcerr.clear b.now })
  | 0x80 => (match o with
    | .ctx e k => (fedRxTake (ctxNo e k) b).1
    | _ => b)
  | _ => b
/-- SCHAN of an origin's message (R360). -/
def schanOf (b : Block) : Origin → BitVec 16
  | .ctx e k => (b.ctx (ctxNo e k)).chan.getD Config.freeSchan
  | _ => Config.freeSchan
def fedWrite (o : Origin) (r : Nat) (v : Reg32) (b : Block) : Block :=
  let q := orgKey o
  if r = 0x04 then b.modFed (fun d => { d with cfg := v &&& 0x0FFFFFFF })
  else if r = 0x0C then
    b.modFed (fun d => { d with alarmed := d.alarmed.clearIf b.now (v.getLsbD 0), lateAt := d.lateAt.clearIf b.now (v.getLsbD 1) })
  else if 0x30 ≤ r ∧ r < 0x40 then
    b.modFed (fun d => d.modPort (BitVec.ofNat 2 ((r - 0x30) / 4)) (fun p => { p with asym := v.extractLsb' 0 16 }))
  else if 0x40 ≤ r ∧ r < 0x68 then b.modOrg q (fun x => { x with txD := Map.set 0 x.txD ((r - 0x40) / 4) v })
  else match r with
    | 0x68 => b.modOrg q (fun x => { x with txDst := v.extractLsb' 0 25 })
    | 0x6C => b.modOrg q (fun x => { x with txDue := setLo x.txDue v })
    | 0x70 => b.modOrg q (fun x => { x with txDue := setHi x.txDue v })
    | 0x74 => if v.getLsbD 0 then fedTxGo q (schanOf b o) (v.getLsbD 1) b else b
    | 0x84 => fedRxFree (v.extractLsb' 0 11) b
    | _ => b

end Sys2Proof.Machine
end

