-- ==== Sys2Proof/Machine/Commands.lean ====
section
/-! DEFINITION. The Syntax core's own rows: the mailbox commands (R389..R403), events (R394, R404), rebinds (R402) and the
heartbeat (R385). A row of a command starts it where it is the first in the queue, and carries on the one that runs. -/

namespace Sys2Proof.Machine
open Sys2Proof

/-! ### Requests and responses (R389, R390, R392) -/

def Block.modSyn (b : Block) (f : Syn → Syn) : Block := { b with syn := f b.syn }

/-- The 64 bytes of a pair's request. -/
def reqOf (b : Block) (m : BitVec 6) : List Byte :=
  (List.range 16).flatMap (fun k => bytesOf 4 (Map.get 0 (b.mbx m).req k))
/-- A field of a request: `n` bytes at offset `i`. -/
def rq (w : Nat) (r : List Byte) (i n : Nat) : BitVec w := fieldAt w r i n
def rqN (r : List Byte) (i n : Nat) : Nat := natOfBytes ((r.drop i).take n)

/-- The mailbox pair of the command that runs, or runs next. -/
def commandPair (b : Block) : Option (BitVec 6) := match b.syn.run with
  | some x => some x.pair
  | none => b.syn.queue.head?

/-- The response words that bytes spell. -/
def rspWords (l : List Byte) : Map Reg32 :=
  (List.range 16).foldl (fun m k => Map.set 0 m k (ofBytes 32 ((l.drop (4 * k)).take 4))) []

/-- The running command completes: the response, DONE, SYN_MBXDONE and, where asked for, the interrupt line. -/
def reply (result detail : Nat) (data : List Byte) (b : Block) : Block :=
  match b.syn.run with
  | none => b
  | some x =>
    let r := reqOf b x.pair
    let l := r.take 4 ++ bytesOf 2 (BitVec.ofNat 16 result) ++ bytesOf 2 (BitVec.ofNat 16 detail) ++
      ((if result = 0 then data else []) ++ List.replicate 56 0).take 56
    let b := b.modMbx x.pair (fun m => { m with rsp := rspWords l, st := 3 })
    let b := b.modSyn (fun y => { y with run := none, done := y.done.set b.now (BitVec.ofNat 64 (2 ^ x.pair.toNat)) })
    if rqN r 6 1 % 2 = 1 then raiseIrq (b.syn.cfg.extractLsb' 0 3) b else b

/-- OK with the effect tick at 0x0A and two bytes before it. -/
def replyEff (first : BitVec 16) (eff : Tick) (b : Block) : Block := reply 0 0 (bytesOf 2 first ++ bytesOf 6 eff) b

/-- The running command's own record changes. -/
def modRun (f : Running → Running) (b : Block) : Block := b.modSyn (fun y => { y with run := y.run.map f })
/-- The command goes on to stage `n`, its effect tick being now. -/
def stage (n : Nat) (b : Block) : Block := modRun (fun x => { x with stage := n, effect := b.tick }) b

/-! ### Checks (R395..R397) -/

/-- A parameter: offset, bytes, and the check of its value. -/
abbrev Param := Nat × Nat × (Nat → Bool)

/-- The offset of the first bad parameter, or of the first byte that is not listed and not 0. -/
def badParam (r : List Byte) (ps : List Param) : Option Nat :=
  ((List.range 56).map (· + 8)).find? (fun o =>
    match ps.find? (fun p => decide (p.1 ≤ o ∧ o < p.1 + p.2.1)) with
    | some p => p.1 == o && !(p.2.2 (rqN r o p.2.1))
    | none => rqN r o 1 != 0)

def any_ (_ : Nat) : Bool := true
def below (n v : Nat) : Bool := decide (v < n)
def multOf (n v : Nat) : Bool := v % n == 0
def timeoutOk (v : Nat) : Bool := decide (1 ≤ v ∧ v ≤ 100000000)

/-- The first command of the queue starts to run. -/
def startCmd (m : BitVec 6) (rest : List (BitVec 6)) (b : Block) : Block :=
  (b.modMbx m (fun x => { x with st := 2 })).modSyn (fun y => { y with queue := rest, run := some { pair := m, since := b.now } })

/-- A row of command `opc`: the one that runs goes on; else the first of the queue starts, where it is this one. -/
def command (opc len : Nat) (modes : List Mode) (ps : List Byte → List Param) (act : List Byte → Running → Block → Block)
    (b : Block) : Block :=
  if b.mode = .off ∨ b.syn.st ≠ .ready then b
  else match b.syn.run with
    | some x =>
      let r := reqOf b x.pair
      if rqN r 0 2 = opc then act r x b else b
    | none => match b.syn.queue with
      | [] => b
      | m :: rest =>
        let r := reqOf b m
        if rqN r 0 2 ≠ opc then b
        else
          let b := startCmd m rest b
          if rqN r 4 2 ≠ len then reply 2 0 [] b
          else if !(modes.contains b.mode) then reply 4 b.mode.code [] b
          else match badParam r (ps r) with
            | some o => reply 3 o [] b
            | none => act r { pair := m, since := b.now } b

/-- A tick of the core: a command whose OPC is not in R396 is the first of the queue, and completes with BADOPC. -/
def badOpc (b : Block) : Block :=
  if b.mode = .off ∨ b.syn.st ≠ .ready ∨ b.syn.run.isSome then b
  else match b.syn.queue with
    | [] => b
    | m :: rest =>
      let o := rqN (reqOf b m) 0 2
      if 1 ≤ o ∧ o ≤ 0x11 then b else reply 1 0 [] (startCmd m rest b)

def anyMode : List Mode := [.wake, .test, .load, .trim, .service, .recover, .quiesce]

/-! ### QUERY_VERSION and MODE_REQ (R398, R408, R415, R416) -/

def actQuery (_ : List Byte) (_ : Running) (b : Block) : Block :=
  reply 0 0 (bytesOf 4 fwVersion ++ bytesOf 4 blockId ++ bytesOf 4 blockVersion ++
    ([0x07, BitVec.ofNat 8 b.mode.code] : List Byte) ++ bytesOf 2 (0x0011 : BitVec 16)) b

def badMode (b : Block) : Block := reply 4 b.mode.code [] b

/-- TEST_REQ as the Syntax core samples it at a MODE_REQ LOAD in TEST: no row carries its level, so it is a free value. -/
def sampleTestReq (b : Block) : Block × Bool := ({ b with free := b.free + 1 }, Config.testReq b.free)

/-- The transition that a MODE_REQ names begins; one that takes time goes to a stage. -/
def modeStart (target : Nat) (mask : Byte) (b : Block) : Block :=
  if b.sup.stopped then badMode b
  else match b.mode, target with
    | .test, 3 =>
      let x := sampleTestReq b
      if x.2 then badMode x.1 else replyEff 0 b.tick (testToLoad x.1)
    | .load, 4 => stage 1 (wantTrim (setMode .trim b))
    | .trim, 3 => replyEff 0 b.tick (setMode .load b)
    | .trim, 5 => if b.sup.trimv then replyEff 0 b.tick (enterService b) else badMode b
    | .service, 7 => stage 2 (enterQuiesce (if mask = 0xFF then 0 else mask) b)
    | .quiesce, 5 => replyEff 0 b.tick (leaveQuiesce b)
    | .quiesce, 3 => if b.sup.qdone ∧ b.sup.secMask = 0 then replyEff 0 b.tick (quiesceToLoad b) else badMode b
    | _, _ => badMode b

/-- Stage 1 waits for the trim, stage 2 for QDONE, or for the SERVICE that ends a partial QUIESCE. In a stop every MODE_REQ ends
with BADMODE (R412). -/
def actMode (r : List Byte) (x : Running) (b : Block) : Block := match x.stage with
  | 0 => modeStart (rqN r 8 1) (rq 8 r 9 1) b
  | 1 => if b.sup.stopped then badMode b else if b.mode == .trim && allTrimmed b then replyEff 0 x.effect b else b
  | _ => if b.sup.stopped then badMode b else if b.sup.qdone || b.mode == .service then replyEff 0 x.effect b else b

/-! ### LOAD_IMAGE and PATCH_APPLY (R176, R177, R183, R398, R399) -/

def imgParams (_ : List Byte) : List Param := [(0x08, 8, multOf 64), (0x10, 4, any_), (0x14, 1, below 2)]

/-- The host fetch: a failed one ends the command; `go` takes the bytes where they are as many as were asked for. -/
def fetched (r : List Byte) (f : Fetched) (go : List Byte → Block → Block) (b : Block) : Block := match f with
  | .failed off => reply 9 off [] b
  | .bytes l => if l.length = rqN r 0x10 4 then go l b else b

def actLoad (f : Fetched) (r : List Byte) (_ : Running) (b : Block) : Block :=
  fetched r f (fun l b => match checkCommon b 0x0301 l with
    | some e => reply e 0 [] b
    | none =>
      if layoutOk l then reply 0 0 (bytesOf 4 (BitVec.ofNat 32 (imgN l 0xC 4)) ++ bytesOf 8 (loadedMask l)) (loadImage l b)
      else reply 0x15 0 [] b) b

/-- Clusters as a mask, and a mask as clusters. -/
def cluMask (l : List CluId) : Nat := l.foldl (fun m c => m ||| 2 ^ c.toNat) 0
def maskClus (m : Nat) : List CluId := allClus.filter (fun c => m.testBit c.toNat)
/-- The first step: the checks, and the commit in each target cluster. With no target cluster nothing is compared, and the
reply is OK with empty masks (the spec does not say: the model's choice, log entry 88). Where some target is STALE and another
has no room, the result is that of the first that fails, in ascending cluster number (R182 does not say: the model's choice, log
entry 104). -/
def patchStart (l : List Byte) (b : Block) : Block :=
  match checkCommon b 0x0302 l with
  | some e => reply e 0 [] b
  | none =>
    if !(pkgLayoutOk l) then reply 0x15 0 [] b
    else
      let ts := pkgTargets b l
      match ts.findSome? (fun c => pkgFits l (b.clu c)) with
      | some e => reply e 0 [] b
      | none =>
        if ts.any (fun c => decide ((b.clu c).state ≠ .loaded)) then reply 5 1 [] b
        else
          let b := ts.foldl (fun b c => if b.fenced (cluSec c) then b else pkgCommit l c b) b
          modRun (fun x => { x with stage := 1, aux := cluMask ts, effect := BitVec.ofNat 48 (imgN l 0x16 2 + 1) }) b

/-- A fence has discarded the commit in cluster c: its PATCH is not the one that the package gives (R185). -/
def patchCut (x : Running) (b : Block) (c : CluId) : Bool :=
  b.fenced (cluSec c) && decide ((b.clu c).patch ≠ x.effect.setWidth 16)
/-- The sections of the clusters that a fence has cut off, as a mask. -/
def cutSecs (x : Running) (b : Block) (l : List CluId) : Nat :=
  l.foldl (fun m c => if patchCut x b c then m ||| 2 ^ (cluSec c).toNat else m) 0

/-- Every engine has activated but those that a debugger has halted. -/
def patchSettled (b : Block) (c : CluId) : Bool :=
  b.fenced (cluSec c) || allEngIn.all (fun i => !((b.clu c).pmWait.getLsbD i.toNat) || (b.eng (mkEng c i)).halted)

/-- The end: PARTIAL where a fence has discarded the commit for some cluster; else the clusters that wait. -/
def patchEnd (x : Running) (b : Block) : Block :=
  let ts := maskClus x.aux
  if ts.all (patchSettled b) then
    let cut := cutSecs x b ts
    let waits := ts.filter (fun c => !(b.fenced (cluSec c)) && (b.clu c).pmWait != 0)
    let b := ts.foldl (fun b c => if patchCut x b c then pkgDiscard c b else b) b
    let b := waits.foldl (fun b c => b.modClu c (fun v => { v with pmLate := true })) b
    if cut ≠ 0 then reply 0xB cut [] b
    else reply 0 0 (bytesOf 2 x.effect ++ bytesOf 8 (BitVec.ofNat 64 (cluMask ts)) ++
      bytesOf 8 (BitVec.ofNat 64 (cluMask waits))) b
  else b

def actPatch (f : Fetched) (r : List Byte) (x : Running) (b : Block) : Block :=
  if x.stage = 0 then fetched r f patchStart b else patchEnd x b

/-! ### Sections (R412..R414) -/

/-- The wait for SEC_PWR_ACK has failed: BUSY, DETAIL 4. -/
def ackBusy (b : Block) : Block := reply 5 4 [] b

/-- FENCE_SECTION: the fence, the end of its recovery window, and the power handshake. -/
def actFence (r : List Byte) (x : Running) (b : Block) : Block :=
  let s : SecId := rq 3 r 8 1
  let off := rqN r 9 1 = 1
  match x.stage with
  | 0 => if b.fenced s then replyEff 0 b.tick b else stage 1 (fenceRecover s b)
  | 1 =>
    if recovering b then b
    else if off then
      let b := lowerReq s b
      if (b.sec s).ack then modRun (fun x => { x with stage := 2 }) b else replyEff 0 x.effect b
    else replyEff 0 x.effect b
  | _ => if !((b.sec s).ack) then replyEff 0 x.effect b else if (b.sec s).reqAt.isNone then ackBusy b else b

/-- The section is unfenced: stores, golden slots and region entry 63 are in place, its engines run, and its channels are
to be bound again, their TAKEN items replayed. -/
def unfence (s : SecId) (b : Block) : Block :=
  let b := goldenRegion s (rebuildSection s b)
  let b := b.modSec s (fun x => { x with fenced := false })
  let b := (secClus s).foldl (fun b c => releaseCluster c b) b
  let bound := (b.syn.binds.map (fun x => (BitVec.ofNat 16 x.1 : Chan))).filter (fun ch => ch.extractLsb' 13 3 == s)
  let b := bound.foldl (fun b ch =>
    if b.syn.rebinds.any (fun x => x.chan == ch) then b
    else b.modSyn (fun y => { y with rebinds := y.rebinds ++ [{ chan := ch, cause := 4, stamp := b.tick, at_ := b.now }] })) b
  unholdRings (replayTaken (fun ch => ch.extractLsb' 13 3 == s) b)

/-- UNFENCE_SECTION: at once where the section is powered; one whose REQ is low is powered up first, even where its ACK is still
high (R412, R414). -/
def actUnfence (r : List Byte) (x : Running) (b : Block) : Block :=
  let s : SecId := rq 3 r 8 1
  let finish (b : Block) : Block := replyEff 0 b.tick (unfence s b)
  if x.stage = 0 then
    if !(b.fenced s) then replyEff 0 b.tick b
    else if (b.sec s).powered && (b.sec s).req then (if (b.sec s).clearing then stage 1 b else finish b)
    else stage 1 (raiseReq s b)
  else if (b.sec s).powered then (if (b.sec s).clearing then b else finish b)
  else if (b.sec s).reqAt.isNone then ackBusy b
  else b

/-! ### Rings (R311, R312, R316, R403) -/

def ringParams (r : List Byte) : List Param :=
  let cnt := 2 ^ min (rqN r 0x2C 1) 8
  [(0x08, 2, below 4096), (0x0A, 1, fun v => decide (4 ≤ v ∧ v ≤ 16)), (0x0B, 1, fun v => decide (v ≤ 12 ∧ v ≤ rqN r 0x0A 1)),
   (0x0C, 1, below 16), (0x0D, 1, fun v => (BitVec.ofNat 8 v &&& 0xE2) == 0), (0x0E, 2, any_), (0x10, 8, multOf 64),
   (0x18, 8, multOf 32), (0x20, 8, multOf 8), (0x28, 2, multOf cnt), (0x2A, 2, fun v => v == 0xFFFF || multOf cnt v),
   (0x2C, 1, below 9), (0x30, 4, any_)]

/-- The lowest free range of `win` ledger entries that starts at a multiple of `win`. -/
def freeRange (b : Block) (win : Nat) : Option Nat :=
  ((List.range (8192 / win)).map (· * win)).find? (fun e => b.con.ranges.all (fun x => decide (e + win ≤ x.1 ∨ x.1 + x.2.1 ≤ e)))

/-- The ring record that RING_CREATE's parameters give. -/
def newRing (r : List Byte) (ebase : Nat) : RingRec :=
  { next := 0, ret := 0, last := rq 32 r 0x30 4, epoch := rq 16 r 0x0E 2, st := rsACTIVE, size := rq 8 r 0x0A 1, win := rq 8 r 0x0B 1
    maxtry := rq 8 r 0x0C 1, ctl := rq 8 r 0x0D 1, chcnt := rq 8 r 0x2C 1, ebase := BitVec.ofNat 16 ebase, chbase := rq 16 r 0x28 2
    spbase := rq 16 r 0x2A 2, partner := 0, dbase := rq 64 r 0x10 8, cbase := rq 64 r 0x18 8, awb := rq 64 r 0x20 8, pring := 0 }

/-- A ring's registers outside its record as a command leaves them: the W1C flags stay. -/
def freshRing (r : RingNo) (b : Block) : Block := b.modRing r (fun q => { dberr := q.dberr, limit := q.limit })

def actRingCreate (r : List Byte) (_ : Running) (b : Block) : Block :=
  let n : RingNo := rq 12 r 8 2
  let win := 2 ^ rqN r 0x0B 1
  if ringState b n ≠ rsNONE then reply 8 0 [] b
  else if freeEntries b < win then reply 6 1 [] b
  else match freeRange b win with
    | none => reply 6 2 [] b
    | some e =>
      let b := (freshRing n (writeRing n (newRing r e) b)).modCon (fun c => { c with ranges := c.ranges ++ [(e, win, n)] })
      replyEff (BitVec.ofNat 16 e) b.tick b

/-- A ring that a host command may name: one of this instance's own. -/
def ownRing (b : Block) (r : RingNo) : Bool := ringState b r != rsNONE && !(ringRec b r).copy

/-- The requests under way for a ring are abandoned. -/
def orphanRing (all : Bool) (r : RingNo) (b : Block) : Block :=
  let mine (u : HostUser) : Bool := match u with
    | .desc q _ _ => q == r
    | .head q _ | .compl q _ _ => all && q == r
    | _ => false
  let f (m : Map (Option HostReq)) : Map (Option HostReq) :=
    m.map (fun x => (x.1, x.2.map (fun q => if mine q.user then { q with user := .orphan } else q)))
  { b with hp := b.hp.map (fun x => (x.1, { x.2 with reads := f x.2.reads, writes := f x.2.writes })) }

/-- A ring enters DRAIN: what is fetched and not consumed is dropped. -/
def drainRing (r : RingNo) (b : Block) : Block :=
  let b := orphanRing false r b
  let b := b.modRing r (fun q => { q with
    fetches := [], bad := false
    retries := q.retries.filter (fun t => match t.acc with
      | .fetch .. => false
      | _ => true) })
  drained r (setRingState r rsDRAIN b)

/-- A forced destroy: every item that has not retired, but for those whose record has gone to the host, is DONE with STATUS
ABANDONED; a rejected descriptor keeps its own record. The count of them is kept. -/
def abandonItems (r : RingNo) (b : Block) : Block :=
  let v := ringRec b r
  let q := b.ring r
  let gone := (q.sent ++ q.okd).map v.entry
  v.openItems.foldl (fun b e =>
    let x := entryOf b e
    if x.st = stREJECTED ∨ gone.contains e then b
    else
      let b := b.setQueue x.chan ((b.queue x.chan).filter (fun y => y != e))
      let b := b.modCon (fun c => { c with held := c.held.filter (fun y => y != e), missing := c.missing.filter (fun y => y != e) })
      (itemDone e 0xFFFD 0 b).modRing r (fun q => { q with abandoned := q.abandoned + 1 })) b

/-- The ring is gone. -/
def ringGone (r : RingNo) (b : Block) : Block :=
  let n := (b.ring r).abandoned
  reply 0 0 (bytesOf 4 (BitVec.ofNat 32 n)) (freshRing r (orphanRing true r b))

def actRingDestroy (r : List Byte) (x : Running) (b : Block) : Block :=
  let n : RingNo := rq 12 r 8 2
  if x.stage = 0 then
    if !(ownRing b n) then reply 7 0 [] b
    else if ringState b n = rsRECOVER ∨ ringState b n = rsDRAIN then reply 5 1 [] b
    else
      let b := stage 1 (if rqN r 0xA 1 = 1 then abandonItems n (b.modRing n (fun q => { q with abandoned := 0 }))
        else b.modRing n (fun q => { q with abandoned := 0 }))
      let b := drainRing n b
      if (ringRec b n).st = rsNONE then ringGone n b else b
  else if (ringRec b n).st = rsNONE then ringGone n b
  else b

/-- The updates of ring r that wait for the partner count as acknowledged (R405). -/
def mirrorDrop (r : RingNo) (b : Block) : Block :=
  let mine (w : MirWait) : Bool := match w.act with
    | .commit e | .done e => (entryOf b e).ring == r
    | .append n => (match (b.chan n).item with
        | some y => (entryOf b y.1).ring == r
        | none => false)
    | .retire q _ => q == r
    | .none => false
  let hit := b.con.mirWaits.filter mine
  let b := b.modCon (fun c => { c with mirWaits := c.mirWaits.filter (fun w => !(mine w)) })
  hit.foldl (fun b w => mirrorDone w.act b) b

/-- What is accepted and not retired is copied to the partner: its entry, then its journal, oldest record first. -/
def mirrorCopy (r : RingNo) (b : Block) : Block :=
  (ringRec b r).openItems.foldl (fun b e =>
    let x := entryOf b e
    let b := mirrorSend r 0x01 x.enc true (if x.st = stDONE then .done e else .none) b
    (itemChain b e).reverse.foldl (fun b j =>
      let v := jrnOf b j
      let b := mirrorSend r 0x02 { v with st := 1 }.enc false .none b
      if v.st = 2 then mirrorSend r 0x03 v.enc false .none b else b) b) b

def actRingMirror (a : MirrorAnswer) (r : List Byte) (_ : Running) (b : Block) : Block :=
  let n : RingNo := rq 12 r 8 2
  let p : BitVec 9 := rq 9 r 0xC 2
  let v := ringRec b n
  if !(ownRing b n) then reply 7 0 [] b
  else if ringState b n = rsRECOVER ∨ ringState b n = rsDRAIN then reply 5 1 [] b
  else if rqN r 0xA 1 = 1 then
    if !b.fed.joined then reply 0xA 0 [] b
    else if v.mirror then reply 8 0 [] b
    else if p = b.fed.instId ∨ !(rtValid (b.fed.route p)) ∨ rtLost (b.fed.route p) then reply 7 0 [] b
    else match a with
      | .noResource => reply 6 0 [] b
      | .none | .reserve .. | .release .. => reply 0xC 0 [] b
      | .reserved c =>
        let b := writeRing n { v with ctl := v.ctl ||| 0x20, partner := p.setWidth 16, pring := c.setWidth 16 } b
        let b := b.modFed (fun d => d.modPair p (fun q => { q with heard := b.now, beatAt := b.now }))
        replyEff (c.setWidth 16) b.tick (mirrorCopy n b)
  else if !v.mirror then reply 7 0 [] b
  else
    let b := partnerBack n (mirrorDrop n b)
    replyEff v.pring b.tick (writeRing n { ringRec b n with ctl := v.ctl &&& 0xDF, partner := 0, pring := 0 } b)

/-! ### The partner's side of RING_MIRROR (R376, R377, R403) -/

/-- The record of a copy ring: the owner's, as a copy, with this instance's own entries and channel set. -/
def copyRec (o : BitVec 9) (r : RingNo) (l : List Byte) (pch : Chan) (ebase : Nat) : RingRec :=
  let x := RingRec.dec l
  { x with
    st := rsHELD, ctl := (x.ctl &&& 0x1F) ||| 0x40, ebase := BitVec.ofNat 16 ebase, chbase := pch, spbase := 0xFFFF
    partner := o.setWidth 16, pring := r.setWidth 16 }

/-- The lowest ring number in NONE. -/
def freeRing (b : Block) : Option RingNo := ((List.range 4096).map (BitVec.ofNat 12)).find? (fun r => ringState b r == rsNONE)

/-- This instance's Syntax core reserves a ring number and WIN entries for the copy of an owner's ring, or refuses. The copy is
HELD until its takeover, and has no spare set (log entry 45). -/
def partnerReserve (o : BitVec 9) (r : RingNo) (l : List Byte) (pch : Chan) (b : Block) : Block :=
  let win := (RingRec.dec l).window
  if b.mode == .off || b.syn.st != .ready || !b.fed.joined || o == b.fed.instId || freeEntries b < win then b
  else match freeRing b, freeRange b win with
    | some c, some e =>
      let b := (freshRing c (writeRing c (copyRec o r l pch e) b)).modCon (fun x => { x with ranges := x.ranges ++ [(e, win, c)] })
      b.modFed (fun d => d.modPair o (fun q => { q with heard := b.now }))
    | _, _ => b

/-- It releases the copy: its items and their journal records are gone, and its entries are in the pool again. -/
def partnerRelease (o : BitVec 9) (c : RingNo) (b : Block) : Block :=
  let v := ringRec b c
  if b.mode == .off || b.syn.st != .ready || !v.copy || v.peer != o then b
  else
    let b := v.openItems.foldl (fun b e => (itemChain b e).foldl (fun b j => freeJrn j b) b) b
    freshRing c ((setRingState c rsNONE b).modCon (fun x => { x with ranges := x.ranges.filter (fun y => y.2.2 != c) }))

/-! ### Federation and time (R363..R365, R400) -/

def joinParams (_ : List Byte) : List Param := [(0x08, 2, below 512), (0x0A, 1, any_), (0x0B, 1, fun v => decide (1 ≤ v ∧ v ≤ 15))]

/-- Joining begins: the ID, the priority and the ports; a port that is UP sends its request at once. -/
def joinStart (r : List Byte) (b : Block) : Block :=
  let ports : BitVec 4 := rq 4 r 0xB 1
  b.modFed (fun d =>
    let d := { d with instId := rq 9 r 8 2, prio := rq 8 r 0xA 1, master := false, parent := none }
    allPorts.foldl (fun d p =>
      let d := d.modPort p (fun q => { q with asked := ports.getLsbD p.toNat, accepted := false, refused := false, ann := none })
      if (d.port p).asked ∧ (d.port p).st = .up then sendLocal 0x08 p (joinPay d 1 0) d else d) d)

/-- It is over: no port is asked for any more. -/
def joinStop (b : Block) : Block :=
  b.modFed (fun d => allPorts.foldl (fun d p => d.modPort p (fun q => { q with asked := false, refused := false })) d)

/-- The OK response. -/
def joinReply (b : Block) : Block :=
  let d := b.fed
  reply 0 0 (bytesOf 2 (d.masterId.setWidth 16) ++ ([BitVec.ofNat 8 d.hops, (if d.master then 1 else 0) ||| (if fedYoung b then 2 else 0)] : List Byte) ++
    bytesOf 2 d.ofs) b

/-- The instance is elected: a peer has accepted it, and three announcement periods have shown no better master. -/
def electedHere (x : Running) (b : Block) : Bool :=
  let d := b.fed
  decide (x.since + 3 * 65536 ≤ b.now) && allPorts.any (fun p => (d.port p).accepted && (d.port p).st == .up) &&
  allPorts.all (fun p => match (d.port p).ann with
    | some a => decide (masterKey d.prio d.instId ≤ masterKey a.prio a.id)
    | none => true)

def actJoin (r : List Byte) (x : Running) (b : Block) : Block :=
  if x.stage = 0 then (if b.fed.joined then reply 0xA 0 [] b else stage 1 (joinStart r b))
  else if allPorts.any (fun p => (b.fed.port p).refused) then reply 8 0 [] (joinStop b)
  else if b.fed.joined then joinReply (joinStop b)
  else if electedHere x b then joinReply (joinStop (elect (b.modFed (fun d => { d with joined := true }))))
  else b

/-- The instance has left: LEAVE to every instance that it knows, and no state of the federation is kept. -/
def leaveFed (b : Block) : Block :=
  let d := b.fed
  let d := (d.routes.filter (fun x => rtValid x.2)).foldl (fun d x =>
    sendFree 0x09 (BitVec.ofNat 9 x.1) (bytesOf 2 (d.instId.setWidth 16)) d) d
  let b := { b with fed := { d with
    joined := false, master := false, alarm := false, parent := none, routes := [], pairs := [], adjust := 0, holdSince := none
    good := 0, timed := [], slots := d.timed.foldl (fun s (m : TimedMsg) => Map.set false s m.slot.toNat false) d.slots
    ports := d.ports.map (fun (x : Nat × Port) => (x.1, { x.2 with ann := none, asked := false, accepted := false, refused := false, known := false })) } }
  b.modCon (fun c => { c with mirWaits := [] })

/-- The instance owns, or holds a copy of, a mirrored ring. -/
def mirrors (b : Block) : Bool := (liveRings b).any (fun r => (ringRec b r).mirror || (ringRec b r).copy)

def actLeave (_ : List Byte) (_ : Running) (b : Block) : Block :=
  if mirrors b then reply 0xA 0 [] b else reply 0 0 [] (leaveFed b)

/-- TIME_SET: the tick after EFFECT has the commanded value (R194). -/
def actTime (r : List Byte) (_ : Running) (b : Block) : Block :=
  if b.fed.joined then reply 0xA 0 [] b
  else
    let e := b.tick
    replyEff 0 e (detect 0x563 1 0 { b.modFed (fun d => { d with load := some (rq 48 r 8 6) }) with
      fab := { b.fab with stepped := b.fab.stepped.set b.now } })

/-! ### Heads and channels (R401, R402) -/

def actHead (r : List Byte) (_ : Running) (b : Block) : Block :=
  let h : HeadNo := rq 8 r 8 1
  let ch : Chan := rq 16 r 0xA 2
  if rqN r 9 1 = 1 then
    if (b.head h).chan.isNone then reply 7 0 [] b else replyEff 0 b.tick (b.modHead h (fun x => { x with chan := none }))
  else if !(csbValid b ch) then reply 7 0 [] b
  else replyEff 0 b.tick (b.modHead h (fun x => { x with chan := some ch }))

def bindParams (_ : List Byte) : List Param :=
  [(0x08, 2, any_), (0x0A, 2, fun v => decide (v ≤ 0x21FF)), (0x0C, 2, below 0x1000), (0x0E, 1, below 8), (0x10, 6, multOf 128),
   (0x16, 2, any_), (0x18, 2, below 0x200), (0x1A, 6, any_), (0x20, 2, below 2)]

/-- The binding record of a CHANNEL_BIND's parameters. -/
def bindingOf (r : List Byte) : Binding :=
  { upc := rq 16 r 0xA 2, tenant := rq 16 r 0xC 2, modeBits := rq 8 r 0xE 1, stkBase := rq 48 r 0x10 6, evMask := rq 16 r 0x16 2
    wake := rq 16 r 0x18 2, arg := rq 48 r 0x1A 6 }

/-- The CSB's bank can be reached, and the channel's home engine is in service with a program. -/
def csbReach (b : Block) (ch : Chan) : Bool := !(inFenced b (csbAddr b ch) 256)
def bindable (b : Block) (ch : Chan) : Bool :=
  !(b.fenced (ch.extractLsb' 13 3)) && csbReach b ch && (b.clu (ch.extractLsb' 10 6)).runs

/-- The registers that a binding record gives. -/
def bindCtx (x : Binding) : Ctx :=
  let st : Word := (if x.modeBits.getLsbD 0 then 1 <<< 16 else 0) ||| (if x.modeBits.getLsbD 1 then 1 <<< 17 else 0) |||
    (if x.modeBits.getLsbD 2 then 1 <<< 20 else 0)
  { upc := x.upc.extractLsb' 0 14, tenant := x.tenant.extractLsb' 0 12, stat := st, stkBase := x.stkBase, evMask := x.evMask
    d := (Vector.replicate 16 0).set 0 x.arg }

/-- GEN that the next bind of the channel writes. -/
def nextGen (b : Block) (ch : Chan) : Byte := readByte b (csbAddr b ch + 0x0B) + 1

/-- The steps of R401: the state block, with VALID and the next GEN, and the ready queue. -/
def bindChannel (ch : Chan) (x : Binding) (b : Block) : Block :=
  let a := csbAddr b ch
  let l := csbBytes ch (bindCtx x) (x.wake.extractLsb' 0 9) 0 true (nextGen b ch)
  let b := breakLeases (memWrite b a l) none a 256
  let b := b.modSyn (fun y => { y with rebinds := y.rebinds.filter (fun z => z.chan != ch) })
  joinReady ch (leaveReady ch b)

/-- A context of the home engine holds the channel, or is filling or spilling it. -/
def inContext (b : Block) (ch : Chan) : Bool := (ctxsOf (homeOf ch)).any (fun n => (chansOf (b.ctx n)).contains ch)
def holdsTaken (b : Block) (ch : Chan) : Bool := (openEntries b).any (fun e => let x := entryOf b e; x.st == stTAKEN && x.chan == ch)

/-- A rank 1 event of this tick has reset the channel: its bind is discarded, and the rebind that the core owes takes the new
binding record (R402, R405). -/
def boundLater (b : Block) (ch : Chan) : Bool := b.syn.rebinds.any (fun x => x.chan == ch && x.at_ == b.now)

def actBind (r : List Byte) (_ : Running) (b : Block) : Block :=
  let ch : Chan := rq 16 r 8 2
  if !(bindable b ch) then reply 7 0 [] b
  else if csbValid b ch ∧ rqN r 0x20 2 ≠ 1 then reply 8 0 [] b
  else if csbValid b ch && (inContext b ch || holdsTaken b ch) then reply 5 3 [] b
  else
    let g := nextGen b ch
    let x := bindingOf r
    let b := if boundLater b ch then b else bindChannel ch x b
    let b := unholdRings (b.modSyn (fun y => { y with binds := Map.set none y.binds ch.toNat (some x) }))
    replyEff (g.setWidth 16) b.tick b

/-- The channel is parked, or FREE: a reset has taken it from its context, and its rebind is owed (R402). -/
def atRest (b : Block) (ch : Chan) : Bool :=
  parked b ch || (b.syn.rebinds.any (fun x => x.chan == ch) && !(inContext b ch))

/-- CHANNEL_UNBIND: once the channel is parked or FREE, VALID is 0 and the binding record is gone. -/
def actUnbind (r : List Byte) (_ : Running) (b : Block) : Block :=
  let ch : Chan := rq 16 r 8 2
  if !(csbReach b ch) || !(csbValid b ch) then reply 7 0 [] b
  else if holdsTaken b ch || !((b.queue ch).isEmpty) then reply 5 1 [] b
  else if atRest b ch then
    let a := csbAddr b ch + 0x0A
    let b := breakLeases (memWrite b a [readByte b a &&& 0xFE]) none a 1
    reply 0 0 [] (b.modSyn (fun y => { y with
      binds := Map.set none y.binds ch.toNat none, rebinds := y.rebinds.filter (fun z => z.chan != ch) }))
  else stage 1 b

def actWake (r : List Byte) (_ : Running) (b : Block) : Block :=
  let ch : Chan := rq 16 r 8 2
  if !(csbReach b ch) || !(csbValid b ch) then reply 7 0 [] b
  else reply 0 0 [] (if parked b ch then joinReady ch b else b)

/-! ### INJECT (R275, R276) -/

def injParams (_ : List Byte) : List Param :=
  [(0x08, 2, below 512), (0x0A, 1, below 16), (0x0B, 1, below 4), (0x0C, 20, any_), (0x20, 4, timeoutOk)]

/-- The Syntax core's injection slot for the engine is BUSY: a word of its own is pending in one of the contexts. -/
def coreSlotBusy (b : Block) (e : EngId) : Bool :=
  (ctxsOf e).any (fun n => (b.ctx n).inj.any (fun i => i.src == .synCore))

/-- INJECT. Where the context's slot holds a word of the debugger the GO is discarded with WERR (R275), and the command waits for its
TIMEOUT in stage 2 (the spec does not say what the core does then: the model's choice, log entry 110). -/
def actInject (r : List Byte) (x : Running) (b : Block) : Block :=
  let e : EngId := rq 9 r 8 2
  let k : CtxId := rq 4 r 0xA 1
  let g := b.eng e
  if x.stage = 0 then
    if coreSlotBusy b e then reply 5 1 [] b
    else
      let sys := (rq 8 r 0xB 1).getLsbD 0
      let b := b.modEng e (fun g => { g with
        injD := Map.set 0 g.injD (orgKey .synCore) (rq 160 r 0xC 20), injCtx := k, injSys := sys, injDone := {}, injErr := {} })
      stage (if (b.ctx (ctxNo e k)).inj.isSome then 2 else 1) (injectGo .synCore e k sys b)
  else if x.stage = 2 then b
  else if (b.ctx (ctxNo e k)).inj.isSome ∨ !(g.injDone.on || g.injErr.on) then b
  else reply 0 0 (bytesOf 2 ((if g.injDone.on then 1 else 0) ||| (if g.injErr.on then (2 : BitVec 16) else 0))) b

/-! ### A command's bound (R363, R397, R415) -/

/-- The TIMEOUT or the bound of the command that runs has passed: it completes with BUSY or PEERFAIL. -/
def timeoutEnd (r : List Byte) (x : Running) (b : Block) : Block :=
  let past (n : Nat) : Bool := decide (x.since + n ≤ b.now)
  match rqN r 0 2 with
  | 0x0002 => if x.stage = 2 ∧ past 100000000 then (if b.sup.stopped then badMode b else reply 5 5 [] b) else b
  | 0x000A => if x.stage = 1 ∧ past 50000000 then reply 0xC 0 [] (joinStop b) else b
  | 0x000F => if x.stage = 1 ∧ past (rqN r 0xA 4) then reply 5 2 [] b else b
  | 0x0011 =>
    if x.stage ≠ 0 ∧ past (rqN r 0x20 4) then
      reply 5 2 [] (if x.stage = 1 ∧ (rq 8 r 0xB 1).getLsbD 1 then injectCancel (rq 9 r 8 2) (rq 4 r 0xA 1) b else b)
    else b
  | _ => b

/-- COMMAND_TIMEOUT: the core looks at the command that runs. One whose pair is not RUNNING is an inconsistency in its own state:
INTERNAL, with its record (R395, R440; what the core checks is not stated: log entry 111). -/
def opCommandTimeout (b : Block) : Block :=
  match b.syn.run with
  | some x => if (b.mbx x.pair).st ≠ 2 then reply 0xFF 0 [] (detect 0x564 1 0 b) else timeoutEnd (reqOf b x.pair) x b
  | none => b

/-! ### Events, rebinds, heartbeat (R385, R394, R402, R404) -/

/-- EVENT_POST: the oldest queued event, no earlier than the tick after the EVACK of the one before it. -/
def opEventPost (b : Block) : Block :=
  match b.syn.evq with
  | [] => b
  | x :: rest =>
    if b.mode = .off ∨ b.syn.st ≠ .ready ∨ b.syn.posted.isSome ∨ b.syn.evackAt = some b.now then b
    else
      let l := bytesOf 2 x.kind ++ bytesOf 2 b.syn.evSeq ++ bytesOf 6 x.stamp ++ (x.data ++ List.replicate 54 0).take 54
      let b := b.modMbx 63 (fun m => { m with rsp := rspWords l, st := 3 })
      let b := b.modSyn (fun y => { y with evq := rest, evSeq := y.evSeq + 1, posted := some x, done := y.done.set b.now (BitVec.ofNat 64 (2 ^ 63)) })
      raiseIrq (b.syn.cfg.extractLsb' 3 3) b

/-- CHANNEL_REBIND: a channel that a reset has cost its resident state is bound again from its record. -/
def opChannelRebind (ch : Chan) (b : Block) : Block :=
  match b.syn.rebinds.find? (fun x => x.chan == ch) with
  | none => b
  | some z =>
    if b.mode = .off ∨ b.syn.st ≠ .ready ∨ !(bindable b ch) then b
    else match Map.get none b.syn.binds ch.toNat with
      | none => b.modSyn (fun y => { y with rebinds := y.rebinds.filter (fun w => w.chan != ch) })
      | some x =>
        let g := nextGen b ch
        unholdRings (queueEventAt z.stamp 1 (bytesOf 2 ch ++ ([g, z.cause] : List Byte)) (bindChannel ch x b))

/-- SYN_HEARTBEAT. -/
def opSynHeartbeat (b : Block) : Block :=
  if b.mode ≠ .off ∧ b.syn.st = .ready ∧ b.syn.beatAt + 1000000 ≤ b.now then
    b.modSyn (fun y => { y with heartbeat := y.heartbeat + 1, beatAt := y.beatAt + 1000000 })
  else b

end Sys2Proof.Machine
end

