-- ==== Sys2Proof/Machine/Shifters.lean ====
section
/-! DEFINITION. The bit shifters, lane edges and edge capture of a lane group (R260, R267..R280). -/

namespace Sys2Proof.Machine
open Sys2Proof

/-! ### Grant (R266, R273) -/

def lqTx (lq : BitVec 4) : BitVec 4 := lq &&& 7
def lqRx (lq : BitVec 4) : BitVec 4 := (lq &&& 7) ||| 8

/-- A held group, or one released in this tick, keeps the request waiting. -/
def blocked (l : Lanes) (now : Nat) (r : ShiftReq) : Bool :=
  let a := (l.pg r.g).pga
  (List.range 16).any (fun i =>
    let p := l.pg (BitVec.ofNat 4 i)
    (p.held && (BitVec.ofNat 4 i == r.g || conflicts l p.dA a p.op r.op p.lq r.lq)) ||
    (match p.rel with
      | some (t, x, op, lq) => t == now && (BitVec.ofNat 4 i == r.g || conflicts l x a op r.op lq r.lq)
      | none => false))

/-- The requests that come first among those that nothing blocks: earliest first, none in conflict with one before it. -/
def grantable (l : Lanes) (now : Nat) : List ShiftReq :=
  l.reqs.foldl (fun acc r =>
    if !(blocked l now r) && !(acc.any (fun q =>
        q.g == r.g || conflicts l (l.pg q.g).pga (l.pg r.g).pga q.op r.op q.lq r.lq)) then acc ++ [r] else acc) []

/-- PIN_GROUP_GRANT: the group goes to the earliest request that may have it, which latches its descriptor. No level of its
data-out lanes is stated until its first bit. -/
def opPinGroupGrant (c : CluId) (g : BitVec 4) (b : Block) : Block :=
  match (grantable (b.lanes c) b.now).find? (fun r => r.g == g) with
  | none => b
  | some r =>
    let b := b.modLanes c (fun l => { l with reqs := l.reqs.erase r })
    let b := b.modPg c g (fun p => { p with
      owner := some r.n, lvl := r.lvl, op := r.op, lq := r.lq, bits := r.bits, done := r.done, dA := p.pga, dB := p.pgb, dC := p.pgc
      began := none, sample := none, stopped := false, notBefore := r.at_ + 1, outPrev := Config.laneIdle b.free })
    { b with free := b.free + 1 }

/-! ### Bit times (R265, R268..R270) -/

/-- The context's shift word is running on the group, and nothing makes the shifter stop (R272). -/
def shifting (b : Block) (c : CluId) (g : BitVec 4) (n : CtxNo) : Bool :=
  cluOf (engOf n) == c &&
  (match (b.ctx n).act with
    | .shift s => shiftGroup s.w == g
    | _ => false)

/-- The data-out lanes at bit `pos` of an entry. -/
def bitOut (a : Reg32) (op : BitVec 5) (e : Word) (pos : Nat) : BitVec 16 :=
  ((outLanes a op).zipIdx).foldl (fun v x =>
    putBit v x.1 (e.getLsbD (if pgMsb a then 47 - (pos + x.2) else pos + x.2))) 0

/-- The partial RX entry with the sampled bits at `pos`. -/
def bitIn (a : Reg32) (op : BitVec 5) (part : Word) (levels : BitVec 16) (pos : Nat) : Word :=
  ((inLanes a op).zipIdx).foldl (fun v x =>
    putBit v (if pgMsb a then 47 - (pos + x.2) else pos + x.2) (levels.getLsbD x.1)) part

/-- The conditions of R269. -/
def bitReady (l : Lanes) (p : PinGroup) : Bool :=
  (p.op == 5 || (let q := l.queue (lqTx p.lq); !q.entries.isEmpty && decide (q.pos.toNat + pgW p.dA ≤ 48))) &&
  (p.op == 4 || (l.queue (lqRx p.lq)).back.isNone)

/-- SHIFT_BIT_START. -/
def opShiftBitStart (c : CluId) (g : BitVec 4) (b : Block) : Block :=
  let l := b.lanes c
  let p := l.pg g
  match p.owner with
  | none => b
  | some n =>
    if shifting b c g n && !p.stopped && p.began.isNone && decide (p.done < p.bits ∧ p.notBefore ≤ b.now) && bitReady l p &&
        (takeable b n).isNone && (b.ctx n).inj.isNone && !(haltPending b n) && !(b.paused_ c) then
      let x := if queueSel c b then perturbHit (b.dbg.pQueue.extractLsb' 7 8) b else (b, false)
      if x.2 then x.1 else
      let b := x.1
      let q := l.queue (lqTx p.lq)
      let cur := if p.op = 5 then 0 else bitOut p.dA p.op (q.entries.head?.getD 0) q.pos.toNat
      b.modPg c g (fun p => { p with began := some b.now, sample := none, outCur := cur })
    else b

/-- The levels that a bit time samples: those of its sample tick, or the present ones where no edge has come since. -/
def sampled (l : Lanes) (p : PinGroup) : BitVec 16 := p.sample.getD l.levels

/-- A completed RX entry is appended, or held back while the queue is full (R270). -/
def appendRx (l : Lanes) (lq : BitVec 4) (e : Word) : Lanes :=
  let q := l.queue lq
  if l.full lq then l.setQueue lq { q with part := 0, pos := 0, back := some e }
  else l.setQueue lq { q with part := 0, pos := 0, entries := q.entries ++ [e] }

/-- BITPOS advances by W; at 48 the head entry goes. -/
def takeTx (l : Lanes) (lq : BitVec 4) (w : Nat) : Lanes :=
  let q := l.queue lq
  if 48 ≤ q.pos.toNat + w then l.setQueue lq { q with pos := 0, entries := q.entries.tail }
  else l.setQueue lq { q with pos := q.pos + BitVec.ofNat 6 w }

/-- SHIFT_BIT_END: the bit time's last tick has passed. -/
def opShiftBitEnd (c : CluId) (g : BitVec 4) (b : Block) : Block :=
  let p := b.pg c g
  match p.owner, p.began with
  | some n, some t =>
    if t + pgPer p.dA p.dB ≤ b.now then
      let w := pgW p.dA
      let b := b.modLanes c (fun l => if p.op = 5 then l else takeTx l (lqTx p.lq) w)
      let b := b.modLanes c (fun l =>
        if p.op = 4 then l
        else
          let q := l.queue (lqRx p.lq)
          let part := bitIn p.dA p.op q.part (sampled l p) q.pos.toNat
          if 48 ≤ q.pos.toNat + w then appendRx l (lqRx p.lq) part
          else l.setQueue (lqRx p.lq) { q with part := part, pos := q.pos + BitVec.ofNat 6 w })
      let b := b.modPg c g (fun p => { p with
        began := none, sample := none, done := p.done + 1, outPrev := p.outCur
        notBefore := t + pgPer p.dA p.dB })
      let b := match (b.ctx n).act with
        | .shift s => b.modFile n s.lvl (fun x => setProgress s.lvl x (mkProg s.w.longOp (p.done + 1)))
        | _ => b
      settleClu c b
    else b
  | _, _ => b

/-! ### The end of a shift word (R271) -/

/-- ENDW closes the partial entries of both queues. -/
def closeQueues (p : PinGroup) (l : Lanes) : Lanes :=
  if pgEndw p.dA then
    let l := if p.op = 5 then l
      else let q := l.queue (lqTx p.lq)
        if q.pos = 0 then l else l.setQueue (lqTx p.lq) { q with pos := 0, entries := q.entries.tail }
    if p.op = 4 then l
    else let q := l.queue (lqRx p.lq)
      if q.pos = 0 then l else appendRx l (lqRx p.lq) q.part
  else l

/-- SHIFT_WORD_END: every bit time has passed; once no RX entry is held back the word ends, and the group is released. While an
entry is held back the group stays held and its lanes driven (R258), though R271 has them return in the tick after the last bit
time (the model's choice, log entry 116). -/
def opShiftWordEnd (c : CluId) (g : BitVec 4) (b : Block) : Block :=
  let p := b.pg c g
  match p.owner with
  | none => b
  | some n =>
    if shifting b c g n && !p.stopped && p.began.isNone && decide (p.bits ≤ p.done) then
      let b := b.modLanes c (closeQueues p)
      if p.op ≠ 4 ∧ ((b.lanes c).queue (lqRx p.lq)).back.isSome then settleClu c b
      else
        let b := releaseGroup c g false b
        match (b.ctx n).act with
        | .shift s => settleClu c (longEnd n s b)
        | _ => b
    else b

/-! ### Lane edges (R260, R279, R280) -/

/-- The levels of a sample tick that has passed are kept before the levels change. -/
def keepSample (now : Nat) (l : Lanes) (p : PinGroup) : PinGroup :=
  match p.began with
  | some t => if p.sample.isNone && decide (t + pgSamp p.dA p.dB p.dC < now) then { p with sample := some l.levels } else p
  | none => p

/-- The data lanes of a pin group: those that any of its shift words may use. -/
def dataLanes (a : Reg32) : List Nat :=
  (List.range 16).filter (fun i => (outLanes a 4).contains i || (inLanes a 6).contains i)

/-- The data lanes of a descriptor, and the descriptor that a group's capture unit follows. -/
def laneMask (desc : Reg32) : BitVec 16 := (dataLanes desc).foldl (fun v i => putBit v i true) 0
def PinGroup.capDesc (p : PinGroup) : Reg32 := if p.held then p.dA else p.pga

/-- The capture unit of group `g` fires on an edge that its CAPEDGE selects; a held group's descriptor is the latched one
(R266). -/
def capture (c : CluId) (g : BitVec 4) (old new : BitVec 16) (b : Block) : Block :=
  let p := b.pg c g
  let desc := p.capDesc
  let lanes := laneMask desc
  let rise := ~~~old &&& new &&& lanes
  let fall := old &&& ~~~new &&& lanes
  let e := pgCapEdge desc
  if p.armed && ((e.getLsbD 0 && rise != 0) || (e.getLsbD 1 && fall != 0)) then
    raise (.chan 6 p.capOwner) (b.modPg c g (fun p => { p with
      armed := false, capf := p.capf.set b.now, ovr := p.ovr.setIf b.now p.capf.on, capTick := b.tick, capLevel := new
      capEdges := (old ^^^ new) }))
  else b

/-- LANE_EDGE: the input levels of this tick differ from those before. Sample ticks passed keep the old levels; timers and
capture units see each edge; one on a lane of a group whose unit is armed is a wake trigger (R432). -/
def opLaneEdge (c : CluId) (levels : BitVec 16) (b : Block) : Block :=
  if b.mode = .off then b
  else
    let old := (b.lanes c).levels
    if old = levels then b
    else
      let b := b.modLanes c (fun l =>
        let l := (List.range 16).foldl (fun l i => l.modPg (BitVec.ofNat 4 i) (keepSample b.now l)) l
        { l with levels := levels })
      let armed := (List.range 16).any (fun i =>
        let p := b.pg c (BitVec.ofNat 4 i)
        p.armed && (old ^^^ levels) &&& laneMask p.capDesc != 0)
      let b := if armed then trigger c b else b
      let b := times 16 (fun i b =>
        if old.getLsbD i ≠ levels.getLsbD i then captureEdge c (BitVec.ofNat 6 i) (levels.getLsbD i) b else b) b
      times 16 (fun i b => capture c (BitVec.ofNat 4 i) old levels b) b

end Sys2Proof.Machine
end

