-- ==== Sys2Proof/Machine/Local.lean ====
section
/-! DEFINITION. The registers of the cluster and engine windows: what each offset reads, what a read clears, and what a write
does (R48, R74..R76, R148, R153, R159, R160, R179, R199..R201, R213, R261, R279..R282, R435). -/

namespace Sys2Proof.Machine
open Sys2Proof

/-! ### Lane groups (R261, R281) -/

/-- The queues in use by held pin groups. -/
def groupQueues (p : PinGroup) : List (BitVec 4) :=
  if p.held then (if p.op = 5 then [lqRx p.lq] else if p.op = 4 then [lqTx p.lq] else [lqTx p.lq, lqRx p.lq]) else []
def allLq : List (BitVec 4) := (List.range 16).map (BitVec.ofNat 4)
/-- The lowest member and depth of the queue that LQ selects under a QCFG. -/
def lqJoin (cfg : BitVec 15) (lq : BitVec 4) : Nat × Nat :=
  joined (joinOf cfg (lq.getLsbD 3)) (lq.extractLsb' 0 3).toNat
/-- The queue of LQ may be joined or split: empty, with no partial entry, and used by no held group. -/
def queueFree (l : Lanes) (lq : BitVec 4) : Bool :=
  let q := l.queue lq
  q.entries.isEmpty && q.pos == 0 && q.back.isNone &&
  !(l.pgs.any (fun x => (groupQueues x.2).any (fun y =>
    y.getLsbD 3 == lq.getLsbD 3 && (lqJoin l.qcfg y).1 == (lqJoin l.qcfg lq).1)))
/-- A write of LANE_QCFG (R261). -/
def writeQcfg (c : CluId) (d : Reg32) (b : Block) : Block :=
  let l := b.lanes c
  let new : BitVec 15 := d.extractLsb' 0 15 &&& 0x7F7F
  if allLq.all (fun lq => lqJoin l.qcfg lq == lqJoin new lq || queueFree l lq) then
    settleClu c (b.modLanes c (fun l => { l with qcfg := new }))
  else b.modLanes c (fun l => { l with qerr := l.qerr.set b.now })

/-- LANE_TXQ and LANE_RXQ. -/
def queueReg (l : Lanes) (lq : BitVec 4) : Reg32 :=
  let q := l.queue lq
  let j := lqJoin l.qcfg lq
  fldN 0 q.entries.length ||| fld 6 q.pos ||| fldN 12 j.2 ||| bit 14 (j.1 != (lq.extractLsb' 0 3).toNat)
/-- LANE_SH[g]. A word in no bit time stalls: the shifter has found the conditions of R269 false at its rank, 7. -/
def shifterReg (now : Nat) (l : Lanes) (g : BitVec 4) : Reg32 :=
  let p := l.pg g
  match p.owner, l.reqs.find? (fun r => r.g == g) with
  | some n, _ =>
    fldN 0 (if p.stopped then 3 else if p.began.isSome || decide (now < p.notBefore) then 1 else 2) |||
    fldN 2 (p.op.toNat - 4) ||| fldN 4 p.done ||| fld 16 n
  | none, some r => fldN 0 2 ||| fldN 2 (r.op.toNat - 4) ||| fldN 4 r.done
  | none, none => 0

/-- The lane area, by the offset from 0x0C00. -/
def laneRead (b : Block) (c : CluId) (r : Nat) : Reg32 :=
  let l := b.lanes c
  if r < 0x20 then match r with
    | 0x00 => fld 0 l.out
    | 0x04 => fld 0 l.oen
    | 0x08 => fld 0 l.levels
    | 0x0C => lanePort l b.now
    | 0x10 => fld 0 l.qcfg
    | 0x14 => bit 0 (l.qerr.pre b.now) ||| bit 1 (l.qfault.pre b.now) |||
        (List.range 16).foldl (fun v g => v ||| bit (16 + g) (l.pg (BitVec.ofNat 4 g)).held) 0
    | _ => 0
  else if r < 0x60 then queueReg l (BitVec.ofNat 4 ((r - 0x20) / 4))
  else if 0xC0 ≤ r ∧ r < 0x100 then
    let v := (headQ b c (BitVec.ofNat 4 (8 + (r - 0xC0) / 8))).getD 0
    if r % 8 = 0 then lo32 v else hi32 v
  else if 0x100 ≤ r ∧ r < 0x200 then
    let p := l.pg (BitVec.ofNat 4 ((r - 0x100) / 16))
    match r % 16 with
    | 0 => p.pga
    | 4 => fld 0 p.pgb
    | 8 => fld 0 p.pgc
    | _ => 0
  else if 0x200 ≤ r ∧ r < 0x300 then
    let p := l.pg (BitVec.ofNat 4 ((r - 0x200) / 16))
    match r % 16 with
    | 0 => lo32 p.capTick
    | 4 => hi32 p.capTick
    | 8 => fld 0 p.capLevel ||| fld 16 p.capEdges
    | _ => bit 0 p.armed ||| bit 1 (p.capf.pre b.now) ||| bit 2 (p.ovr.pre b.now) ||| fld 16 p.capOwner
  else if 0x300 ≤ r ∧ r < 0x340 then shifterReg b.now l (BitVec.ofNat 4 ((r - 0x300) / 4))
  else 0
/-- A read of LANE_CAPT_LO clears CAPF (R279). -/
def laneClear (c : CluId) (r : Nat) (b : Block) : Block :=
  if 0x200 ≤ r ∧ r < 0x300 ∧ r % 16 = 0 then b.modPg c (BitVec.ofNat 4 ((r - 0x200) / 16)) (fun p => { p with capf := p.capf.clear b.now })
  else b
/-- Writes of a queue register: FLUSH, then POP. -/
def queueWrite (c : CluId) (lq : BitVec 4) (d : Reg32) (b : Block) : Block :=
  let b := if d.getLsbD 30 then flushQ c lq b else b
  if d.getLsbD 31 && lq.getLsbD 3 then popQ c lq b else b
/-- LANE_TXPUSH of queue `q`: the staged copy of each origin (R281). -/
def stageKey (o q : Nat) : Nat := 8 * o + q
def txPush (o : Nat) (c : CluId) (q : Nat) (d : Reg32) (b : Block) : Block :=
  pushQ c (BitVec.ofNat 4 q) (d.extractLsb' 0 16 ++ Map.get 0 (b.lanes c).staged (stageKey o q) : BitVec 48) b
def laneWrite (o : Nat) (c : CluId) (r : Nat) (d : Reg32) (b : Block) : Block :=
  if r < 0x20 then match r with
    | 0x00 => b.modLanes c (fun l => { l with out := d.extractLsb' 0 16 })
    | 0x04 => b.modLanes c (fun l => { l with oen := d.extractLsb' 0 16 })
    | 0x10 => writeQcfg c d b
    | 0x14 => b.modLanes c (fun l => { l with qerr := l.qerr.clearIf b.now (d.getLsbD 0), qfault := l.qfault.clearIf b.now (d.getLsbD 1) })
    | _ => b
  else if r < 0x60 then settleClu c (queueWrite c (BitVec.ofNat 4 ((r - 0x20) / 4)) d b)
  else if 0x80 ≤ r ∧ r < 0xC0 then
    let q := (r - 0x80) / 8
    if r % 8 = 0 then b.modLanes c (fun l => { l with staged := Map.set 0 l.staged (stageKey o q) d })
    else settleClu c (txPush o c q d b)
  else if 0x100 ≤ r ∧ r < 0x200 then
    b.modPg c (BitVec.ofNat 4 ((r - 0x100) / 16)) (fun p => match r % 16 with
      | 0 => { p with pga := d &&& 0x7FFFF }
      | 4 => { p with pgb := d.extractLsb' 0 24 }
      | 8 => { p with pgc := d.extractLsb' 0 24 }
      | _ => p)
  else if 0x200 ≤ r ∧ r < 0x300 ∧ r % 16 = 12 then
    b.modPg c (BitVec.ofNat 4 ((r - 0x200) / 16)) (fun p => { p with ovr := p.ovr.clearIf b.now (d.getLsbD 2) })
  else b

/-! ### Timers (R199..R201, R213) -/

/-- The item that an origin's TMR_WSEL selects. -/
def wideItem (v : Clu) (o : Nat) : Word :=
  let s := Map.get 0 v.wsel o
  let x := (s.extractLsb' 0 6).toNat
  let t := Map.get {} v.timers x
  if 40 ≤ x then 0
  else match (s.extractLsb' 8 2).toNat with
    | 0 => t.cmp
    | 1 => t.rld
    | 2 => t.count
    | _ => 0
/-- The timer area, by the offset from 0x0800. -/
def timerRead (b : Block) (o : Nat) (c : CluId) (r : Nat) : Reg32 :=
  let v := b.clu c
  if r < 0x3C0 then
    let x := r / 0x18
    let t := b.timer c x
    match r % 0x18 with
    | 0x00 => fld 0 t.cfg
    | 0x04 => tmrStat b c x
    | 0x08 => lo32 t.count
    | 0x0C => hi32 t.count
    | 0x10 => lo32 t.cap
    | 0x14 => hi32 t.cap
    | _ => 0
  else match r with
    | 0x3C0 => fld 0 (Map.get 0 v.wsel o)
    | 0x3C4 => lo32 (wideItem v o)
    | 0x3C8 => hi32 (wideItem v o)
    | _ => 0
/-- A read of TMR_CAP_LO clears CAPF. -/
def timerClear (c : CluId) (r : Nat) (b : Block) : Block :=
  if r < 0x3C0 ∧ r % 0x18 = 0x10 then b.modTimer c (r / 0x18) (fun t => { t with capf := t.capf.clear b.now }) else b
/-- A write of TMR_WHI commits the selected item (R201). -/
def wideCommit (o : Nat) (c : CluId) (d : Reg32) (b : Block) : Block :=
  let v := b.clu c
  let s := Map.get 0 v.wsel o
  commitItem c (s.extractLsb' 0 6).toNat (s.extractLsb' 8 2).toNat (d.extractLsb' 0 16 ++ Map.get 0 v.wlo o : BitVec 48) b
def timerWrite (o : Nat) (c : CluId) (r : Nat) (d : Reg32) (b : Block) : Block :=
  if r < 0x3C0 then match r % 0x18 with
    | 0x00 => writeTmrCfg c (r / 0x18) d b
    | 0x04 => settleClu c (writeTmrStat c (r / 0x18) d b)
    | _ => b
  else match r with
    | 0x3C0 => b.modClu c (fun v => { v with wsel := Map.set 0 v.wsel o (d.extractLsb' 0 10 &&& 0x33F) })
    | 0x3C4 => b.modClu c (fun v => { v with wlo := Map.set 0 v.wlo o d })
    | 0x3C8 => wideCommit o c d b
    | _ => b

/-! ### The control store (R179, R180) -/

def csStateCode : CsState → Nat
  | .empty => 0
  | .loading => 1
  | .loaded => 2
  | .patching => 3
  | .repair => 4
  | .out => 5
/-- The area 0x0400..0x07FF of a cluster window. -/
def csRegRead (now : Nat) (v : Clu) (r : Nat) : Reg32 :=
  if r < 0x410 then match r with
    | 0x400 => fld 0 v.patch ||| fld 16 v.body ||| fldN 20 (csStateCode v.state)
    | 0x404 => v.image
    | 0x408 => fld 0 v.pmActive
    | 0x40C => fld 0 v.raddr ||| bit 31 v.rbusy
    | _ => 0
  else if r < 0x428 then (v.rdata.extractLsb' (8 * (r - 0x410)) 32 : BitVec 32)
  else if r < 0x434 then match r with
    | 0x428 => fld 0 v.policy
    | 0x42C => fld 0 (v.perr.pre now)
    | 0x430 => v.mchk
    | _ => 0
  else if 0x500 ≤ r ∧ r < 0x580 then Map.get 0 v.pm ((r - 0x500) / 4)
  else 0
def csRegWrite (c : CluId) (r : Nat) (d : Reg32) (b : Block) : Block := match r with
  | 0x40C => csRead c (d.extractLsb' 0 14) b
  | 0x428 => b.modClu c (fun v => { v with policy := d.extractLsb' 0 2 })
  | _ => b

/-! ### The cluster window (R148, R435) -/

def cluRead (b : Block) (o : Origin) (c : CluId) (r : Nat) : Reg32 :=
  let v := b.clu c
  if r < 0x400 then match r with
    | 0x0C => v.sleepCfg ||| bit 1 v.asleep
    | 0x40 => fld 0 v.xvBase ||| bit 31 v.xvValid
    | _ => 0
  else if r < 0x800 then csRegRead b.now v r
  else if r < 0xC00 then timerRead b (orgKey o) c (r - 0x800)
  else if r < 0x1000 then laneRead b c (r - 0xC00)
  else dbgCluRead b c (r - 0x1000)
def cluClear (c : CluId) (r : Nat) (b : Block) : Block :=
  if r = 0x42C then b.modClu c (fun v => { v with perr := v.perr.clear b.now })
  else if 0x800 ≤ r ∧ r < 0xC00 then timerClear c (r - 0x800) b
  else if 0xC00 ≤ r ∧ r < 0x1000 then laneClear c (r - 0xC00) b
  else b
/-- The debug area is written by the Debug Access Port, and in part by contexts of the same engine (R484). -/
def mayDebug (o : Origin) (c : CluId) (r : Nat) : Bool := match o with
  | .dap => true
  | .ctx e _ => dbgCtxMay e c r
  | _ => false
def cluWrite (o : Origin) (c : CluId) (r : Nat) (d : Reg32) (b : Block) : Block :=
  if r < 0x400 then match r with
    | 0x08 => if d.getLsbD 0 then b.modClu c (fun v => { v with resetAt := some (v.resetAt.getD (b.now + 1)) }) else b
    | 0x0C => b.modClu c (fun v => { v with sleepCfg := d &&& 0xFFFF0001 })
    | 0x10 => wdKick o c d b
    | 0x40 => b.modClu c (fun v => { v with xvBase := d.extractLsb' 0 8, xvValid := d.getLsbD 31 })
    | _ => b
  else if r < 0x800 then csRegWrite c r d b
  else if r < 0xC00 then timerWrite (orgKey o) c (r - 0x800) d b
  else if r < 0x1000 then laneWrite (orgKey o) c (r - 0xC00) d b
  else if mayDebug o c (r - 0x1000) then dbgCluWrite c (r - 0x1000) d b
  else b

/-! ### Contexts (R75, R76) -/

/-- CTX_STATE.STATE: HALT by the debugger or a machine check; EXCWAIT; else by what the context does. A FENCE, a CALL, a
RET, a long instruction and a shift word show RUN. -/
def ctxState (c : Ctx) : BitVec 3 :=
  if c.halt.halted || c.mchk.isSome then 6
  else if c.excWait then 7
  else match c.act with
    | .swap .. => 5
    | .wait .. | .sync .. => if c.chan.isNone then 0 else 2
    | .atWait .. | .atDue .. => if c.chan.isNone then 0 else 3
    | .yieldOn _ => if c.chan.isNone then 0 else 4
    | _ => if c.chan.isNone then 0 else 1
/-- The context is FREE or HALT (R76). -/
def ctxOpen (c : Ctx) : Bool := ctxState c == 0 || ctxState c == 6
/-- STAT at the level the context is at (R155). -/
def ctxStat (b : Block) (n : CtxNo) : Word := (b.file n (b.ctx n).lvl).stat
/-- The context block of context n, by its offset. -/
def ctxRead (b : Block) (n : CtxNo) (r : Nat) : Reg32 :=
  let c := b.ctx n
  match r with
  | 0x00 => fld 0 (ctxState c) ||| bit 3 ((ctxStat b n).getLsbD 17) ||| fld 16 (c.chan.getD 0)
  | 0x04 => fld 0 c.upc
  | 0x08 => lo32 (ctxStat b n)
  | 0x0C => fld 0 c.tenant
  | 0x10 => lo32 c.stkBase
  | 0x14 => hi32 c.stkBase
  | 0x18 => fld 0 (c.latch.pre b.now)
  | 0x1C => fld 0 c.evMask
  | 0x20 => ((b.eng (engOf n)).pends (ctxOf n)).foldl (fun v p => v ||| bit p.1.toNat true) 0
  | _ => 0
/-- The registers that R76 restricts. -/
def ctxRegOff : CtxReg → Nat
  | .upc => 0x04
  | .stat => 0x08
  | .tenant => 0x0C
  | .stkLo => 0x10
  | .stkHi => 0x14
def writeCtxReg (n : CtxNo) (r : Nat) (d : Reg32) (b : Block) : Block := match r with
  | 0x04 => b.modCtx n (fun c => { c with upc := d.extractLsb' 0 14 })
  | 0x08 => b.modFile n (b.ctx n).lvl (fun c => { c with stat := d.setWidth 48 &&& statMask })
  | 0x0C => b.modCtx n (fun c => { c with tenant := d.extractLsb' 0 12 })
  | 0x10 => b.modCtx n (fun c => { c with stkBase := setLo c.stkBase d })
  | 0x14 => b.modCtx n (fun c => { c with stkBase := setHi c.stkBase d })
  | _ => b
def setWerr (e : EngId) (b : Block) : Block := b.modEng e (fun g => { g with werr := g.werr.set b.now })
def ctxWrite (n : CtxNo) (r : Nat) (d : Reg32) (b : Block) : Block :=
  if 0x04 ≤ r ∧ r < 0x18 then
    if ctxOpen (b.ctx n) then writeCtxReg n r d b else setWerr (engOf n) b
  else match r with
    | 0x18 => b.modCtx n (fun c => { c with latch := c.latch.clear b.now (d.extractLsb' 0 24) })
    | 0x1C => b.modCtx n (fun c => { c with evMask := d.extractLsb' 0 16 })
    | _ => b

/-! ### Shadow banks (R159, R160) -/

def bankRead (g : Eng) (k : Bank) (two : Bool) (r : Nat) : Reg32 := match r with
  | 0x00 => fld 0 k.owner ||| bit 4 k.held ||| (if two then 0 else g.waitq.foldl (fun v j => v ||| bit (16 + j.toNat) true) 0)
  | 0x04 => lo32 k.ecause
  | 0x08 => hi32 k.ecause
  | 0x0C => fld 0 k.eupc
  | 0x10 => lo32 k.estat
  | 0x14 => bit 0 k.epriv
  | 0x18 => lo32 k.einfo
  | 0x1C => hi32 k.einfo
  | 0x20 => lo32 k.eprog
  | 0x24 => hi32 k.eprog
  | 0x28 => lo32 k.stkBase
  | 0x2C => hi32 k.stkBase
  | _ => 0
/-- A write of ESTAT lands for the holder's own store, or from HREG or the Debug Access Port while the holder is HALT. -/
def estatMay (b : Block) (o : Origin) (e : EngId) (k : Bank) : Bool :=
  k.held && (match o with
    | .ctx e' j => e' == e && j == k.owner
    | .hreg | .dap => ctxState (b.ctx (ctxNo e k.owner)) == 6
    | _ => false)
def bankWrite_ (o : Origin) (e : EngId) (two : Bool) (r : Nat) (d : Reg32) (b : Block) : Block :=
  let l : Lvl := if two then .bank2 else .bank1
  match r with
  | 0x10 =>
    if estatMay b o e ((b.eng e).bank l) then
      b.modEng e (fun g => g.modBank l (fun k => { k with estat := d.setWidth 48 &&& statMask }))
    else setWerr e b
  | 0x28 => b.modEng e (fun g => g.modBank l (fun k => { k with stkBase := setLo k.stkBase d }))
  | 0x2C => b.modEng e (fun g => g.modBank l (fun k => { k with stkBase := setHi k.stkBase d }))
  | _ => b

/-! ### The engine window (R74, R153, R282) -/

/-- The channels homed on an engine. -/
def homeChans (e : EngId) : List Chan := (List.range 128).map (fun i => (e ++ BitVec.ofNat 7 i : BitVec 16))
/-- Bound channels with CSB VALID = 1 that no context holds. -/
def parkedCount (b : Block) (e : EngId) : Nat :=
  ((homeChans e).filter (fun ch => csbValid b ch && !((ctxsOf e).any (fun n => (chansOf (b.ctx n)).contains ch)))).length

def engStatus (b : Block) (e : EngId) : Reg32 :=
  let g := b.eng e
  fldN 0 (if b.fenced (secOf e) then 3 else if g.inReset then 2 else if g.halted then 1 else 0) |||
  bit 2 g.xb1.held ||| bit 3 g.xb2.held ||| fldN 4 ((ctxsOf e).filter (fun n => (b.ctx n).chan.isSome)).length |||
  fldN 9 (parkedCount b e) ||| bit 17 (g.werr.pre b.now)
def engRead (b : Block) (o : Origin) (e : EngId) (r : Nat) : Reg32 :=
  let g := b.eng e
  if r < 0x28 then match r with
    | 0x00 => engStatus b e
    | 0x04 => fld 0 g.ctxEn
    | 0x0C => fldN 0 g.rdyHi.length ||| fldN 8 g.rdyLo.length ||| fld 16 (g.ready.getD 0)
    | 0x10 => g.swapCnt.pre b.now
    | 0x14 => g.csConf.pre b.now
    | 0x18 => lo32 (g.issue.pre b.now)
    | 0x1C => hi32 (g.issue.pre b.now)
    | 0x20 => fld 0 g.lbBase ||| fld 14 g.lbLast ||| bit 20 (lbValid g)
    | 0x24 => fld 0 (g.afxLate.pre b.now)
    | _ => 0
  else if r < 0x3C then (Map.get 0 g.injD (orgKey o)).extractLsb' (8 * (r - 0x28)) 32
  else if r = 0x3C then
    fld 0 g.injCtx ||| bit 4 g.injSys ||| bit 7 (b.ctx (ctxNo e g.injCtx)).inj.isSome ||| bit 8 (g.injDone.pre b.now) ||| bit 9 (g.injErr.pre b.now)
  else if r < 0x60 then Map.get 0x03FF03FF g.evSel ((r - 0x40) / 4)
  else if r < 0xA0 then
    fld 0 (Map.get 0 g.irqMask ((r - 0x60) / 4)) ||| bit 31 ((g.swi.pre b.now).getLsbD ((r - 0x60) / 4))
  else if r < 0xD0 then bankRead g g.xb1 false (r - 0xA0)
  else if r < 0x100 then bankRead g g.xb2 true (r - 0xD0)
  else ctxRead b (ctxNo e (BitVec.ofNat 4 ((r - 0x100) / 0x30))) ((r - 0x100) % 0x30)
def engClear (e : EngId) (r : Nat) (b : Block) : Block := match r with
  | 0x10 => b.modEng e (fun g => { g with swapCnt := g.swapCnt.clear b.now })
  | 0x14 => b.modEng e (fun g => { g with csConf := g.csConf.clear b.now })
  | 0x24 => b.modEng e (fun g => { g with afxLate := g.afxLate.clear b.now })
  | _ => b

/-- A write of ENG_RESET: the resets fall due in the next tick (R418). -/
def writeEngReset (e : EngId) (d : Reg32) (b : Block) : Block :=
  let m : BitVec 16 := d.extractLsb' 0 16
  let b := if m = 0 then b else requestCtxReset e m b
  if d.getLsbD 16 then requestEngineReset e b else b

/-- Writes of the injection registers: from the Syntax core and the Debug Access Port (R275). CANCEL acts before GO. -/
def mayInject : Origin → Bool
  | .synCore | .dap => true
  | _ => false
def writeInjCtl (o : Origin) (e : EngId) (d : Reg32) (b : Block) : Block :=
  let b := b.modEng e (fun g => { g with
    injCtx := d.extractLsb' 0 4, injSys := d.getLsbD 4
    injDone := g.injDone.clearIf b.now (d.getLsbD 8), injErr := g.injErr.clearIf b.now (d.getLsbD 9) })
  let k : CtxId := d.extractLsb' 0 4
  let b := if d.getLsbD 6 then injectCancel e k b else b
  if d.getLsbD 5 then injectGo o e k (d.getLsbD 4) b else b
/-- Bits [32j + 31:32j] of a microword replaced. -/
def setWord32 (w : MWord) (j : Nat) (d : Reg32) : MWord :=
  (w &&& ~~~(((0xFFFFFFFF : BitVec 160)) <<< (32 * j))) ||| (d.setWidth 160 <<< (32 * j))

def engWrite (o : Origin) (e : EngId) (r : Nat) (d : Reg32) (b : Block) : Block :=
  if r < 0x28 then match r with
    | 0x00 => b.modEng e (fun g => { g with werr := g.werr.clearIf b.now (d.getLsbD 17) })
    | 0x04 => b.modEng e (fun g => { g with ctxEn := d.extractLsb' 0 16 })
    | 0x08 => writeEngReset e d b
    | 0x20 => if d.getLsbD 31 then b.modEng e (fun g => { g with lbBuf := [] }) else b
    | _ => b
  else if r < 0x3C then
    if mayInject o then
      b.modEng e (fun g => { g with injD := Map.mod 0 g.injD (orgKey o) (fun w => setWord32 w ((r - 0x28) / 4) d) })
    else b
  else if r = 0x3C then (if mayInject o then writeInjCtl o e d b else b)
  else if r < 0x60 then b.modEng e (fun g => { g with
    evSel := Map.set 0x03FF03FF g.evSel ((r - 0x40) / 4) (d &&& 0x03FF03FF) })
  else if r < 0xA0 then b.modEng e (fun g => { g with
    irqMask := Map.set 0 g.irqMask ((r - 0x60) / 4) (d.extractLsb' 0 24)
    swi := if d.getLsbD 31 then g.swi.set b.now (BitVec.ofNat 16 (2 ^ ((r - 0x60) / 4))) else g.swi })
  else if r < 0xD0 then bankWrite_ o e false (r - 0xA0) d b
  else if r < 0x100 then bankWrite_ o e true (r - 0xD0) d b
  else ctxWrite (ctxNo e (BitVec.ofNat 4 ((r - 0x100) / 0x30))) ((r - 0x100) % 0x30) d b

end Sys2Proof.Machine
end

