-- ==== Sys2Proof/Machine/Ports.lean ====
section
/-! DEFINITION. The register port: the address plan (R528..R533), what an access does for each origin (R9, R225, R437, R462,
R463, R479, R511..R513), the Tirnis window (R197, R388), and the commands that are register accesses. -/

namespace Sys2Proof.Machine
open Sys2Proof

/-! ### The address plan (R528..R530) -/

/-- The window of a register-port address. -/
def winOf (a : Nat) : Win :=
  if a < 0x10000 then .inst a
  else if a < 0x20000 then .imp (a - 0x10000)
  else if a < 0x30000 then .tir (a - 0x20000)
  else if a < 0x40000 then .syn (a - 0x30000)
  else if a < 0x44000 then .mbx (BitVec.ofNat 6 ((a - 0x40000) / 0x100)) (a % 0x100)
  else if a < 0x50000 then .none
  else if a < 0x60000 then .ring (BitVec.ofNat 12 ((a - 0x50000) / 0x10)) (a % 0x10)
  else if a < 0x70000 then .dma (BitVec.ofNat 8 ((a - 0x60000) / 0x100)) (a % 0x100)
  else if a < 0x80000 then .head (BitVec.ofNat 8 ((a - 0x70000) / 0x100)) (a % 0x100)
  else if a < 0x90000 then .fed (a - 0x80000)
  else if a < 0x98000 then .sec (BitVec.ofNat 3 ((a - 0x90000) / 0x1000)) (a % 0x1000)
  else if a < 0x100000 then .none
  else if a < 0x200000 then
    let c : CluId := BitVec.ofNat 6 ((a - 0x100000) / 0x4000)
    let off := a % 0x4000
    if off < 0x2000 then .clu c off else .eng (mkEng c (BitVec.ofNat 3 ((off - 0x2000) / 0x400))) (off % 0x400)
  else .none

/-- The cluster whose window it is. -/
def Win.cluster : Win → Option CluId
  | .clu c _ => some c
  | .eng e _ => some (cluOf e)
  | _ => Option.none

/-! ### The Tirnis window (R388) -/

/-- The native register behind an offset. -/
def tirAlias (r : Nat) : Win :=
  if r = 0x08 then .eng 0 0x100
  else if r = 0x0C then .eng 0 0x104
  else if r = 0x10 ∨ r = 0x14 then .inst (r + 0x10)
  else if 0x20 ≤ r ∧ r < 0x60 then .clu 0 (0x808 + 0x18 * ((r - 0x20) / 8) + r % 8)
  else if 0x60 ≤ r ∧ r < 0x80 then .clu 0 (0x800 + 0x18 * ((r - 0x60) / 4))
  else if 0x80 ≤ r ∧ r < 0xA0 then .clu 0 (0x804 + 0x18 * ((r - 0x80) / 4))
  else if 0xA0 ≤ r ∧ r < 0xAC then .clu 0 (0xC00 + (r - 0xA0))
  else if r = 0xB0 ∨ r = 0xB4 then .head 0 (r - 0xA4)
  else if r = 0xB8 then .head 0 0x14
  else .none
/-- The pair that a wide register's half belongs to, and whether it is the low half (R197). -/
def tirPair (r : Nat) : Option (Nat × Bool) :=
  if r = 0x10 ∨ r = 0x14 ∨ (0x20 ≤ r ∧ r < 0x60) ∨ r = 0xB0 ∨ r = 0xB4 then some (r / 8, r % 8 == 0) else Option.none

/-! ### Reads -/

/-- What a read of a native register returns. -/
def nativeRead (b : Block) (o : Origin) : Win → Reg32
  | .inst r => instRead b o r
  | .imp r =>
    if 0xC000 ≤ r then (if r < 0xE000 then plRead b (BitVec.ofNat 8 ((r - 0xC000) / 32)) (r % 32) else 0)
    else if r == 0x10 && (match o with
      | .synCore | .ctx .. => true
      | _ => false) then 0
    else impRead b (o == .ireg) r
  | .syn r => synRead b r
  | .mbx m r => mbxRead b o m r
  | .ring n r => ringRead b n r
  | .dma n r => dmaRead b n r
  | .head h r => headRead b (orgKey o) h r
  | .fed r => fedRead b o r
  | .sec s r => secRead b s r
  | .clu c r => cluRead b o c r
  | .eng e r => engRead b o e r
  | .tir _ | .none => 0

/-- The side effect of a read by an origin whose reads have one (R9, R444, R460). -/
def nativeClear (o : Origin) (w : Win) (b : Block) : Block := match w with
  | .inst r => instClear o r b
  | .imp r => (match o with
    | .ireg =>
      if r = 0x10 then (logPop true false b).1
      else if r = 0x14 then b.modImp (fun i => { i with lostI := i.lostI.clear b.now })
      else if r = 0x1C then b.modImp (fun i => { i with bites := i.bites.clear b.now }) else b
    | .hreg | .dap =>
      if r = 0x10 then (logPop false false b).1
      else if r = 0x14 then b.modImp (fun i => { i with lostH := i.lostH.clear b.now }) else b
    | _ => b)
  | .syn r => synClear r b
  | .dma n r => dmaClear n r b
  | .fed r => fedClear o r b
  | .sec s r => secClear s r b
  | .clu c r => cluClear c r b
  | .eng e r => engClear e r b
  | _ => b

/-- A write of a native register. -/
def nativeWrite (o : Origin) (w : Win) (d : Reg32) (b : Block) : Block := match w with
  | .inst r => instWrite o r d b
  | .imp r =>
    if o ≠ .ireg then b
    else if 0xC000 ≤ r then (if r < 0xE000 then plWrite (BitVec.ofNat 8 ((r - 0xC000) / 32)) (r % 32) d b else b)
    else impWrite r d b
  | .syn r => synWrite o r d b
  | .mbx m r => mbxWrite o m r d b
  | .ring n r => ringWriteReg n r d b
  | .dma n r => dmaWrite o n r d b
  | .head h r => headStore o h (headWrite (orgKey o) h r d) b
  | .fed r => fedWrite o r d b
  | .sec s r => secWrite s r d b
  | .clu c r => cluWrite o c r d b
  | .eng e r => engWrite o e r d b
  | .tir _ | .none => b

/-! ### Closed windows (R27, R513, R533) -/

/-- The block is in block reset or a warm WAKE. -/
def inWarm (b : Block) : Bool := b.sup.inReset || (b.mode == .wake && b.sup.before.isSome)

/-- The part that an access of a window by an origin is directed at (R27, R533): of a timer's registers, and of TMR_WHI, the timer that
they name; of an engine's debug registers, the engine; no part for the Imperative partition's registers. -/
def winPart (b : Block) (o : Origin) : Win → Option Piece
  | .clu c r => some (
      if 0x800 ≤ r ∧ r < 0xBC0 then partTimer c ((r - 0x800) / 0x18)
      else if r = 0xBC8 then
        let x := ((Map.get 0 (b.clu c).wsel (orgKey o)).extractLsb' 0 6).toNat
        if x < 40 then partTimer c x else partClu c
      else if 0x1000 ≤ r ∧ r < 0x1200 then partEng (mkEng c (BitVec.ofNat 3 ((r - 0x1000) / 0x40)))
      else partClu c)
  | .eng e r => some (if 0x100 ≤ r ∧ r < 0x400 then partCtx (ctxNo e (BitVec.ofNat 4 ((r - 0x100) / 0x30))) else partEng e)
  | .dma n _ => some (partDma n)
  | .sec s r => if 0x400 ≤ r then some (partRgn s) else Option.none
  | .imp _ | .inst _ => Option.none
  | _ => some partSpine

/-- The Syntax core's own path reaches the control-store registers (R533). -/
def ownPath (o : Origin) : Win → Bool
  | .clu _ r => o == .synCore && decide (0x400 ≤ r ∧ r < 0x800)
  | _ => false

/-- A window reads 0 and discards writes: of a fenced section, but for the Syntax core, which R533 does not name; of its region entries while it is unpowered, of a part that
was reset or fenced in this tick; and every window but INST_ and IMP_ during a block reset. The Syntax core keeps its own
path to the control stores. -/
def shut (b : Block) (o : Origin) (w : Win) : Bool :=
  !(ownPath o w) && ((match w with
   | .inst _ | .imp _ => false
   | .clu c _ => o != .synCore && b.fenced (cluSec c)
   | .eng e _ => o != .synCore && b.fenced (secOf e)
   | .dma n _ => o != .synCore && b.fenced (dmaSec n)
   | .sec s r => decide (0x400 ≤ r) && !(b.sec s).powered
   | _ => false) ||
    (match winPart b o w with
     | some p => b.isGone p
     | none => false)) ||
  (inWarm b && o != .synCore && (match w with
   | .inst _ | .imp _ => false
   | _ => true))

/-- IREG reaches IMP_ only. -/
def Origin.reaches : Origin → Win → Bool
  | .ireg, .imp _ => true
  | .ireg, _ => false
  | _, _ => true

/-! ### Accesses -/

/-- A GO or a STEP for an engine that was reset in this tick is discarded, and sets ENG_INJ_CTL.ERR (R482). -/
def lateGo (w : Win) (a : Acc32) (b : Block) : Block :=
  let err (e : EngId) : Block := if b.isGone (partEng e) ∧ !(b.fenced (secOf e)) then
      b.modEng e (fun g => { g with injErr := g.injErr.set b.now }) else b
  match w, a with
  | .eng e 0x3C, .write d => if d.getLsbD 5 then err e else b
  | .clu c r, .write d =>
    if 0x1000 ≤ r ∧ r < 0x1200 ∧ r % 0x40 = 4 ∧ d.getLsbD 2 then err (mkEng c (BitVec.ofNat 3 ((r - 0x1000) / 0x40))) else b
  | _, _ => b

/-- A native access: its effect and what it returns; `peek` reads without side effect (R479). -/
def nativeAccess (o : Origin) (peek : Bool) (w : Win) (a : Acc32) (b : Block) : Block × Reg32 :=
  if shut b o w then (if o = .dap ∨ o = .synCore then lateGo w a b else b, 0)
  else match a with
    | .read => (if peek then b else nativeClear o w b, nativeRead b o w)
    | .write d => (nativeWrite o w d b, 0)

/-- An access through the Tirnis window: TIR_ID, bit 0 of ENG_CTX_EN of engine 0, or the native register, with the holding
register of R197. -/
def tirAccess (o : Origin) (peek : Bool) (r : Nat) (a : Acc32) (b : Block) : Block × Reg32 :=
  if !(b.syn.cfg.getLsbD 6) || shut b o (.tir r) then (b, 0)
  else if r = 0 then (b, if a = .read then 0x5449524E else 0)
  else if r = 4 then
    if shut b o (.eng 0 4) then (b, 0)
    else match a with
      | .read => (b, bit 0 ((b.eng 0).ctxEn.getLsbD 0))
      | .write d => (b.modEng 0 (fun g => { g with ctxEn := putBit g.ctxEn 0 (d.getLsbD 0) }), 0)
  else
    let x := nativeAccess o peek (tirAlias r) a b
    match a, tirPair r with
    | .read, some (p, true) =>
      (if peek then x.1 else x.1.modOrg (orgKey o) (fun q => { q with
        tirPair := some p, tirHi := (nativeAccess o true (tirAlias (r + 4)) .read b).2 }), x.2)
    | .read, some (p, false) =>
      let q := b.orgRegs (orgKey o)
      (x.1, if q.tirPair = some p then q.tirHi else x.2)
    | _, _ => x

/-- The cluster of the register that an access reaches. -/
def reached_ (b : Block) (w : Win) : Option CluId := match w with
  | .tir r => if !(b.syn.cfg.getLsbD 6) then Option.none else if r = 4 then some 0 else (tirAlias r).cluster
  | w => w.cluster

/-- An access lands: a sleeping cluster is woken first, and the access waits for it (R432, R512). None: it has not landed; a context's
then waits under its tag, another in `held`. -/
def land (o : Origin) (peek : Bool) (w : Win) (a : Acc32) (b : Block) : Block × Option Reg32 :=
  let awake (b : Block) : Block × Option Reg32 :=
    let x := match w with
      | .tir r => tirAccess o peek r a b
      | w => nativeAccess o peek w a b
    (x.1, some x.2)
  match reached_ b w with
  | some c =>
    if shut b o w || shut b o (.clu c 0) then awake b
    else
      let b := trigger c b
      if (b.clu c).asleep then (b, Option.none) else awake b
  | Option.none => awake b

/-! ### Ports (R511..R513) -/

/-- The answer of a port: data and STATUS. -/
def answerPort (o : Origin) (v : Reg32) (err : Bool) (b : Block) : Block :=
  { b with rsp := Map.set Option.none b.rsp (orgKey o) (some (v, err)) }

/-- Accesses of a port that it has not answered. -/
def outstanding (b : Block) (o : Origin) : Nat :=
  (b.held.filter (fun x => x.org == o)).length + (if o = .dap ∧ b.dbg.bus.isSome then 1 else 0)
/-- The port takes no further request: 4 on HREG, 1 on IREG, 8 on the Debug Access Port (R512). -/
def portFull (b : Block) : Origin → Bool
  | .hreg => decide (4 ≤ outstanding b .hreg)
  | .ireg => decide (1 ≤ outstanding b .ireg)
  | .dap => decide (8 ≤ outstanding b .dap)
  | _ => false
/-- The access waits at its port. -/
def holdAcc (x : HeldAcc) (b : Block) : Block := if portFull b x.org then b else { b with held := b.held ++ [x] }

/-- An access is answered as it lands; one that finds its cluster asleep is held until the cluster is awake (R432). -/
def landAnswer (o : Origin) (peek : Bool) (w : Win) (a : Acc32) (b : Block) : Block :=
  let x := land o peek w a b
  match x.2 with
  | some v => answerPort o v false x.1
  | Option.none => holdAcc { org := o, bad := false, win := w, acc := a } x.1

/-- An access of the Debug Access Port: DENIED without the fuse; DBG_MDATA answers when its memory access ends; reads are peeks
unless DBG_CTL.SIDE (R462, R463, R477, R479). -/
def dapAccess (w : Win) (a : Acc32) (b : Block) : Block :=
  if !b.dbg.fuseEn then answerPort .dap 0 true b
  else if w = .inst 0xA10 then (match a with
    | .read => busStart false 0 b
    | .write d => busStart true d b)
  else landAnswer .dap (!b.dbg.side) w a b

/-- The access is its port's first; a misaligned one is answered with STATUS 1 and has no effect (R512). -/
def firstAccess (x : HeldAcc) (b : Block) : Block :=
  if x.bad then answerPort x.org 0 true b
  else match x.org with
    | .dap => dapAccess x.win x.acc b
    | .ireg => if Origin.reaches .ireg x.win then landAnswer .ireg false x.win x.acc b else b
    | o => landAnswer o false x.win x.acc b

/-- An access of a port: a port's accesses land in the order in which they came, each behind those that wait (R462, R512). -/
def portRequest (x : HeldAcc) (b : Block) : Block :=
  if b.mode = .off then b
  else if outstanding b x.org = 0 then firstAccess x b
  else holdAcc x b

/-- The accesses that wait at their ports land, in their order, as the tick in which they can ends: the rows of that tick come first
(DESIGN CHOICE, log entry 58). -/
def landHeld (b : Block) : Block := b.held.foldl (fun b x => portRequest x b) { b with held := [] }

/-! ### Register-window accesses of contexts (R225) -/

/-- The window that a pending access names. -/
def Pend.win (p : Pend) : Win := winOf (p.ea.toNat - 0x80000000)
/-- The access that it makes. -/
def Pend.acc (p : Pend) : Option Acc32 := match p.kind with
  | .window true => some (.write (p.data.extractLsb' 0 32))
  | .window false => some .read
  | _ => Option.none

/-- The tick in which a context's access takes effect, as its events are stamped: that of an AT word's SWEV is the word's target
(R23, R219). -/
def stampedAs (p : Pend) (f : Block → Block × Option Reg32) (b : Block) : Block × Option Reg32 :=
  match p.target, p.win with
  | some t, .inst 0x38 =>
    let x := f { b with tick := t.1, now := t.2 }
    ({ x.1 with tick := b.tick, now := b.now }, x.2)
  | _, _ => f b

/-- A pending window access is performed: a load writes DST, and the tag is freed. -/
def performWindow (e : EngId) (t : BitVec 5) (p : Pend) (a : Acc32) (b : Block) : Block :=
  let n := ctxNo e p.k
  let x := stampedAs p (land (.ctx e p.k) false p.win a) b
  match x.2 with
  | some v =>
    let b := x.1.modEng e (fun g => g.setTag t Option.none)
    settle n (if a = .read then b.modFile n p.lvl (fun c => writeDst p.priv c p.dst (v.setWidth 48)) else b)
  | Option.none => x.1

/-- A context's access of a window: the one that it has issued first and that waits. -/
def ctxAccess (e : EngId) (k : CtxId) (w : Win) (a : Acc32) (b : Block) : Block :=
  match firstWindow (b.eng e) k with
  | some (t, p) => if p.win = w ∧ p.acc = some a then performWindow e t p a b else b
  | Option.none => b

/-- A register access by an origin. -/
def portAccess (o : Origin) (w : Win) (a : Acc32) (b : Block) : Block := match o with
  | .ctx e k => if b.mode = .off then b else ctxAccess e k w a b
  | o => portRequest { org := o, bad := false, win := w, acc := a } b

/-- The window of an address as an origin's port gives it: IREG's is the IMP_ offset (R532). -/
def portWin (o : Origin) (addr : BitVec 24) : Win :=
  if o = .ireg then (if addr.toNat < 0x10000 then .imp addr.toNat else .none) else winOf addr.toNat

/-- An access by address; a misaligned one has no effect (R512). -/
def addrAccess (o : Origin) (addr : BitVec 24) (a : Acc32) (b : Block) : Block :=
  if addr.extractLsb' 0 2 = 0 then portAccess o (portWin o addr) a b
  else match o with
    | .ctx .. => b
    | o => portRequest { org := o, bad := true, win := .none, acc := a } b

/-! ### Responses of memory requests (R36, R38, R108) -/

/-- A response of the register window completes the request of a tag, where it is the context's first. -/
def windowResponse (e : EngId) (t : BitVec 5) (write : Bool) (b : Block) : Block :=
  match (b.eng e).tag t with
  | some p =>
    if p.kind = .window write then
      (if (firstWindow (b.eng e) p.k).map (fun x => x.1) = some t then
        performWindow e t p (if write then .write (p.data.extractLsb' 0 32) else .read) b else b)
    else b
  | Option.none => b
/-- The tag's request is one of the register window. -/
def tagWindow (b : Block) (e : EngId) (t : BitVec 5) : Bool := match (b.eng e).tag t with
  | some p => p.acc.isSome
  | Option.none => false
def opLoadResponse (e : EngId) (t : BitVec 5) (ecc : Ecc) (b : Block) : Block :=
  if tagWindow b e t then windowResponse e t false b else opMemoryLoadResult e t ecc b
def opStoreResponse (e : EngId) (t : BitVec 5) (ecc : Ecc) (b : Block) : Block :=
  if tagWindow b e t then windowResponse e t true b else opStoreAccepted e t ecc b

/-! ### Offsets -/

/-- The timer and engine-debug registers of a cluster window, and the protected registers of a head. -/
def tmrOff (x : BitVec 6) : Nat := if x.toNat < 40 then 0x800 + 0x18 * x.toNat else 0x2000
def engDbg (e : EngId) (r : Nat) : Win := .clu (cluOf e) (0x1000 + 0x40 * (engIn e).toNat + r)
def plWin (h : HeadNo) (r : Nat) : Win := .imp (0xC000 + 32 * h.toNat + r)
def lqWin (c : CluId) (lq : BitVec 4) : Win := .clu c (0xC20 + 4 * lq.toNat)

end Sys2Proof.Machine
end

