-- ==== Sys2Proof/Machine/Clock.lean ====
section
/-! DEFINITION. The tick that passes while no command waits (R20, R192, R194, R368, R391, R432, R480). -/

namespace Sys2Proof.Machine

/-- The discipline at the edge (R368, R370): the last exchange's correction reaches the phase, and whole ticks of it TICK_NOW; in
holdover the last rate term goes on, every 1,024 ticks as between exchanges (DESIGN CHOICE, log entry 98). -/
def discipline (b : Block) : Block :=
  let d := b.fed
  let again := holdover d && decide (d.rateAt + 1024 ≤ b.now)
  let tot : Int := (d.phase.toNat : Int) + d.corr + (if again then d.rate else 0)
  { b with fed := { d with
    corr := 0, phase := BitVec.ofInt 4 tot, adjust := d.adjust + tot / 16, rateAt := if again then b.now else d.rateAt } }

/-- TICK_NOW after the edge: a step that TIME_SET or a join has loaded; a value skipped or held by the discipline; else
the next value. -/
def nextTick (b : Block) : Tick :=
  match b.fed.load with
  | some t => t
  | none => if 0 < b.fed.adjust then b.tick + 2 else if b.fed.adjust < 0 then b.tick else b.tick + 1

/-- A multiple of 10^9 that is skipped raises TICKSEC at the next value; a value that is held raises it once (R219). -/
def tickFabric (b : Block) : Fabric :=
  if b.fed.load.isSome then b.fab
  else if 0 < b.fed.adjust ∧ (b.tick + 1).toNat % 1000000000 = 0 then { b.fab with ticksecSkip := true }
  else if b.fed.adjust < 0 ∧ b.fab.ticksecAt = some b.now then { b.fab with ticksecAt := some (b.now + 1) }
  else b.fab

/-- The corrections left after the edge. -/
def leftAdjust (b : Block) : Int :=
  if b.fed.load.isSome then b.fed.adjust
  else if 0 < b.fed.adjust then b.fed.adjust - 1 else if b.fed.adjust < 0 then b.fed.adjust + 1 else 0

/-- What the block keeps by itself at the edge: the restart of a failed Syntax core, a command that it does not know, the
idle time of the clusters, and whether perturbation is in force. -/
def tickUpkeep (b : Block) : Block :=
  let b := noteIdle (badOpc (restartFailed b))
  { b with dbg := { b.dbg with pActive := perturbOn b } }

/-- Every event whose stamp lies 6 ticks back reaches its latches before the tick ends (R22). -/
def deliverDue (b : Block) : Block :=
  (b.fab.queue.filter (fun x => decide (x.at_ + 6 ≤ b.now))).foldl (fun b _ => opConditionEvent b) b

/-- The edge itself: the counters of time. In the first tick after a GOAT write it is known whether INST_GO_TICK is past
(R212). -/
def edge (b : Block) : Block :=
  let b := discipline b
  let t := nextTick b
  let f := { tickFabric b with skipped := b.fed.load.isNone && decide (0 < b.fed.adjust) }
  { b with
    now := b.now + 1, gone := [], touched := [], tick := t
    fab := { f with
      era := if b.fed.load.isSome then f.era + 1 else f.era
      goatLate :=
      if f.goatAt = some b.now then reached t f.goTick && !(t == f.goTick || (f.skipped && t == f.goTick + 1)) else f.goatLate }
    fed := { b.fed with adjust := leftAdjust b, load := none } }

/-- What the present tick still holds as it ends: counts are corrected (R207), held accesses land, events are delivered, and clusters fall asleep. -/
def endTick (b : Block) : Block := sleepDue (deliverDue (landHeld (rangeCorrections b)))

/-- One rising edge of CLK_FAB: TICK_NOW counts in every mode except OFF. What the writes of the tick before have asked for
follows the edge (R222). -/
def tick (b : Block) : Block :=
  if b.mode = .off then b else tickUpkeep (driveTo (edge (endTick b)))

/-- The step on an empty queue: the tick ends. -/
def idleTick (s : State) : State := { s with turn := 0, blk := tick s.blk }

end Sys2Proof.Machine
end

