-- ==== Sys2Proof/Machine/Swaps.lean ====
section
/-! DEFINITION. Channel movement: PARK, spill, fill and swap (R59..R64, R243). -/

namespace Sys2Proof.Machine
open Sys2Proof

/-- A PARK may begin its spill: nothing of the context is pending, and no exception or injected word comes first (R61). -/
def parkReady (b : Block) (n : CtxNo) : Bool :=
  let e := engOf n
  let g := b.eng e
  let c := b.ctx n
  engineLive b e && !(haltPending b n) && (takeable b n).isNone && c.inj.isNone && c.muls.isEmpty &&
  (g.pends (ctxOf n)).isEmpty && !(g.dividing (ctxOf n)) && c.mchk.isNone && !c.excWait

/-- The next ready channel of an engine whose context `k` may take it. -/
def nextReady (g : Eng) (k : CtxId) : Option Chan := if g.ctxEn.getLsbD k.toNat then g.ready else none

/-- PARK_SPILL_START: the owner's reservation ends, and the context is in SWAP, with the incoming channel where one waits. -/
def opParkSpillStart (n : CtxNo) (b : Block) : Block :=
  match (b.ctx n).act, (b.ctx n).chan with
  | .park wakeAt wake, some ch =>
    if parkReady b n then
      let e := engOf n
      let inc := nextReady (b.eng e) (ctxOf n)
      let b := if inc.isSome then b.modEng e Eng.popReady else b
      let b := { b with leases := b.leases.filter (fun l => l.owner != n) }
      b.modCtx n (fun c => { c with upc := c.upc + 1, act := .swap (some (ch, wakeAt, wake)) inc })
    else b
  | _, _ => b

/-- CHANNEL_FILL_START: a free enabled context takes the next ready channel. -/
def opChannelFillStart (n : CtxNo) (b : Block) : Block :=
  let e := engOf n
  let c := b.ctx n
  if engineLive b e && c.chan.isNone && c.act == .idle && !(b.eng e).dbg.haltReq && !(b.eng e).halted then
    match nextReady (b.eng e) (ctxOf n) with
    | some ch => (b.modEng e Eng.popReady).modCtx n (fun c => { c with act := .swap none (some ch) })
    | none => b
  else b

/-- A spill or fill of the state block at `a`, of which it reads the bytes `x` to `x + n - 1`, meets a fenced section's bank
or an uncorrectable line (R243). -/
def csbFails (b : Block) (a x n : Nat) : Bool := inFenced b a 256 || poisoned b x n

/-- The reads of the transfer meet an error, unless its bank is out of service. -/
def csbRead (a x n : Nat) (ecc : Ecc) (b : Block) : Block := if inFenced b a 256 then b else eccAt (linesOf x n) ecc b

/-- The spill, or the fill, that ends here is lost: it resets its context. -/
def spillLost (n : CtxNo) (ecc : Ecc) (b : Block) : Bool := match (b.ctx n).act with
  | .swap (some (ch, _)) _ => let a := csbAddr b ch; csbFails (csbRead a (a + 8) 8 ecc b) a (a + 8) 8
  | _ => false
def fillLost (n : CtxNo) (ecc : Ecc) (b : Block) : Bool := match (b.ctx n).act with
  | .swap none (some ch) => let a := csbAddr b ch; csbFails (csbRead a a 256 ecc b) a a 256
  | _ => false

/-- One more swap (R74). -/
def countSwap (e : EngId) (b : Block) : Block := b.modEng e (fun g => { g with swapCnt := g.swapCnt.count b.now 1 })

/-- CHANNEL_SPILL_END: the state block is written with GEN advanced, latches 40..47 go to the event table, and the wake
conditions are tested. Then the incoming channel is filled, or the context is free, and a word injected meanwhile finds no
channel. The write covers every line whole; the line of GEN is read first (DEDUCED, log entry 90). The outgoing channel is
the context's until here, in CTX_STATE.CHAN and in RESIDENT, and none is during the fill (the spec does not say: the model's
choice, log entry 91). -/
def opChannelSpillEnd (n : CtxNo) (ecc : Ecc) (b : Block) : Block :=
  match (b.ctx n).act with
  | .swap (some (ch, wakeAt, wake)) inc =>
    let e := engOf n
    let a := csbAddr b ch
    let b := csbRead a (a + 8) 8 ecc b
    if csbFails b a (a + 8) 8 then (resetCtx 1 n b).cut (partCtx n)
    else
      let c := b.ctx n
      let gen := readByte b (a + 0x0B) + 1
      let b := bankWrite n a (csbBytes ch c wake wakeAt true gen) b
      let b := setEntry ch (c.latch.on.extractLsb' 0 8 ||| chEntry b ch) b
      let b := match inc with
        | some i => b.setCtx n { act := .swap none (some i), halt := c.halt, inj := c.inj }
        | none => countSwap e ((b.setCtx n {}).modEng e (fun g => { g with injErr := g.injErr.setIf b.now c.inj.isSome }))
      if wakes b ch then joinReady ch b else b
  | _ => b

/-- CHANNEL_FILL_END: the context takes the channel's state; latches 40..47 come from the event table. -/
def opChannelFillEnd (n : CtxNo) (ecc : Ecc) (b : Block) : Block :=
  match (b.ctx n).act with
  | .swap none (some ch) =>
    let a := csbAddr b ch
    let b := csbRead a a 256 ecc b
    if csbFails b a a 256 then (resetCtx 1 n b).cut (partCtx n)
    else
      let c := { csbCtx (readBytes b a 256) (b.ctx n) with chan := some ch, latch := { old := (chEntry b ch).setWidth 24 } }
      countSwap (engOf n) (setEntry ch 0 (b.setCtx n c))
  | _ => b

end Sys2Proof.Machine
end

