-- ==== Sys2Proof/Machine/Tap.lean ====
section
/-! DEFINITION. The test access port (R464): its instruction register, its data registers and the boundary cells. -/

namespace Sys2Proof.Machine
open Sys2Proof

/-- An instruction that only TEST allows; elsewhere it acts as BYPASS. -/
def testOnly (b : Block) (i : TapIr) : TapIr := if b.mode = .test then i else .bypass

/-- The instruction register is loaded, and the data register that it selects is captured. -/
def loadIr (i : TapIr) (dr : Reg32) (b : Block) : Block := { b with dbg := { b.dbg with tap := i, tapDr := dr } }

/-- The identification code: version, part number, the fuses' manufacturer code, and a 1. -/
def idcodeWord (b : Block) : Reg32 := 0x35052001 ||| fld 1 b.dbg.mfr

/-- LGnn_OE of a cluster as its pins carry it: HIGHZ in TEST drives it low. -/
def laneOe (b : Block) (c : CluId) : BitVec 16 :=
  if b.mode = .test ∧ b.dbg.tap = .highz then 0 else (b.clu c).lanes.oen

/-- The boundary cells: O and OE of each cluster, then I of each cluster, EVT_IN, EVT_OUT, HIRQ and FAULT_OUT_N. -/
def sampleCells (b : Block) : List Reg32 :=
  (allClus.map (fun c => fld 0 (b.clu c).lanes.out ||| fld 16 (laneOe b c))) ++
  (allClus.map (fun c => fld 0 (b.clu c).lanes.levels)) ++
  [b.fab.evtIn, b.fab.pins, fld 0 (hirqLine b), bit 0 (!(pinLow b))]

/-- The cells are sampled, and the instruction selects them. -/
def boundary (i : TapIr) (b : Block) : Block :=
  loadIr i 0 (if i = .bypass then b else { b with dbg := { b.dbg with cells := sampleCells b } })

end Sys2Proof.Machine
end

