-- ==== Sys2Proof/Machine/Turn.lean ====
section
/-! DEFINITION. The order of the effects of one tick (R24, R25, R27, R28, R249, R419). Each command that R24 gives a rank has a
place in that order. A command whose place lies before that of an effect which the present tick has already seen belongs to
the next tick: the tick passes, and the command acts in it (log entry 1). -/

namespace Sys2Proof.Machine
open Sys2Proof

/-- A command's place in the order of its tick, and the part that it is directed at. -/
structure Turn where
  /-- rank, origin and unit as one number; none where R24 gives no rank -/
  place : Option Nat := none
  /-- the part that a command other than a register access is directed at (R27) -/
  part : Option Piece := none
  /-- an input that is sampled once in a tick (R220, R257): a second edge of it is the next tick's -/
  once : Bool := false
  /-- a reset, which only a wider one of the same tick discards (R419) -/
  isReset : Bool := false
  /-- the island of the spine, the memory, the Syntax core, the Imperative partition or a conjunction port that acts: while a
  retraining pauses it, the command waits (R374) -/
  isl : Option Nat := none
  deriving DecidableEq, Repr

/-- The number of a place: its rank, its origin's order (R28), and its unit's number within the origin. -/
def place (rank origin unit : Nat) : Nat := rank * 2 ^ 40 + origin * 2 ^ 32 + unit

/-- An effect of a rank, an origin and a unit. -/
def Turn.at (rank origin unit : Nat) (part : Option Piece) : Turn := { place := some (Machine.place rank origin unit), part := part }
/-- A command that R24 does not rank. -/
def Turn.free (part : Option Piece) : Turn := { part := part }
/-- The command acts in an island. -/
def Turn.inIsl (t : Turn) (i : Nat) : Turn := { t with isl := some i }
/-- A rank 1 event of a kind (R419), and a reset of a part. -/
def Turn.rank1 (kind unit : Nat) : Turn := { place := some (Machine.place 1 kind unit) }
def Turn.reset (kind unit : Nat) (p : Piece) : Turn :=
  { place := some (Machine.place 1 kind unit), part := some p, isReset := true }
/-- A rank 1 event of a section: its SEC_PWR_ACK, sampled once per tick (R413), and then its fence, unfence or reset. -/
def Turn.ack (s : SecId) : Turn := { place := some (Machine.place 1 3 (2 * s.toNat)), once := true }
def Turn.section (s : SecId) : Turn := .rank1 3 (2 * s.toNat + 1)
/-- An edge of an external input. -/
def Turn.sample (unit : Nat) (part : Option Piece) : Turn :=
  { place := some (Machine.place 7 8 unit), part := part, once := true }
/-- A fault detection of a source: its origin is that of R534, and its unit the source ID (R28). -/
def Turn.fault (src : Nat) (part : Option Piece) : Turn := .at 3 (srcOrigin (BitVec.ofNat 11 src)) src part

/-! ### Units of the spine (R28) -/

/-- Of the Tense unit at rank 4: a kind, and a number within it. The ends of a pause or a sleep come first, then the GO release,
then the timers in ascending number, each with its step before its compare; then joins at WAKEAT, leases, and TICKSEC. The
spec orders units of one kind only; the order among the kinds is the model's choice (log entry 96). -/
def Turn.tense (kind num : Nat) (part : Option Piece) : Turn := .at 4 5 (kind * 2 ^ 24 + num) part
/-- A step, or a compare, of timer x of a cluster; an engine's own timer is a part of the engine (R418). -/
def timerNo (c : CluId) (x : BitVec 6) : Nat := 64 * c.toNat + x.toNat
def Turn.timer (c : CluId) (x : BitVec 6) (compare : Bool) : Turn :=
  .tense 2 (2 * timerNo c x + (if compare then 1 else 0)) (some (partTimer c x.toNat))
/-- The Concord unit, and behind it the ring front end, which acts on one ring at a time. -/
def Turn.concord : Turn := .at 5 5 (2 * 2 ^ 24) (some partSpine)
def Turn.ringEnd : Turn := .at 5 5 (3 * 2 ^ 24) (some partSpine)
/-- The Concord unit queues a replayed item behind the ends of sets of the tick (R337, R345). -/
def Turn.requeue : Turn := .at 5 6 (2 ^ 16) (some partSpine)
/-- A command of the Syntax core. -/
def Turn.syntaxRow : Turn := { place := some (Machine.place 10 2 0), part := some partSpine, isl := some 66 }
/-- DMA channel n, a memory-island unit. -/
def Turn.dma (n : BitVec 8) : Turn := (Turn.at 5 6 n.toNat (some (partDma n))).inIsl 64
/-- A microword's effects on shared state, and those on the context alone (R29). -/
def Turn.shared (n : CtxNo) : Turn := { place := some (Machine.place 11 9 n.toNat), part := some (partCtx n) }
def Turn.own (n : CtxNo) : Turn := { part := some (partCtx n) }
def Turn.ofWord (n : CtxNo) (shared : Bool) : Turn := if shared then .shared n else .own n

/-! ### Register accesses -/

/-- The origins in the order of R28. -/
def orgOrder : Origin → Nat
  | .ireg => 1
  | .synCore => 2
  | .hreg => 3
  | .dap => 4
  | .ctx _ _ => 9
def orgUnit : Origin → Nat
  | .ctx e k => (ctxNo e k).toNat
  | _ => 0

/-- The rank of a register access: doorbells 9, a ring's whatever its origin (R316), and SYN_DB with the mailboxes' (R385); the
protected-layer write, of IMP_PL_DATA_HI, 2 (R495); a kick of watchdogs (R452) and a microword's 11; others 10. -/
def portRank (o : Origin) (wr : Bool) : Win → Nat
  | .ring _ 0 => if wr then 9 else if orgOrder o = 9 then 11 else 10
  | .mbx _ 0x80 | .syn 0x0C => if orgOrder o = 9 then 11 else if wr then 9 else 10
  | .clu _ 0x10 => if wr ∨ orgOrder o = 9 then 11 else 10
  | .imp r => if o = .ireg ∧ 0xC000 ≤ r ∧ r < 0xE000 ∧ r % 32 = 0x0C ∧ wr then 2 else if orgOrder o = 9 then 11 else 10
  | _ => if orgOrder o = 9 then 11 else 10
/-- The island that a window's registers lie in, where it is none of a cluster (R374). -/
def Win.island : Win → Option Nat
  | .imp _ => some 67
  | .syn _ | .mbx .. => some 66
  | .dma .. | .sec .. => some 64
  | .inst _ | .tir _ | .ring .. | .head .. | .fed _ => some 65
  | .clu .. | .eng .. | .none => Option.none
/-- A register access; one directed at a part that is gone is discarded by the port itself (`shut`). -/
def portTurn (o : Origin) (wr : Bool) (w : Win) (_ : Block) : Turn :=
  { place := some (place (portRank o wr w) (orgOrder o) (orgUnit o)), isl := w.island }

/-! ### Microwords and memory requests -/

/-- The word acts on shared state in its W stage: a lane operation, an Affix issue, a SYNC arrival, a clear of latches, a
compare of an engine timer. -/
def sharedWord (w : MWord) : Bool :=
  w.laneop != 0 || w.isAfx || w.seq == 12 || w.xfer == 2 || decide (0x14 ≤ w.xfer.toNat ∧ w.xfer.toNat ≤ 0x17)

/-- A reservation covers some of the bytes (R249). -/
def reserved (b : Block) (a n : Nat) : Bool := b.leases.any (fun l => l.touches a n)

/-- A row that issues the next word of a context. -/
def wordTurn (n : CtxNo) (b : Block) : Turn := .ofWord n (sharedWord (fetchW b n))

/-- An injected word. -/
def injTurn (n : CtxNo) (b : Block) : Turn := .ofWord n (match (b.ctx n).inj with
  | some x => sharedWord x.w
  | none => false)

/-- A request is answered: an access of the register window (R225), a lock or reservation operation, or an access of a word under
reservation. -/
def requestTurn (e : EngId) (t : BitVec 5) (b : Block) : Turn := match (b.eng e).tag t with
  | some p => .ofWord (ctxNo e p.k) (match p.kind with
    | .mem op => decide (0x18 ≤ op.toNat ∧ op.toNat ≤ 0x1A) || reserved b p.ea.toNat (opSize op)
    | .window _ => true
    | _ => false)
  | none => .free (some (partEng e))

/-- A step of a long memory operation, or a frame, which touches a word under reservation. -/
def stepTurn (n : CtxNo) (b : Block) : Turn := .ofWord n (match (b.ctx n).act with
  | .longStep s =>
    let done := progDone (progress s.lvl (b.file n s.lvl))
    reserved b (s.a.toNat + done) 256 || reserved b (s.ea.toNat + done) 256
  | .call s => reserved b (frameAddr b n s.lvl s.ssp.toNat).toNat 128
  | .ret s => reserved b (frameAddr b n s.lvl (s.ssp.toNat - 1)).toNat 128
  | _ => false)

/-- The end of a spill or fill: its context's reset where the state block is lost (R243), else in the order of R249 where it touches a
word under reservation. -/
def spillTurn (n : CtxNo) (ecc : Ecc) (b : Block) : Turn :=
  if spillLost n ecc b then .reset 6 n.toNat (partCtx n)
  else .ofWord n (match (b.ctx n).act with
    | .swap (some (ch, _)) _ => reserved b (csbAddr b ch) 256
    | _ => false)
def fillTurn (n : CtxNo) (ecc : Ecc) (b : Block) : Turn :=
  if fillLost n ecc b then .reset 6 n.toNat (partCtx n)
  else .ofWord n (match (b.ctx n).act with
    | .swap none (some ch) => reserved b (csbAddr b ch) 256
    | _ => false)

/-- A DMA channel's row reads: an effect of the channel where they fail (R304), or touch a word under reservation (R248, R249). -/
def localTurn (n : BitVec 8) (i : Nat) (ecc : Ecc) (b : Block) : Turn :=
  if localFails n i ecc b || reserved b (beatSrc (b.chan n) i) (beatLen (b.chan n) i) then .dma n
  else (Turn.free (some (partDma n))).inIsl 64
/-- The next beat: a skip may complete the transfer, and a mismatch fails it (R296, R304). -/
def issueTurn (n : BitVec 8) (b : Block) : Turn := match ledgered b n with
  | .skip | .mismatch => .dma n
  | _ => (Turn.free (some (partDma n))).inIsl 64
/-- A host port's answer has no rank of its own: its effect's rank is that of the unit that asked (R515). -/
def answerTurn (p : Bool) (q : Option HostReq) : Turn := match q with
  | some x => (match x.user with
    | .dma n _ => .dma n
    | .desc .. => Turn.ringEnd.inIsl 65
    | .head .. | .compl .. | .refetch .. => Turn.concord.inIsl 65
    | .orphan => .free (some partSpine))
  | none => .fault (0x560 + p.toNat) (some partSpine)
def busTurn (b : Block) : Turn := match b.dbg.bus with
  | some x => if reserved b x.addr.toNat x.size then .at 10 4 0 none else .free none
  | none => .free none

/-- An exchange that enters the alarm is a detection (R382); another is an arrival at its port. -/
def trespTurn (p : BitVec 2) (f : Flit) (b : Block) : Turn :=
  if trespAlarms p f b then .fault 0x56A (some partSpine) else .at 8 7 p.toNat (some partSpine)

/-- The section that the Syntax core's FENCE_SECTION or UNFENCE_SECTION names. -/
def sectionTurn (b : Block) : Turn := match commandPair b with
  | some m => .section (rq 3 (reqOf b m) 8 1)
  | none => .free none

/-- A bit time of the shift word that runs on a pin group: the shifter acts at rank 7 (R269). -/
def groupTurn (c : CluId) (g : BitVec 4) (b : Block) : Turn := match (b.pg c g).owner with
  | some n => .at 7 9 n.toNat (some (partClu c))
  | none => .free (some (partClu c))

/-! ### The turn of a command -/

/-- The command belongs to the next tick: its place lies before one that the present tick has reached. -/
def isLate (t : Turn) (turn : Nat) : Bool := match t.place with
  | some p => decide (p < turn) || (t.once && decide (p = turn))
  | none => false

/-- The command has no effect: its part was reset or fenced in this tick (R27), for a reset by a wider one (R419); or its island
pauses, and it comes again when the pause ends (R374, log entry 97). -/
def discarded (t : Turn) (b : Block) : Bool :=
  (match t.part with
   | some p => if t.isReset then b.inWider p else b.isGone p
   | none => false) ||
  t.isl.any (fun i => (Map.get none b.paused i).isSome)

/-- The machine in the tick to which a command of turn `t` belongs. -/
def reach (t : Block → Turn) (s : State) : State :=
  if isLate (t s.blk) s.turn then { s with blk := tick s.blk, turn := 0 } else s

/-- Behind the effects of rank 1 to 3 the tick corrects the counts that writes of the tick before have left above RLD (R207). -/
def corrected (t : Turn) (b : Block) : Block :=
  if t.place.any (fun p => decide (place 4 5 0 ≤ p)) then rangeCorrections b else b

/-- A command acts at its place of its tick: `f` is its effect on the block. -/
def atTurn (t : Block → Turn) (f : Block → Block) (s : State) : Host.Outcome State Fault Refusal :=
  let s := reach t s
  let b := corrected (t s.blk) s.blk
  .next { s with turn := max s.turn ((t s.blk).place.getD 0), blk := if discarded (t s.blk) b then b else f b }

end Sys2Proof.Machine
end

