-- ==== Sys2Proof/Machine/Places.lean ====
section
/-! DEFINITION. The place of each command in the order of its tick, the part that it is directed at, and the island that acts (R24,
R27, R28, R374), in one table. A row of WordRows, PortRows or BlockRows takes its turn from it; the rows of the constructors from
the 241st on have their line of it written out, since compiled code knows no more than 240 constructors apart. -/

namespace Sys2Proof.Machine
open Sys2Proof

/-- The turn of a command. -/
def turnOf (i : Instr) (b : Block) : Turn :=
  match i with
  | .next e k => wordTurn (ctxNo e k) b
  | .jump e k => wordTurn (ctxNo e k) b
  | .call e k => wordTurn (ctxNo e k) b
  | .ret e k => wordTurn (ctxNo e k) b
  | .retx e k => wordTurn (ctxNo e k) b
  | .trap e k => wordTurn (ctxNo e k) b
  | .wait e k => wordTurn (ctxNo e k) b
  | .atW e k => wordTurn (ctxNo e k) b
  | .dispatch e k => wordTurn (ctxNo e k) b
  | .loop e k => wordTurn (ctxNo e k) b
  | .yield e k => wordTurn (ctxNo e k) b
  | .park e k => wordTurn (ctxNo e k) b
  | .sync e k => wordTurn (ctxNo e k) b
  | .fence e k => wordTurn (ctxNo e k) b
  | .halt e k => wordTurn (ctxNo e k) b
  | .mov e k => wordTurn (ctxNo e k) b
  | .add e k => wordTurn (ctxNo e k) b
  | .adc e k => wordTurn (ctxNo e k) b
  | .sub e k => wordTurn (ctxNo e k) b
  | .sbc e k => wordTurn (ctxNo e k) b
  | .cmp e k => wordTurn (ctxNo e k) b
  | .neg e k => wordTurn (ctxNo e k) b
  | .abs e k => wordTurn (ctxNo e k) b
  | .addsSubsNegsAbss e k => wordTurn (ctxNo e k) b
  | .minMax e k => wordTurn (ctxNo e k) b
  | .minuMaxu e k => wordTurn (ctxNo e k) b
  | .idx e k => wordTurn (ctxNo e k) b
  | .andOrXorAndn e k => wordTurn (ctxNo e k) b
  | .not e k => wordTurn (ctxNo e k) b
  | .tst e k => wordTurn (ctxNo e k) b
  | .shlShrSarRolRor e k => wordTurn (ctxNo e k) b
  | .shliShriSariRoliRori e k => wordTurn (ctxNo e k) b
  | .clz e k => wordTurn (ctxNo e k) b
  | .popc e k => wordTurn (ctxNo e k) b
  | .sext e k => wordTurn (ctxNo e k) b
  | .zext e k => wordTurn (ctxNo e k) b
  | .bswap e k => wordTurn (ctxNo e k) b
  | .brev e k => wordTurn (ctxNo e k) b
  | .mulMulu e k => wordTurn (ctxNo e k) b
  | .divDivu e k => wordTurn (ctxNo e k) b
  | .macMacu e k => wordTurn (ctxNo e k) b
  | .msu e k => wordTurn (ctxNo e k) b
  | .aclr e k => wordTurn (ctxNo e k) b
  | .aaddAsub e k => wordTurn (ctxNo e k) b
  | .ashr e k => wordTurn (ctxNo e k) b
  | .ahi e k => wordTurn (ctxNo e k) b
  | .asat e k => wordTurn (ctxNo e k) b
  | .ckadd e k => wordTurn (ctxNo e k) b
  | .ckfold e k => wordTurn (ctxNo e k) b
  | .crcb e k => wordTurn (ctxNo e k) b
  | .crcw e k => wordTurn (ctxNo e k) b
  | .crcfin e k => wordTurn (ctxNo e k) b
  | .afx e k => wordTurn (ctxNo e k) b
  | .ld1Ld1s e k => wordTurn (ctxNo e k) b
  | .ld2Ld2s e k => wordTurn (ctxNo e k) b
  | .ld4Ld4s e k => wordTurn (ctxNo e k) b
  | .ld6 e k => wordTurn (ctxNo e k) b
  | .ld8Ld8s e k => wordTurn (ctxNo e k) b
  | .ld12 e k => wordTurn (ctxNo e k) b
  | .st1St2St4St6 e k => wordTurn (ctxNo e k) b
  | .st8St12 e k => wordTurn (ctxNo e k) b
  | .lr6 e k => wordTurn (ctxNo e k) b
  | .sc6 e k => wordTurn (ctxNo e k) b
  | .rel e k => wordTurn (ctxNo e k) b
  | .move e k => wordTurn (ctxNo e k) b
  | .fill e k => wordTurn (ctxNo e k) b
  | .cksum16 e k => wordTurn (ctxNo e k) b
  | .ckcrc e k => wordTurn (ctxNo e k) b
  | .scan e k => wordTurn (ctxNo e k) b
  | .push e k => wordTurn (ctxNo e k) b
  | .pop e k => wordTurn (ctxNo e k) b
  | .peek e k => wordTurn (ctxNo e k) b
  | .sho e k => wordTurn (ctxNo e k) b
  | .shi e k => wordTurn (ctxNo e k) b
  | .shx e k => wordTurn (ctxNo e k) b
  | .out e k => wordTurn (ctxNo e k) b
  | .oen e k => wordTurn (ctxNo e k) b
  | .inW e k => wordTurn (ctxNo e k) b
  | .resetprog e k => wordTurn (ctxNo e k) b
  | .qflush e k => wordTurn (ctxNo e k) b
  | .caparm e k => wordTurn (ctxNo e k) b
  | .getl e k => wordTurn (ctxNo e k) b
  | .clrl e k => wordTurn (ctxNo e k) b
  | .getevm e k => wordTurn (ctxNo e k) b
  | .setevm e k => wordTurn (ctxNo e k) b
  | .getstk e k => wordTurn (ctxNo e k) b
  | .setstk e k => wordTurn (ctxNo e k) b
  | .getecause e k => wordTurn (ctxNo e k) b
  | .geteupc e k => wordTurn (ctxNo e k) b
  | .geteinfo e k => wordTurn (ctxNo e k) b
  | .seteupc e k => wordTurn (ctxNo e k) b
  | .getet e k => wordTurn (ctxNo e k) b
  | .setetc e k => wordTurn (ctxNo e k) b
  | .mulProductWrite e k => Turn.free (some (partCtx (ctxNo e k)))
  | .macAccumulate e k => Turn.free (some (partCtx (ctxNo e k)))
  | .divideResult e => Turn.free (some (partEng e))
  | .memoryLoadResult e tag _ => requestTurn e tag b
  | .storeAccepted e tag => requestTurn e tag.of b
  | .affixRequest c => Turn.free (some (partClu c))
  | .affixResponse c _ => Turn.free (some (partClu c))
  | .affixTimeout e _ => Turn.fault e.toNat (some (partEng e))
  | .longStepEnd e k _ => stepTurn (ctxNo e k) b
  | .callFrameDone e k => stepTurn (ctxNo e k.of) b
  | .retRestoreDone e k _ => stepTurn (ctxNo e k) b
  | .fenceComplete e k => Turn.free (some (partCtx (ctxNo e k)))
  | .conditionEvent => Turn.free none
  | .waitTimeout e k => Turn.at 4 9 (ctxNo e k).toNat (some (partCtx (ctxNo e k)))
  | .syncTimeout e k => Turn.at 4 9 (ctxNo e k).toNat (some (partCtx (ctxNo e k)))
  | .atDue e k => Turn.free (some (partCtx (ctxNo e k)))
  | .atTarget e k => Turn.shared (ctxNo e k)
  | .wakeatReached ch => Turn.tense 3 ch.toNat none
  | .parkSpillStart e k => Turn.free (some (partCtx (ctxNo e k)))
  | .channelFillStart e k => Turn.free (some (partCtx (ctxNo e k)))
  | .channelSpillEnd e k ecc => spillTurn (ctxNo e k) ecc b
  | .channelFillEnd e k ecc => fillTurn (ctxNo e k) ecc b
  | .exceptionEntry e k => Turn.free (some (partCtx (ctxNo e k)))
  | .shadowBankGrant e => Turn.free (some (partEng e))
  | .machineCheck e k _ _ => Turn.fault e.toNat (some (partCtx (ctxNo e k)))
  | .csRepair c _ _ _ => Turn.at 10 2 0 (some (partClu c))
  | .csRepairEnd c => Turn.at 10 2 0 (some (partClu c))
  | .patchActivate e => Turn.free (some (partEng e))
  | .timerStep c x => Turn.timer c x false
  | .timerCompareFire c x => Turn.timer c x true
  | .timerGoRelease => Turn.tense 1 0 none
  | .ticksec => Turn.tense 6 0 none
  | .evtInEdge n => Turn.sample n.toNat none
  | .evtOutChange _ => Turn.free none
  | .evtOutPulseEnd _ => Turn.free none
  | .leaseExpiry tbl owner => Turn.tense 4 (8192 * tbl.toNat + owner.toNat) none
  | .starvationEvent bank => Turn.fault (0x480 + bank.toNat) none
  | .eccWriteback _ => (Turn.free none).inIsl 64
  | .patrolScrub bank ecc => (if ecc.errs = [] then Turn.free none else Turn.fault (0x480 + bank.toNat) none).inIsl 64
  | .pinGroupGrant c _ => Turn.free (some (partClu c))
  | .shiftBitStart c g => groupTurn c g b
  | .shiftBitEnd c g => groupTurn c g b
  | .shiftWordEnd c g => groupTurn c g b
  | .laneEdge c _ => Turn.sample (32 + c.toNat) (some (partClu c))
  | .injectedWord e k => injTurn (ctxNo e k) b
  | .dmaBeatIssue n => issueTurn n b
  | .journalAppend n => Turn.dma n
  | .dmaBeatComplete n _ => Turn.dma n
  | .dmaIdleHandover n => Turn.dma n
  | .hostReadResponse p tag _ _ => answerTurn p (tagged (b.port p) false tag)
  | .hostWriteResponse p tag _ => answerTurn p (tagged (b.port p) true tag)
  | .hostTimeout p write slot => answerTurn p (Map.get none (if write then (b.port p).writes else (b.port p).reads) slot.toNat)
  | .descriptorFetch _ => Turn.ringEnd.inIsl 65
  | .descriptorCommit _ => Turn.concord.inIsl 65
  | .acceptHeadWrite _ => Turn.concord.inIsl 65
  | .completionRecordWrite _ => Turn.concord.inIsl 65
  | .hostRetry _ => Turn.ringEnd.inIsl 65
  | .replay _ => Turn.requeue.inIsl 65
  | .payloadRefetch _ => Turn.concord.inIsl 65
  | .data p _ => (Turn.at 8 7 p.toNat (some partSpine)).inIsl (68 + p.toNat)
  | .mirror p _ => (Turn.at 8 7 p.toNat (some partSpine)).inIsl (68 + p.toNat)
  | .ack p _ => (Turn.at 8 7 p.toNat (some partSpine)).inIsl (68 + p.toNat)
  | .nak p _ => (Turn.at 8 7 p.toNat (some partSpine)).inIsl (68 + p.toNat)
  | .busy p _ => (Turn.at 8 7 p.toNat (some partSpine)).inIsl (68 + p.toNat)
  | .announce p _ => (Turn.at 8 7 p.toNat (some partSpine)).inIsl (68 + p.toNat)
  | .heartbeat p _ => (Turn.at 8 7 p.toNat (some partSpine)).inIsl (68 + p.toNat)
  | .join p _ => (Turn.at 8 7 p.toNat (some partSpine)).inIsl (68 + p.toNat)
  | .leave p _ => (Turn.at 8 7 p.toNat (some partSpine)).inIsl (68 + p.toNat)
  | .tsync p _ _ _ => (Turn.at 8 7 p.toNat (some partSpine)).inIsl (68 + p.toNat)
  | .tresp p f _ => (trespTurn p f b).inIsl (68 + p.toNat)
  | .holdoverAlarm => Turn.fault 0x56A none
  | .timedDelivery _ => Turn.at 8 7 4 (some partSpine)
  | .retransmitTimeout _ => Turn.free none
  | .ackSend _ => Turn.free none
  | .announceRound => Turn.free none
  | .masterTimeout => Turn.free none
  | .tsyncSend _ => Turn.free none
  | .heartbeatSend _ => Turn.free none
  | .partnerLoss _ => Turn.fault 0x56A (some partSpine)
  | .takeover _ => Turn.fault 0x56A (some partSpine)
  | .cjLinkUp _ => Turn.free none
  | .cjLinkDown p => Turn.fault (0x566 + p.toNat) none
  | .canarySample i _ => Turn.fault (0x518 + i.toNat) none
  | .crossingRetrain i => Turn.fault (0x518 + i.toNat) none
  | .linkRetrain p => (Turn.fault (0x566 + p.toNat) none).inIsl (68 + p.toNat)
  | .eventPost => Turn.syntaxRow
  | .channelRebind _ => Turn.syntaxRow
  | .synHeartbeat => Turn.syntaxRow
  | .queryVersion => Turn.syntaxRow
  | .modeReq => Turn.rank1 2 0
  | .loadImage _ => Turn.syntaxRow
  | .patchApply _ => Turn.syntaxRow
  | .fenceSection => sectionTurn b
  | .unfenceSection => sectionTurn b
  | .ringCreate => Turn.syntaxRow
  | .ringDestroy => Turn.syntaxRow
  | .ringMirror _ => Turn.syntaxRow
  | .federateJoin => Turn.syntaxRow
  | .federateLeave => Turn.syntaxRow
  | .timeSet => Turn.syntaxRow
  | .headBind => Turn.syntaxRow
  | .channelBind => Turn.syntaxRow
  | .channelUnbind => Turn.syntaxRow
  | .channelWake => Turn.syntaxRow
  | .inject => Turn.syntaxRow
  | .powerOn => Turn.rank1 1 0
  | .fuseWord _ => Turn.free none
  | .coldReset => Turn.rank1 1 0
  | .blockReset _ => Turn.rank1 1 0
  | .warmWake => Turn.rank1 1 0
  | .wakeEnd _ => Turn.rank1 2 0
  | .wakeAckTimeout s => Turn.fault (0x510 + s.toNat) none
  | .sectionClearEnd _ => Turn.free none
  | .secPwrAckRise s => Turn.ack s
  | .secPwrAckFall s => Turn.ack s
  | .secPwrAckTimeout s => Turn.fault (0x510 + s.toNat) none
  | .sectionFence sec => Turn.section sec
  | .recoverEnd => Turn.rank1 2 0
  | .recoverOverrun => Turn.rank1 2 0
  | .quiesceDone => Turn.rank1 2 0
  | .contextReset e k => Turn.reset 6 (ctxNo e k).toNat (partCtx (ctxNo e k))
  | .engineReset e => Turn.reset 5 e.toNat (partEng e)
  | .clusterReset c => Turn.reset 4 c.toNat (partClu c)
  | .sectionReset sec => Turn.reset 3 (2 * sec.toNat + 1) (partSec sec)
  | .clusterSleep c => Turn.free (some (partClu c))
  | .clusterWake c _ => Turn.tense 0 (256 + c.toNat) (some (partClu c))
  | .faultReaction => (Turn.at 2 1 0 none).inIsl 67
  | .faultPinPulseEnd => Turn.free none
  | .watchdogBite e => Turn.at 2 1 (0x200 + e.toNat) (some (partEng e))
  | .syntaxWatchdogBite => Turn.at 2 1 0x565 none
  | .sourceWindowMature _ => Turn.free none
  | .contextHalt e k => Turn.free (some (partCtx (ctxNo e k)))
  | .haltComplete e => Turn.free (some (partEng e))
  | .holdLeaseEnd owner => Turn.tense 5 owner.toNat none
  | .debugBusTimeout => Turn.free none
  | .frame _ => Turn.at 6 8 0 (some partSpine)
  | .line _ => Turn.at 6 8 0 (some partSpine)
  | .underrun m => Turn.fault (0x700 + (rsHead m).toNat) (some partSpine)
  | .clone m => Turn.fault (0x700 + (rsHead m).toNat) (some partSpine)
  | .rstevBadmsg m => Turn.fault (0x700 + (rsHead m).toNat) (some partSpine)
  | .rcomSend => Turn.free none
  | .extest => Turn.free none
  | .samplePreload => Turn.free none
  | .idcode => Turn.free none
  | .clamp => Turn.free none
  | .highz => Turn.free none
  | .tapScan => Turn.free none
  | .bypass => Turn.free none
  | .tapReset => Turn.free none
  | .registerWrite o addr _ => portTurn o true (portWin o addr) b
  | .readClearRead o addr => portTurn o false (portWin o addr) b
  | .ctxRegisterWrite o e k reg _ => portTurn o true (.eng e (0x100 + 0x30 * k.toNat + ctxRegOff reg)) b
  | .ctxResetRequest o e _ => portTurn o true (.eng e 0x08) b
  | .engineResetRequest o e => portTurn o true (.eng e 0x08) b
  | .engLbufInval o e => portTurn o true (.eng e 0x20) b
  | .engXbEstatWrite o e level2 _ => portTurn o true (.eng e (if level2 then 0xE0 else 0xB0)) b
  | .tmrCfgWrite o c x _ => portTurn o true (.clu c (tmrOff x)) b
  | .tmrWhiCommit o c _ => portTurn o true (.clu c 0xBC8) b
  | .tmrCapLoRead o c x => portTurn o false (.clu c (tmrOff x + 0x10)) b
  | .timerGo o => portTurn o true (.inst 0x28) b
  | .timerGoat o => portTurn o true (.inst 0x28) b
  | .instSwev o _ => portTurn o true (.inst 0x38) b
  | .tirLoRead o off => portTurn o false (.tir off.toNat) b
  | .laneQcfgWrite o c _ => portTurn o true (.clu c 0xC10) b
  | .laneTxpush o c q _ => portTurn o true (.clu c (0xC84 + 8 * q.toNat)) b
  | .laneRxqPop o c q => portTurn o true (lqWin c (8 + q.setWidth 4)) b
  | .laneQueueFlush o c lq => portTurn o true (lqWin c lq) b
  | .laneCaptLoRead o c g => portTurn o false (.clu c (0xE00 + 16 * g.toNat)) b
  | .injectGo o e _ _ => portTurn o true (.eng e 0x3C) b
  | .injectCancel o e _ => portTurn o true (.eng e 0x3C) b
  | .cluCsRaddrWrite o c _ => portTurn o true (.clu c 0x40C) b
  | .csReadDone c => Turn.free (some (partClu c))
  | .dmaStart o n => portTurn o true (.dma n 0) b
  | .dmaPause o n => portTurn o true (.dma n 0) b
  | .dmaResume o n => portTurn o true (.dma n 0) b
  | .dmaAbort o n => portTurn o true (.dma n 0) b
  | .dmaClrerr o n => portTurn o true (.dma n 0) b
  | .dmaShadowWrite o n reg _ => portTurn o true (.dma n (dmaRegOff reg)) b
  | .ringDb o r _ => portTurn o true (.ring r 0) b
  | .ringHosterrClear o r => portTurn o true (.ring r 0xC) b
  | .instConcTake o => portTurn o false (.inst 0x800) b
  | .instConcDone o _ => portTurn o true (.inst 0x810) b
  | .fedTxGo o _ => portTurn o true (.fed 0x74) b
  | .fedRxtake o => portTurn o false (.fed 0x80) b
  | .fedRxfree o _ => portTurn o true (.fed 0x84) b
  | .mbxDb o m => portTurn o true (.mbx m 0x80) b
  | .synEvack o => portTurn o true (.syn 0x0C) b
  | .instResetBlock o _ => portTurn o true (.inst 0x10) b
  | .instResetSec o _ => portTurn o true (.inst 0x10) b
  | .cluReset o c => portTurn o true (.clu c 0x08) b
  | .cluWdkick o c _ => portTurn o true (.clu c 0x10) b
  | .impInjGo o _ => portTurn o true (.imp 0x20) b
  | .impModectlStop o => portTurn o true (.imp 0x2C) b
  | .impModectlBreset o _ => portTurn o true (.imp 0x2C) b
  | .impKeyctlRevoke o => portTurn o true (.imp 0x30) b
  | .impTestlockWrite o _ => portTurn o true (.imp 0x28) b
  | .impSrcCfgWrite o src _ => portTurn o true (.imp (0x2000 + 4 * src.toNat)) b
  | .impPinWrite o _ => portTurn o true (.imp 0x04) b
  | .impLogPop o => portTurn o false (.imp 0x10) b
  | .impPlDataHi o h _ => portTurn o true (plWin h 0x0C) b
  | .impPlCommit o h => portTurn o true (plWin h 0x10) b
  | .headShwHi o h _ => portTurn o true (.head h 0x48) b
  | .headCommit o h => portTurn o true (.head h 0x3C) b
  | .dbgHalt o e => portTurn o true (engDbg e 4) b
  | .dbgChalt o e _ => portTurn o true (engDbg e 4) b
  | .dbgRelease o e => portTurn o true (engDbg e 4) b
  | .dbgStep o e _ => portTurn o true (engDbg e 4) b
  | .dbgStepabort o e => portTurn o true (engDbg e 4) b
  | .dbgMdata o _ _ => portTurn o true (.inst 0xA10) b
  | .dbgPcmpAlloc o c p _ => portTurn o true (.clu c (0x1200 + 16 * p.toNat)) b
  | .perturbSeedWrite o _ => portTurn o true (.inst 0xB04) b
  | .flitCrcDrop p _ => (Turn.fault (0x566 + p.toNat) none).inIsl (68 + p.toNat)
  | .linkTrained _ => Turn.free none
  | .linkRetrainEnd _ _ _ => Turn.free none
  | .retrainPauseEnd i _ _ => Turn.tense 0 i.toNat none
  | .commandTimeout => Turn.syntaxRow
  | .fuseTimeout => Turn.free none
  | .debugBusAccessDone _ => busTurn b
  | .txFull _ => Turn.free none
  | .dmaLocalReadDone n beat ecc => localTurn n beat.toNat ecc b

end Sys2Proof.Machine
end

