-- ==== Sys2Proof/Machine/BlockRows.lean ====
section
/-! DEFINITION. The rows of the opcode table that are neither a microword's slot nor a register access: responses, events, resets, engines'
and units' own steps, arrivals, and the Syntax core's commands. Each names its operation, which acts at its turn. -/

namespace Sys2Proof.Machine
open Sys2Proof

/-! ### Calibration -/

def execCanarySample (isl : BitVec 7) (sample : BitVec 16) (s : State) : Host.Outcome State Fault Refusal :=
  atTurn (turnOf (.canarySample isl sample)) (opCanarySample isl.toNat sample.toNat) s
def execCrossingRetrain (isl : BitVec 7) (s : State) : Host.Outcome State Fault Refusal :=
  atTurn (turnOf (.crossingRetrain isl)) (opCrossingRetrain isl.toNat) s
def execRetrainPauseEnd (isl : BitVec 7) (delay : BitVec 16) (_ : Nat) (s : State) : Host.Outcome State Fault Refusal :=
  atTurn (fun _ => Turn.tense 0 isl.toNat none) (opRetrainPauseEnd isl.toNat delay.toNat) s

/-! ### Channels -/

def execConditionEvent (s : State) : Host.Outcome State Fault Refusal := atTurn (turnOf .conditionEvent) opConditionEvent s
def execWakeatReached (ch : Chan) (s : State) : Host.Outcome State Fault Refusal :=
  atTurn (turnOf (.wakeatReached ch)) (opWakeatReached ch) s

/-! ### Commands -/

def execEventPost (s : State) : Host.Outcome State Fault Refusal :=
  atTurn (turnOf .eventPost) opEventPost s
def execChannelRebind (ch : Chan) (s : State) : Host.Outcome State Fault Refusal :=
  atTurn (turnOf (.channelRebind ch)) (opChannelRebind ch) s
def execSynHeartbeat (s : State) : Host.Outcome State Fault Refusal :=
  atTurn (turnOf .synHeartbeat) opSynHeartbeat s
def execQueryVersion (s : State) : Host.Outcome State Fault Refusal :=
  atTurn (turnOf .queryVersion) (command 1 0 anyMode (fun _ => []) actQuery) s
def execModeReq (s : State) : Host.Outcome State Fault Refusal :=
  atTurn (turnOf .modeReq) (command 2 2 anyMode (fun _ => [(8, 1, below 8), (9, 1, any_)]) actMode) s
def execLoadImage (f : Fetched) (s : State) : Host.Outcome State Fault Refusal :=
  atTurn (turnOf (.loadImage f)) (command 3 13 [.load] imgParams (actLoad f)) s
def execPatchApply (f : Fetched) (s : State) : Host.Outcome State Fault Refusal :=
  atTurn (turnOf (.patchApply f)) (command 4 13 [.service] imgParams (actPatch f)) s
def execFenceSection (s : State) : Host.Outcome State Fault Refusal :=
  atTurn (turnOf .fenceSection) (command 5 2 [.service] (fun _ => [(8, 1, below 8), (9, 1, below 2)]) actFence) s
def execUnfenceSection (s : State) : Host.Outcome State Fault Refusal :=
  atTurn (turnOf .unfenceSection) (command 6 1 [.service] (fun _ => [(8, 1, below 8)]) actUnfence) s
def execRingCreate (s : State) : Host.Outcome State Fault Refusal :=
  atTurn (turnOf .ringCreate) (command 7 44 [.load, .service] ringParams actRingCreate) s
def execRingDestroy (s : State) : Host.Outcome State Fault Refusal :=
  atTurn (turnOf .ringDestroy) (command 8 3 [.service, .quiesce] (fun _ => [(8, 2, below 4096), (0xA, 1, below 2)]) actRingDestroy) s
def execRingMirror (a : MirrorAnswer) (s : State) : Host.Outcome State Fault Refusal :=
  atTurn (turnOf (.ringMirror a)) (match a with
    | .reserve o r l ch => partnerReserve o r l ch
    | .release o c => partnerRelease o c
    | _ => command 9 8 [.service] (fun _ => [(8, 2, below 4096), (0xA, 1, below 2), (0xC, 2, below 512), (0xE, 2, any_)]) (actRingMirror a)) s
def execFederateJoin (s : State) : Host.Outcome State Fault Refusal :=
  atTurn (turnOf .federateJoin) (command 0xA 4 [.trim] joinParams actJoin) s
def execFederateLeave (s : State) : Host.Outcome State Fault Refusal :=
  atTurn (turnOf .federateLeave) (command 0xB 0 [.service, .quiesce] (fun _ => []) actLeave) s
def execTimeSet (s : State) : Host.Outcome State Fault Refusal :=
  atTurn (turnOf .timeSet) (command 0xC 8 [.trim, .load, .service] (fun _ => [(8, 6, any_)]) actTime) s
def execHeadBind (s : State) : Host.Outcome State Fault Refusal :=
  atTurn (turnOf .headBind) (command 0xD 4 [.service] (fun _ => [(8, 1, any_), (9, 1, below 2), (0xA, 2, any_)]) actHead) s
def execChannelBind (s : State) : Host.Outcome State Fault Refusal :=
  atTurn (turnOf .channelBind) (command 0xE 26 [.load, .service] bindParams actBind) s
def execChannelUnbind (s : State) : Host.Outcome State Fault Refusal :=
  atTurn (turnOf .channelUnbind) (command 0xF 6 [.service] (fun _ => [(8, 2, any_), (0xA, 4, timeoutOk)]) actUnbind) s
def execChannelWake (s : State) : Host.Outcome State Fault Refusal :=
  atTurn (turnOf .channelWake) (command 0x10 2 [.service] (fun _ => [(8, 2, any_)]) actWake) s
def execInject (s : State) : Host.Outcome State Fault Refusal :=
  atTurn (turnOf .inject) (command 0x11 28 [.test, .service] injParams actInject) s
def execCommandTimeout (s : State) : Host.Outcome State Fault Refusal :=
  atTurn (fun _ => Turn.syntaxRow) opCommandTimeout s

/-! ### Concord -/

def execDescriptorFetch (r : BitVec 12) (s : State) : Host.Outcome State Fault Refusal :=
  atTurn (turnOf (.descriptorFetch r)) (opDescriptorFetch r) s
def execDescriptorCommit (r : BitVec 12) (s : State) : Host.Outcome State Fault Refusal :=
  atTurn (turnOf (.descriptorCommit r)) (opDescriptorCommit r) s
def execAcceptHeadWrite (r : BitVec 12) (s : State) : Host.Outcome State Fault Refusal :=
  atTurn (turnOf (.acceptHeadWrite r)) (opAcceptHeadWrite r) s
def execCompletionRecordWrite (r : BitVec 12) (s : State) : Host.Outcome State Fault Refusal :=
  atTurn (turnOf (.completionRecordWrite r)) (opCompletionRecordWrite r) s
def execHostRetry (r : BitVec 12) (s : State) : Host.Outcome State Fault Refusal :=
  atTurn (turnOf (.hostRetry r)) (opHostRetry r) s
def execReplay (entry : BitVec 13) (s : State) : Host.Outcome State Fault Refusal :=
  atTurn (turnOf (.replay entry)) (opReplay entry) s
def execPayloadRefetch (entry : BitVec 13) (s : State) : Host.Outcome State Fault Refusal :=
  atTurn (turnOf (.payloadRefetch entry)) (opPayloadRefetch entry) s

/-! ### ControlStore -/

def execPatchActivate (e : EngId) (s : State) : Host.Outcome State Fault Refusal :=
  atTurn (turnOf (.patchActivate e)) (opPatchActivate e) s
def execCsReadDone (c : CluId) (s : State) : Host.Outcome State Fault Refusal :=
  atTurn (fun _ => Turn.free (some (partClu c))) (opCsReadDone c) s

/-! ### Debug -/

def execContextHalt (e : EngId) (k : CtxId) (s : State) : Host.Outcome State Fault Refusal :=
  atTurn (turnOf (.contextHalt e k)) (opContextHalt (ctxNo e k)) s
def execHaltComplete (e : EngId) (s : State) : Host.Outcome State Fault Refusal :=
  atTurn (turnOf (.haltComplete e)) (opHaltComplete e) s
def execHoldLeaseEnd (owner : CtxNo) (s : State) : Host.Outcome State Fault Refusal :=
  atTurn (turnOf (.holdLeaseEnd owner)) (opHoldLeaseEnd owner) s
def execDebugBusTimeout (s : State) : Host.Outcome State Fault Refusal := atTurn (turnOf .debugBusTimeout) opDebugBusTimeout s
def execDebugBusAccessDone (ecc : Ecc) (s : State) : Host.Outcome State Fault Refusal :=
  atTurn (fun b => busTurn b) (opDebugBusAccessDone ecc) s

/-! ### Dma -/

def execDmaBeatIssue (n : BitVec 8) (s : State) : Host.Outcome State Fault Refusal :=
  atTurn (turnOf (.dmaBeatIssue n)) (opDmaBeatIssue n) s
def execJournalAppend (n : BitVec 8) (s : State) : Host.Outcome State Fault Refusal :=
  atTurn (turnOf (.journalAppend n)) (opJournalAppend n) s
def execDmaBeatComplete (n : BitVec 8) (beat : Merge (BitVec 20)) (s : State) : Host.Outcome State Fault Refusal :=
  atTurn (turnOf (.dmaBeatComplete n beat)) (opDmaBeatComplete n beat.of.toNat beat.ecc) s
def execDmaIdleHandover (n : BitVec 8) (s : State) : Host.Outcome State Fault Refusal :=
  atTurn (turnOf (.dmaIdleHandover n)) (opDmaIdleHandover n) s
def execHostReadResponse (p : Bool) (tag : BitVec 12) (status : BitVec 2) (data : Beat) (s : State) :
    Host.Outcome State Fault Refusal :=
  atTurn (turnOf (.hostReadResponse p tag status data)) (opHostReadResponse p tag status data) s
def execHostWriteResponse (p : Bool) (tag : BitVec 12) (status : BitVec 2) (s : State) : Host.Outcome State Fault Refusal :=
  atTurn (turnOf (.hostWriteResponse p tag status)) (opHostWriteResponse p tag status) s
def execHostTimeout (p write : Bool) (slot : BitVec 10) (s : State) : Host.Outcome State Fault Refusal :=
  atTurn (turnOf (.hostTimeout p write slot)) (opHostTimeout p write slot.toNat) s
def execDmaLocalReadDone (n : BitVec 8) (beat : BitVec 20) (ecc : Ecc) (s : State) : Host.Outcome State Fault Refusal :=
  atTurn (fun b => localTurn n beat.toNat ecc b) (opDmaLocalReadDone n beat.toNat ecc) s

/-! ### Exceptions -/

/-- TIMER_COMPARE_FIRE with the WAITs that its CMPF ends. -/
def execTimerCompareFire (c : CluId) (x : BitVec 6) (s : State) : Host.Outcome State Fault Refusal :=
  atTurn (turnOf (.timerCompareFire c x)) (fun b => settleClu c (opTimerCompareFire c x b)) s
def execExceptionEntry (e : EngId) (k : CtxId) (s : State) : Host.Outcome State Fault Refusal :=
  atTurn (turnOf (.exceptionEntry e k)) (opExceptionEntry (ctxNo e k)) s
def execShadowBankGrant (e : EngId) (s : State) : Host.Outcome State Fault Refusal :=
  atTurn (turnOf (.shadowBankGrant e)) (opShadowBankGrant e) s

/-! ### Federation -/

def execData (p : BitVec 2) (f : Flit) (s : State) : Host.Outcome State Fault Refusal :=
  atTurn (turnOf (.data p f)) (opData p f) s
def execMirror (p : BitVec 2) (f : Flit) (s : State) : Host.Outcome State Fault Refusal :=
  atTurn (turnOf (.mirror p f)) (opMirror p f) s
def execAck (p : BitVec 2) (f : Flit) (s : State) : Host.Outcome State Fault Refusal :=
  atTurn (turnOf (.ack p f)) (opAck p f) s
def execNak (p : BitVec 2) (f : Flit) (s : State) : Host.Outcome State Fault Refusal :=
  atTurn (turnOf (.nak p f)) (opNak p f) s
def execBusy (p : BitVec 2) (f : Flit) (s : State) : Host.Outcome State Fault Refusal :=
  atTurn (turnOf (.busy p f)) (opBusy p f) s
def execAnnounce (p : BitVec 2) (f : Flit) (s : State) : Host.Outcome State Fault Refusal :=
  atTurn (turnOf (.announce p f)) (opAnnounce p f) s
def execHeartbeat (p : BitVec 2) (f : Flit) (s : State) : Host.Outcome State Fault Refusal :=
  atTurn (turnOf (.heartbeat p f)) (opHeartbeat p f) s
def execJoin (p : BitVec 2) (f : Flit) (s : State) : Host.Outcome State Fault Refusal :=
  atTurn (turnOf (.join p f)) (opJoin p f) s
def execLeave (p : BitVec 2) (f : Flit) (s : State) : Host.Outcome State Fault Refusal :=
  atTurn (turnOf (.leave p f)) (opLeave p f) s
def execTsync (p : BitVec 2) (f : Flit) (t2 t3 : BitVec 52) (s : State) : Host.Outcome State Fault Refusal :=
  atTurn (turnOf (.tsync p f t2 t3)) (opTsync p f) s
def execTresp (p : BitVec 2) (f : Flit) (t4 : BitVec 52) (s : State) : Host.Outcome State Fault Refusal :=
  atTurn (turnOf (.tresp p f t4)) (opTresp p f) s
def execHoldoverAlarm (s : State) : Host.Outcome State Fault Refusal := atTurn (turnOf .holdoverAlarm) opHoldoverAlarm s
def execTimedDelivery (slot : BitVec 11) (s : State) : Host.Outcome State Fault Refusal :=
  atTurn (turnOf (.timedDelivery slot)) (opTimedDelivery slot) s
def execRetransmitTimeout (peer : BitVec 9) (s : State) : Host.Outcome State Fault Refusal :=
  atTurn (turnOf (.retransmitTimeout peer)) (opRetransmitTimeout peer) s
def execAckSend (peer : BitVec 9) (s : State) : Host.Outcome State Fault Refusal :=
  atTurn (turnOf (.ackSend peer)) (opAckSend peer) s
def execAnnounceRound (s : State) : Host.Outcome State Fault Refusal := atTurn (turnOf .announceRound) opAnnounceRound s
def execMasterTimeout (s : State) : Host.Outcome State Fault Refusal := atTurn (turnOf .masterTimeout) opMasterTimeout s
def execTsyncSend (t1 : BitVec 52) (s : State) : Host.Outcome State Fault Refusal :=
  atTurn (turnOf (.tsyncSend t1)) opTsyncSend s
def execHeartbeatSend (peer : BitVec 9) (s : State) : Host.Outcome State Fault Refusal :=
  atTurn (turnOf (.heartbeatSend peer)) (opHeartbeatSend peer) s
def execPartnerLoss (peer : BitVec 9) (s : State) : Host.Outcome State Fault Refusal :=
  atTurn (turnOf (.partnerLoss peer)) (opPartnerLoss peer) s
def execTakeover (peer : BitVec 9) (s : State) : Host.Outcome State Fault Refusal :=
  atTurn (turnOf (.takeover peer)) (opTakeover peer) s
def execCjLinkUp (p : BitVec 2) (s : State) : Host.Outcome State Fault Refusal :=
  atTurn (turnOf (.cjLinkUp p)) (opCjLinkUp p) s
def execCjLinkDown (p : BitVec 2) (s : State) : Host.Outcome State Fault Refusal :=
  atTurn (turnOf (.cjLinkDown p)) (opCjLinkDown p) s
def execLinkRetrain (p : BitVec 2) (s : State) : Host.Outcome State Fault Refusal :=
  atTurn (turnOf (.linkRetrain p)) (opLinkRetrain p) s
def execLinkTrained (p : BitVec 2) (s : State) : Host.Outcome State Fault Refusal :=
  atTurn (fun _ => Turn.free none) (opLinkTrained p) s
def execLinkRetrainEnd (p : BitVec 2) (delay asym : BitVec 16) (s : State) : Host.Outcome State Fault Refusal :=
  atTurn (fun _ => Turn.free none) (opLinkRetrainEnd p delay asym) s
def execFlitCrcDrop (p : BitVec 2) (f : Flit) (s : State) : Host.Outcome State Fault Refusal :=
  atTurn (fun _ => (Turn.fault (0x566 + p.toNat) none).inIsl (68 + p.toNat)) (opFlitCrcDrop p f) s
def execTxFull (o : Origin) (s : State) : Host.Outcome State Fault Refusal :=
  atTurn (fun _ => Turn.free none) (opTxFull (orgKey o)) s

/-! ### Imperative -/

def execFaultReaction (s : State) : Host.Outcome State Fault Refusal := atTurn (turnOf .faultReaction) opFaultReaction s
def execFaultPinPulseEnd (s : State) : Host.Outcome State Fault Refusal := atTurn (turnOf .faultPinPulseEnd) opFaultPinPulseEnd s
def execWatchdogBite (e : EngId) (s : State) : Host.Outcome State Fault Refusal :=
  atTurn (turnOf (.watchdogBite e)) (opWatchdogBite e) s
def execSyntaxWatchdogBite (s : State) : Host.Outcome State Fault Refusal :=
  atTurn (turnOf .syntaxWatchdogBite) opSyntaxWatchdogBite s
def execSourceWindowMature (src : BitVec 11) (s : State) : Host.Outcome State Fault Refusal :=
  atTurn (turnOf (.sourceWindowMature src)) (opSourceWindowMature src) s

/-! ### Injection -/

def execInjectedWord (e : EngId) (k : CtxId) (s : State) : Host.Outcome State Fault Refusal :=
  atTurn (turnOf (.injectedWord e k)) (opInjectedWord (ctxNo e k)) s
def execStarvationEvent (bank : BitVec 7) (s : State) : Host.Outcome State Fault Refusal :=
  atTurn (turnOf (.starvationEvent bank)) (opStarvationEvent bank) s
def execEccWriteback (bank : BitVec 8) (s : State) : Host.Outcome State Fault Refusal :=
  atTurn (turnOf (.eccWriteback bank)) (opEccWriteback bank.toNat) s
def execPatrolScrub (bank : BitVec 8) (ecc : Ecc) (s : State) : Host.Outcome State Fault Refusal :=
  atTurn (turnOf (.patrolScrub bank ecc)) (opPatrolScrub bank.toNat ecc) s

/-! ### Modes -/

def execPowerOn (s : State) : Host.Outcome State Fault Refusal := atTurn (turnOf .powerOn) opPowerOn s
def execFuseWord (data : BitVec 32) (s : State) : Host.Outcome State Fault Refusal :=
  atTurn (turnOf (.fuseWord data)) (nextFuse data) s
def execFuseTimeout (s : State) : Host.Outcome State Fault Refusal := atTurn (fun _ => Turn.free none) (nextFuse 0) s
def execColdReset (s : State) : Host.Outcome State Fault Refusal := atTurn (turnOf .coldReset) coldReset s
def execBlockReset (brst : Bool) (s : State) : Host.Outcome State Fault Refusal :=
  atTurn (turnOf (.blockReset brst)) (opBlockReset brst) s
def execWarmWake (s : State) : Host.Outcome State Fault Refusal := atTurn (turnOf .warmWake) opWarmWake s
def execWakeEnd (testReq : Bool) (s : State) : Host.Outcome State Fault Refusal :=
  atTurn (turnOf (.wakeEnd testReq)) (opWakeEnd testReq) s
def execWakeAckTimeout (sec : SecId) (s : State) : Host.Outcome State Fault Refusal :=
  atTurn (turnOf (.wakeAckTimeout sec)) (opWakeAckTimeout sec) s
def execSectionClearEnd (sec : SecId) (s : State) : Host.Outcome State Fault Refusal :=
  atTurn (turnOf (.sectionClearEnd sec)) (opSectionClearEnd sec) s
def execSecPwrAckRise (sec : SecId) (s : State) : Host.Outcome State Fault Refusal :=
  atTurn (turnOf (.secPwrAckRise sec)) (opSecPwrAckRise sec) s
def execSecPwrAckFall (sec : SecId) (s : State) : Host.Outcome State Fault Refusal :=
  atTurn (turnOf (.secPwrAckFall sec)) (opSecPwrAckFall sec) s
def execSecPwrAckTimeout (sec : SecId) (s : State) : Host.Outcome State Fault Refusal :=
  atTurn (turnOf (.secPwrAckTimeout sec)) (opSecPwrAckTimeout sec) s
def execSectionFence (sec : SecId) (s : State) : Host.Outcome State Fault Refusal :=
  atTurn (turnOf (.sectionFence sec)) (opSectionFence sec) s
def execRecoverEnd (s : State) : Host.Outcome State Fault Refusal := atTurn (turnOf .recoverEnd) opRecoverEnd s
def execRecoverOverrun (s : State) : Host.Outcome State Fault Refusal := atTurn (turnOf .recoverOverrun) opRecoverOverrun s
def execQuiesceDone (s : State) : Host.Outcome State Fault Refusal := atTurn (turnOf .quiesceDone) opQuiesceDone s
def execClusterSleep (c : CluId) (s : State) : Host.Outcome State Fault Refusal :=
  atTurn (turnOf (.clusterSleep c)) (opClusterSleep c) s
def execClusterWake (c : CluId) (slowEdges : Nat) (s : State) : Host.Outcome State Fault Refusal :=
  atTurn (turnOf (.clusterWake c slowEdges)) (opClusterWake c slowEdges) s

/-! ### Raster -/

def execFrame (msg : BitVec 64) (s : State) : Host.Outcome State Fault Refusal :=
  atTurn (turnOf (.frame msg)) (opFrame msg) s
def execLine (msg : BitVec 64) (s : State) : Host.Outcome State Fault Refusal :=
  atTurn (turnOf (.line msg)) (opLine msg) s
def execUnderrun (msg : BitVec 64) (s : State) : Host.Outcome State Fault Refusal :=
  atTurn (turnOf (.underrun msg)) (opUnderrun msg) s
def execClone (msg : BitVec 64) (s : State) : Host.Outcome State Fault Refusal :=
  atTurn (turnOf (.clone msg)) (opClone msg) s
def execRstevBadmsg (msg : BitVec 64) (s : State) : Host.Outcome State Fault Refusal :=
  atTurn (turnOf (.rstevBadmsg msg)) (opBadmsg msg) s
def execRcomSend (s : State) : Host.Outcome State Fault Refusal := atTurn (turnOf .rcomSend) opRcomSend s

/-! ### Resets -/

def execMachineCheck (e : EngId) (k : CtxId) (flip : PWord) (stored : Bool) (s : State) : Host.Outcome State Fault Refusal :=
  atTurn (turnOf (.machineCheck e k flip stored)) (opMachineCheck (ctxNo e k) flip stored) s
def execCsRepair (c : CluId) (readback : Bool) (bad0 bad1 : Bool) (s : State) : Host.Outcome State Fault Refusal :=
  atTurn (turnOf (.csRepair c readback bad0 bad1)) (opCsRepair c readback bad0 bad1) s
def execCsRepairEnd (c : CluId) (s : State) : Host.Outcome State Fault Refusal :=
  atTurn (turnOf (.csRepairEnd c)) (opCsRepairEnd c) s
def execContextReset (e : EngId) (k : CtxId) (s : State) : Host.Outcome State Fault Refusal :=
  atTurn (turnOf (.contextReset e k)) (opContextReset (ctxNo e k)) s
def execEngineReset (e : EngId) (s : State) : Host.Outcome State Fault Refusal :=
  atTurn (turnOf (.engineReset e)) (opEngineReset e) s
def execClusterReset (c : CluId) (s : State) : Host.Outcome State Fault Refusal :=
  atTurn (turnOf (.clusterReset c)) (opClusterReset c) s
def execSectionReset (sec : SecId) (s : State) : Host.Outcome State Fault Refusal :=
  atTurn (turnOf (.sectionReset sec)) (opSectionReset sec) s

/-! ### Responses -/

def execMulProductWrite (e : EngId) (k : CtxId) (s : State) : Host.Outcome State Fault Refusal :=
  atTurn (turnOf (.mulProductWrite e k)) (opMulProductWrite (ctxNo e k)) s
def execMacAccumulate (e : EngId) (k : CtxId) (s : State) : Host.Outcome State Fault Refusal :=
  atTurn (turnOf (.macAccumulate e k)) (opMacAccumulate (ctxNo e k)) s
def execDivideResult (e : EngId) (s : State) : Host.Outcome State Fault Refusal :=
  atTurn (turnOf (.divideResult e)) (opDivideResult e) s
def execAffixRequest (c : CluId) (s : State) : Host.Outcome State Fault Refusal :=
  atTurn (turnOf (.affixRequest c)) (opAffixRequest c) s
def execAffixResponse (c : CluId) (r : AfxResponse) (s : State) : Host.Outcome State Fault Refusal :=
  atTurn (turnOf (.affixResponse c r)) (opAffixResponse c r) s
def execAffixTimeout (e : EngId) (tag : BitVec 5) (s : State) : Host.Outcome State Fault Refusal :=
  atTurn (turnOf (.affixTimeout e tag)) (opAffixTimeout e tag) s
def execLongStepEnd (e : EngId) (k : CtxId) (ecc : Ecc) (s : State) : Host.Outcome State Fault Refusal :=
  atTurn (turnOf (.longStepEnd e k ecc)) (opLongStepEnd (ctxNo e k) ecc) s
def execCallFrameDone (e : EngId) (k : Merge CtxId) (s : State) : Host.Outcome State Fault Refusal :=
  atTurn (turnOf (.callFrameDone e k)) (opCallFrameDone (ctxNo e k.of) k.ecc) s
def execRetRestoreDone (e : EngId) (k : CtxId) (ecc : Ecc) (s : State) : Host.Outcome State Fault Refusal :=
  atTurn (turnOf (.retRestoreDone e k ecc)) (opRetRestoreDone (ctxNo e k) ecc) s
def execFenceComplete (e : EngId) (k : CtxId) (s : State) : Host.Outcome State Fault Refusal :=
  atTurn (turnOf (.fenceComplete e k)) (opFenceComplete (ctxNo e k)) s
def execWaitTimeout (e : EngId) (k : CtxId) (s : State) : Host.Outcome State Fault Refusal :=
  atTurn (turnOf (.waitTimeout e k)) (opWaitTimeout (ctxNo e k)) s
def execSyncTimeout (e : EngId) (k : CtxId) (s : State) : Host.Outcome State Fault Refusal :=
  atTurn (turnOf (.syncTimeout e k)) (opSyncTimeout (ctxNo e k)) s
def execAtDue (e : EngId) (k : CtxId) (s : State) : Host.Outcome State Fault Refusal :=
  atTurn (turnOf (.atDue e k)) (opAtDue (ctxNo e k)) s
def execAtTarget (e : EngId) (k : CtxId) (s : State) : Host.Outcome State Fault Refusal :=
  atTurn (turnOf (.atTarget e k)) (opAtTarget (ctxNo e k)) s
def execLeaseExpiry (tbl : BitVec 4) (owner : CtxNo) (s : State) : Host.Outcome State Fault Refusal :=
  atTurn (turnOf (.leaseExpiry tbl owner)) (opLeaseExpiry tbl owner) s

/-! ### Shifters -/

def execPinGroupGrant (c : CluId) (g : BitVec 4) (s : State) : Host.Outcome State Fault Refusal :=
  atTurn (turnOf (.pinGroupGrant c g)) (opPinGroupGrant c g) s
def execShiftBitStart (c : CluId) (g : BitVec 4) (s : State) : Host.Outcome State Fault Refusal :=
  atTurn (turnOf (.shiftBitStart c g)) (opShiftBitStart c g) s
def execShiftBitEnd (c : CluId) (g : BitVec 4) (s : State) : Host.Outcome State Fault Refusal :=
  atTurn (turnOf (.shiftBitEnd c g)) (opShiftBitEnd c g) s
def execShiftWordEnd (c : CluId) (g : BitVec 4) (s : State) : Host.Outcome State Fault Refusal :=
  atTurn (turnOf (.shiftWordEnd c g)) (opShiftWordEnd c g) s
def execLaneEdge (c : CluId) (levels : BitVec 16) (s : State) : Host.Outcome State Fault Refusal :=
  atTurn (turnOf (.laneEdge c levels)) (opLaneEdge c levels) s

/-! ### Swaps -/

def execParkSpillStart (e : EngId) (k : CtxId) (s : State) : Host.Outcome State Fault Refusal :=
  atTurn (turnOf (.parkSpillStart e k)) (opParkSpillStart (ctxNo e k)) s
def execChannelFillStart (e : EngId) (k : CtxId) (s : State) : Host.Outcome State Fault Refusal :=
  atTurn (turnOf (.channelFillStart e k)) (opChannelFillStart (ctxNo e k)) s
def execChannelSpillEnd (e : EngId) (k : CtxId) (ecc : Ecc) (s : State) : Host.Outcome State Fault Refusal :=
  atTurn (turnOf (.channelSpillEnd e k ecc)) (opChannelSpillEnd (ctxNo e k) ecc) s
def execChannelFillEnd (e : EngId) (k : CtxId) (ecc : Ecc) (s : State) : Host.Outcome State Fault Refusal :=
  atTurn (turnOf (.channelFillEnd e k ecc)) (opChannelFillEnd (ctxNo e k) ecc) s

/-! ### Tap -/

def execExtest (s : State) : Host.Outcome State Fault Refusal :=
  atTurn (turnOf .extest) (fun b => boundary (testOnly b .extest) b) s
def execSamplePreload (s : State) : Host.Outcome State Fault Refusal := atTurn (turnOf .samplePreload) (boundary .sample) s
def execIdcode (s : State) : Host.Outcome State Fault Refusal :=
  atTurn (turnOf .idcode) (fun b => loadIr .idcode (idcodeWord b) b) s
def execClamp (s : State) : Host.Outcome State Fault Refusal :=
  atTurn (turnOf .clamp) (fun b => loadIr (testOnly b .clamp) 0 b) s
def execHighz (s : State) : Host.Outcome State Fault Refusal :=
  atTurn (turnOf .highz) (fun b => loadIr (testOnly b .highz) 0 b) s
def execTapScan (s : State) : Host.Outcome State Fault Refusal :=
  atTurn (turnOf .tapScan) (fun b => loadIr (testOnly b .scan) 0 b) s
def execBypass (s : State) : Host.Outcome State Fault Refusal := atTurn (fun _ => Turn.free none) (loadIr .bypass 0) s
def execTapReset (s : State) : Host.Outcome State Fault Refusal := atTurn (fun _ => Turn.free none) (loadIr .bypass 0) s

/-! ### Timers -/

def execTimerStep (c : CluId) (x : BitVec 6) (s : State) : Host.Outcome State Fault Refusal :=
  atTurn (turnOf (.timerStep c x)) (opTimerStep c x) s
def execTimerGoRelease (s : State) : Host.Outcome State Fault Refusal := atTurn (turnOf .timerGoRelease) opTimerGoRelease s
def execTicksec (s : State) : Host.Outcome State Fault Refusal := atTurn (turnOf .ticksec) opTicksec s
def execEvtInEdge (n : BitVec 5) (s : State) : Host.Outcome State Fault Refusal :=
  atTurn (turnOf (.evtInEdge n)) (opEvtInEdge n) s
def execEvtOutChange (n : BitVec 5) (s : State) : Host.Outcome State Fault Refusal :=
  atTurn (turnOf (.evtOutChange n)) (opEvtOutChange n) s
def execEvtOutPulseEnd (n : BitVec 5) (s : State) : Host.Outcome State Fault Refusal :=
  atTurn (turnOf (.evtOutPulseEnd n)) (opEvtOutPulseEnd n) s

end Sys2Proof.Machine
end

