-- ==== Sys2Proof/Machine/PortRows.lean ====
section
/-! DEFINITION. The rows of the opcode table that are register accesses: each is one access of the register that it names, by the origin
that it names (Ports.lean). -/

namespace Sys2Proof.Machine
open Sys2Proof
def execMemoryLoadResult (e : EngId) (tag : BitVec 5) (ecc : Ecc) (s : State) : Host.Outcome State Fault Refusal :=
  atTurn (turnOf (.memoryLoadResult e tag ecc)) (opLoadResponse e tag ecc) s
def execStoreAccepted (e : EngId) (tag : Merge (BitVec 5)) (s : State) : Host.Outcome State Fault Refusal :=
  atTurn (turnOf (.storeAccepted e tag)) (opStoreResponse e tag.of tag.ecc) s
def execRegisterWrite (o : Origin) (addr : BitVec 24) (data : Reg32) (s : State) : Host.Outcome State Fault Refusal :=
  atTurn (fun b => portTurn o true (portWin o addr) b) (addrAccess o addr (.write data)) s
def execReadClearRead (o : Origin) (addr : BitVec 24) (s : State) : Host.Outcome State Fault Refusal :=
  atTurn (fun b => portTurn o false (portWin o addr) b) (addrAccess o addr .read) s
def execCtxRegisterWrite (o : Origin) (e : EngId) (k : CtxId) (reg : CtxReg) (data : Reg32) (s : State) :
    Host.Outcome State Fault Refusal :=
  atTurn (fun b => portTurn o true (.eng e (0x100 + 0x30 * k.toNat + ctxRegOff reg)) b) (portAccess o (.eng e (0x100 + 0x30 * k.toNat + ctxRegOff reg)) (.write data)) s
def execCtxResetRequest (o : Origin) (e : EngId) (mask : BitVec 16) (s : State) : Host.Outcome State Fault Refusal :=
  atTurn (fun b => portTurn o true (.eng e 0x08) b) (portAccess o (.eng e 0x08) (.write (mask.setWidth 32))) s
def execEngineResetRequest (o : Origin) (e : EngId) (s : State) : Host.Outcome State Fault Refusal :=
  atTurn (fun b => portTurn o true (.eng e 0x08) b) (portAccess o (.eng e 0x08) (.write 0x10000)) s
def execEngLbufInval (o : Origin) (e : EngId) (s : State) : Host.Outcome State Fault Refusal :=
  atTurn (fun b => portTurn o true (.eng e 0x20) b) (portAccess o (.eng e 0x20) (.write 0x80000000)) s
def execEngXbEstatWrite (o : Origin) (e : EngId) (level2 : Bool) (data : Reg32) (s : State) :
    Host.Outcome State Fault Refusal :=
  atTurn (fun b => portTurn o true (.eng e (if level2 then 0xE0 else 0xB0)) b) (portAccess o (.eng e (if level2 then 0xE0 else 0xB0)) (.write data)) s
def execTmrCfgWrite (o : Origin) (c : CluId) (x : BitVec 6) (data : Reg32) (s : State) : Host.Outcome State Fault Refusal :=
  atTurn (fun b => portTurn o true (.clu c (tmrOff x)) b) (portAccess o (.clu c (tmrOff x)) (.write data)) s
def execTmrWhiCommit (o : Origin) (c : CluId) (data : BitVec 16) (s : State) : Host.Outcome State Fault Refusal :=
  atTurn (fun b => portTurn o true (.clu c 0xBC8) b) (portAccess o (.clu c 0xBC8) (.write (data.setWidth 32))) s
def execTmrCapLoRead (o : Origin) (c : CluId) (x : BitVec 6) (s : State) : Host.Outcome State Fault Refusal :=
  atTurn (fun b => portTurn o false (.clu c (tmrOff x + 0x10)) b) (portAccess o (.clu c (tmrOff x + 0x10)) .read) s
def execTimerGo (o : Origin) (s : State) : Host.Outcome State Fault Refusal :=
  atTurn (fun b => portTurn o true (.inst 0x28) b) (portAccess o (.inst 0x28) (.write 1)) s
def execTimerGoat (o : Origin) (s : State) : Host.Outcome State Fault Refusal :=
  atTurn (fun b => portTurn o true (.inst 0x28) b) (portAccess o (.inst 0x28) (.write 2)) s
def execInstSwev (o : Origin) (ev : Reg32) (s : State) : Host.Outcome State Fault Refusal :=
  atTurn (fun b => portTurn o true (.inst 0x38) b) (portAccess o (.inst 0x38) (.write ev)) s
def execTirLoRead (o : Origin) (off : BitVec 16) (s : State) : Host.Outcome State Fault Refusal :=
  atTurn (fun b => portTurn o false (.tir off.toNat) b) (addrAccess o (0x020000 + off.setWidth 24) .read) s
def execLaneQcfgWrite (o : Origin) (c : CluId) (data : Reg32) (s : State) : Host.Outcome State Fault Refusal :=
  atTurn (fun b => portTurn o true (.clu c 0xC10) b) (portAccess o (.clu c 0xC10) (.write data)) s
def execLaneTxpush (o : Origin) (c : CluId) (q : BitVec 3) (data : BitVec 16) (s : State) : Host.Outcome State Fault Refusal :=
  atTurn (fun b => portTurn o true (.clu c (0xC84 + 8 * q.toNat)) b) (portAccess o (.clu c (0xC84 + 8 * q.toNat)) (.write (data.setWidth 32))) s
def execLaneRxqPop (o : Origin) (c : CluId) (q : BitVec 3) (s : State) : Host.Outcome State Fault Refusal :=
  atTurn (fun b => portTurn o true (lqWin c (8 + q.setWidth 4)) b) (portAccess o (lqWin c (8 + q.setWidth 4)) (.write 0x80000000)) s
def execLaneQueueFlush (o : Origin) (c : CluId) (lq : BitVec 4) (s : State) : Host.Outcome State Fault Refusal :=
  atTurn (fun b => portTurn o true (lqWin c lq) b) (portAccess o (lqWin c lq) (.write 0x40000000)) s
def execLaneCaptLoRead (o : Origin) (c : CluId) (g : BitVec 4) (s : State) : Host.Outcome State Fault Refusal :=
  atTurn (fun b => portTurn o false (.clu c (0xE00 + 16 * g.toNat)) b) (portAccess o (.clu c (0xE00 + 16 * g.toNat)) .read) s
def execInjectGo (o : Origin) (e : EngId) (k : CtxId) (sys : Bool) (s : State) : Host.Outcome State Fault Refusal :=
  atTurn (fun b => portTurn o true (.eng e 0x3C) b) (portAccess o (.eng e 0x3C) (.write (fld 0 k ||| bit 4 sys ||| bit 5 true))) s
def execInjectCancel (o : Origin) (e : EngId) (k : CtxId) (s : State) : Host.Outcome State Fault Refusal :=
  atTurn (fun b => portTurn o true (.eng e 0x3C) b) (portAccess o (.eng e 0x3C) (.write (fld 0 k ||| bit 6 true))) s
def execCluCsRaddrWrite (o : Origin) (c : CluId) (addr : CsAddr) (s : State) : Host.Outcome State Fault Refusal :=
  atTurn (fun b => portTurn o true (.clu c 0x40C) b) (portAccess o (.clu c 0x40C) (.write (addr.setWidth 32))) s
def execDmaStart (o : Origin) (n : BitVec 8) (s : State) : Host.Outcome State Fault Refusal :=
  atTurn (fun b => portTurn o true (.dma n 0) b) (portAccess o (.dma n 0) (.write 1)) s
def execDmaPause (o : Origin) (n : BitVec 8) (s : State) : Host.Outcome State Fault Refusal :=
  atTurn (fun b => portTurn o true (.dma n 0) b) (portAccess o (.dma n 0) (.write 2)) s
def execDmaResume (o : Origin) (n : BitVec 8) (s : State) : Host.Outcome State Fault Refusal :=
  atTurn (fun b => portTurn o true (.dma n 0) b) (portAccess o (.dma n 0) (.write 4)) s
def execDmaAbort (o : Origin) (n : BitVec 8) (s : State) : Host.Outcome State Fault Refusal :=
  atTurn (fun b => portTurn o true (.dma n 0) b) (portAccess o (.dma n 0) (.write 8)) s
def execDmaClrerr (o : Origin) (n : BitVec 8) (s : State) : Host.Outcome State Fault Refusal :=
  atTurn (fun b => portTurn o true (.dma n 0) b) (portAccess o (.dma n 0) (.write 16)) s
def execDmaShadowWrite (o : Origin) (n : BitVec 8) (reg : DmaReg) (data : Reg32) (s : State) :
    Host.Outcome State Fault Refusal :=
  atTurn (fun b => portTurn o true (.dma n (dmaRegOff reg)) b) (portAccess o (.dma n (dmaRegOff reg)) (.write data)) s
def execRingDb (o : Origin) (r : BitVec 12) (tail : Reg32) (s : State) : Host.Outcome State Fault Refusal :=
  atTurn (fun b => portTurn o true (.ring r 0) b) (portAccess o (.ring r 0) (.write tail)) s
def execRingHosterrClear (o : Origin) (r : BitVec 12) (s : State) : Host.Outcome State Fault Refusal :=
  atTurn (fun b => portTurn o true (.ring r 0xC) b) (portAccess o (.ring r 0xC) (.write 0x10)) s
def execInstConcTake (o : Origin) (s : State) : Host.Outcome State Fault Refusal :=
  atTurn (fun b => portTurn o false (.inst 0x800) b) (portAccess o (.inst 0x800) .read) s
def execInstConcDone (o : Origin) (data : Reg32) (s : State) : Host.Outcome State Fault Refusal :=
  atTurn (fun b => portTurn o true (.inst 0x810) b) (portAccess o (.inst 0x810) (.write data)) s
def execFedTxGo (o : Origin) (timed : Bool) (s : State) : Host.Outcome State Fault Refusal :=
  atTurn (fun b => portTurn o true (.fed 0x74) b) (portAccess o (.fed 0x74) (.write (bit 0 true ||| bit 1 timed))) s
def execFedRxtake (o : Origin) (s : State) : Host.Outcome State Fault Refusal :=
  atTurn (fun b => portTurn o false (.fed 0x80) b) (portAccess o (.fed 0x80) .read) s
def execFedRxfree (o : Origin) (slot : BitVec 11) (s : State) : Host.Outcome State Fault Refusal :=
  atTurn (fun b => portTurn o true (.fed 0x84) b) (portAccess o (.fed 0x84) (.write (slot.setWidth 32))) s
def execMbxDb (o : Origin) (m : BitVec 6) (s : State) : Host.Outcome State Fault Refusal :=
  atTurn (fun b => portTurn o true (.mbx m 0x80) b) (portAccess o (.mbx m 0x80) (.write 1)) s
def execSynEvack (o : Origin) (s : State) : Host.Outcome State Fault Refusal :=
  atTurn (fun b => portTurn o true (.syn 0x0C) b) (portAccess o (.syn 0x0C) (.write 1)) s
def execInstResetBlock (o : Origin) (key : BitVec 8) (s : State) : Host.Outcome State Fault Refusal :=
  atTurn (fun b => portTurn o true (.inst 0x10) b) (portAccess o (.inst 0x10) (.write (bit 0 true ||| fld 8 key))) s
def execInstResetSec (o : Origin) (mask : BitVec 8) (s : State) : Host.Outcome State Fault Refusal :=
  atTurn (fun b => portTurn o true (.inst 0x10) b) (portAccess o (.inst 0x10) (.write (fld 16 mask))) s
def execCluReset (o : Origin) (c : CluId) (s : State) : Host.Outcome State Fault Refusal :=
  atTurn (fun b => portTurn o true (.clu c 0x08) b) (portAccess o (.clu c 0x08) (.write 1)) s
def execCluWdkick (o : Origin) (c : CluId) (data : Reg32) (s : State) : Host.Outcome State Fault Refusal :=
  atTurn (fun b => portTurn o true (.clu c 0x10) b) (portAccess o (.clu c 0x10) (.write data)) s
def execImpInjGo (o : Origin) (data : Reg32) (s : State) : Host.Outcome State Fault Refusal :=
  atTurn (fun b => portTurn o true (.imp 0x20) b) (portAccess o (.imp 0x20) (.write (data ||| bit 31 true))) s
def execImpModectlStop (o : Origin) (s : State) : Host.Outcome State Fault Refusal :=
  atTurn (fun b => portTurn o true (.imp 0x2C) b) (portAccess o (.imp 0x2C) (.write 1)) s
def execImpModectlBreset (o : Origin) (key : BitVec 8) (s : State) : Host.Outcome State Fault Refusal :=
  atTurn (fun b => portTurn o true (.imp 0x2C) b) (portAccess o (.imp 0x2C) (.write (bit 1 true ||| fld 8 key))) s
def execImpKeyctlRevoke (o : Origin) (s : State) : Host.Outcome State Fault Refusal :=
  atTurn (fun b => portTurn o true (.imp 0x30) b) (portAccess o (.imp 0x30) (.write 2)) s
def execImpTestlockWrite (o : Origin) (data : Reg32) (s : State) : Host.Outcome State Fault Refusal :=
  atTurn (fun b => portTurn o true (.imp 0x28) b) (portAccess o (.imp 0x28) (.write data)) s
def execImpSrcCfgWrite (o : Origin) (src : BitVec 11) (data : Reg32) (s : State) : Host.Outcome State Fault Refusal :=
  atTurn (fun b => portTurn o true (.imp (0x2000 + 4 * src.toNat)) b) (portAccess o (.imp (0x2000 + 4 * src.toNat)) (.write data)) s
def execImpPinWrite (o : Origin) (level : Bool) (s : State) : Host.Outcome State Fault Refusal :=
  atTurn (fun b => portTurn o true (.imp 0x04) b) (portAccess o (.imp 0x04) (.write (bit 0 level))) s
def execImpLogPop (o : Origin) (s : State) : Host.Outcome State Fault Refusal :=
  atTurn (fun b => portTurn o false (.imp 0x10) b) (portAccess o (.imp 0x10) .read) s
def execImpPlDataHi (o : Origin) (h : BitVec 8) (data : BitVec 16) (s : State) : Host.Outcome State Fault Refusal :=
  atTurn (fun b => portTurn o true (plWin h 0x0C) b) (portAccess o (plWin h 0x0C) (.write (data.setWidth 32))) s
def execImpPlCommit (o : Origin) (h : BitVec 8) (s : State) : Host.Outcome State Fault Refusal :=
  atTurn (fun b => portTurn o true (plWin h 0x10) b) (portAccess o (plWin h 0x10) (.write 1)) s
def execHeadShwHi (o : Origin) (h : BitVec 8) (data : Reg32) (s : State) : Host.Outcome State Fault Refusal :=
  atTurn (fun b => portTurn o true (.head h 0x48) b) (portAccess o (.head h 0x48) (.write data)) s
def execHeadCommit (o : Origin) (h : BitVec 8) (s : State) : Host.Outcome State Fault Refusal :=
  atTurn (fun b => portTurn o true (.head h 0x3C) b) (portAccess o (.head h 0x3C) (.write 1)) s
def execDbgHalt (o : Origin) (e : EngId) (s : State) : Host.Outcome State Fault Refusal :=
  atTurn (fun b => portTurn o true (engDbg e 4) b) (portAccess o (engDbg e 4) (.write 1)) s
def execDbgChalt (o : Origin) (e : EngId) (mask : BitVec 16) (s : State) : Host.Outcome State Fault Refusal :=
  atTurn (fun b => portTurn o true (engDbg e 4) b) (portAccess o (engDbg e 4) (.write (fld 16 mask))) s
def execDbgRelease (o : Origin) (e : EngId) (s : State) : Host.Outcome State Fault Refusal :=
  atTurn (fun b => portTurn o true (engDbg e 4) b) (portAccess o (engDbg e 4) (.write 2)) s
def execDbgStep (o : Origin) (e : EngId) (k : CtxId) (s : State) : Host.Outcome State Fault Refusal :=
  atTurn (fun b => portTurn o true (engDbg e 4) b) (portAccess o (engDbg e 4) (.write (bit 2 true ||| fld 4 k))) s
def execDbgStepabort (o : Origin) (e : EngId) (s : State) : Host.Outcome State Fault Refusal :=
  atTurn (fun b => portTurn o true (engDbg e 4) b) (portAccess o (engDbg e 4) (.write 8)) s
def execDbgMdata (o : Origin) (write : Bool) (data : Reg32) (s : State) : Host.Outcome State Fault Refusal :=
  atTurn (fun b => portTurn o true (.inst 0xA10) b) (portAccess o (.inst 0xA10) (if write then .write data else .read)) s
def execDbgPcmpAlloc (o : Origin) (c : CluId) (p : BitVec 4) (data : Reg32) (s : State) : Host.Outcome State Fault Refusal :=
  atTurn (fun b => portTurn o true (.clu c (0x1200 + 16 * p.toNat)) b) (portAccess o (.clu c (0x1200 + 16 * p.toNat)) (.write data)) s
def execPerturbSeedWrite (o : Origin) (seed : Reg32) (s : State) : Host.Outcome State Fault Refusal :=
  atTurn (fun b => portTurn o true (.inst 0xB04) b) (portAccess o (.inst 0xB04) (.write seed)) s

end Sys2Proof.Machine
end

