-- ==== Sys2Proof/Machine/Words.lean ====
section
/-! DEFINITION. Which words hold the operation of each row of the opcode table that is a slot of a microword. -/

namespace Sys2Proof.Machine
open Sys2Proof

/-- NEXT (R91). -/
def rowNext (w : MWord) : Bool := w.seq == 0
/-- JUMP (R91). -/
def rowJump (w : MWord) : Bool := w.seq == 1
/-- CALL (R97..R100). -/
def rowCall (w : MWord) : Bool := w.seq == 2
/-- RET (R101). -/
def rowRet (w : MWord) : Bool := w.seq == 3
/-- RETX (R165). -/
def rowRetx (w : MWord) : Bool := w.seq == 4
/-- TRAP (R91). -/
def rowTrap (w : MWord) : Bool := w.seq == 5
/-- WAIT (R50..R52). -/
def rowWait (w : MWord) : Bool := w.seq == 6
/-- AT (R53, R54). -/
def rowAtW (w : MWord) : Bool := w.seq == 7
/-- DISPATCH (R93). -/
def rowDispatch (w : MWord) : Bool := w.seq == 8
/-- LOOP (R94). -/
def rowLoop (w : MWord) : Bool := w.seq == 9
/-- YIELD (R55). -/
def rowYield (w : MWord) : Bool := w.seq == 10
/-- PARK (R61). -/
def rowPark (w : MWord) : Bool := w.seq == 11
/-- SYNC (R95). -/
def rowSync (w : MWord) : Bool := w.seq == 12
/-- FENCE (R96, R235). -/
def rowFence (w : MWord) : Bool := w.seq == 13
/-- HALT (R465). -/
def rowHalt (w : MWord) : Bool := w.seq == 14
/-- MOV (R104). -/
def rowMov (w : MWord) : Bool := w.aluop == 0x01
/-- ADD (R117). -/
def rowAdd (w : MWord) : Bool := w.aluop == 0x02
/-- ADC (R118). -/
def rowAdc (w : MWord) : Bool := w.aluop == 0x03
/-- SUB (R117). -/
def rowSub (w : MWord) : Bool := w.aluop == 0x04
/-- SBC (R118). -/
def rowSbc (w : MWord) : Bool := w.aluop == 0x05
/-- CMP (R116). -/
def rowCmp (w : MWord) : Bool := w.aluop == 0x06
/-- NEG (R121). -/
def rowNeg (w : MWord) : Bool := w.aluop == 0x07
/-- ABS (R121). -/
def rowAbs (w : MWord) : Bool := w.aluop == 0x08
/-- ADDS, SUBS, NEGS, ABSS (R119). -/
def rowAddsSubsNegsAbss (w : MWord) : Bool := decide (0x09 ≤ w.aluop.toNat ∧ w.aluop.toNat ≤ 0x0C)
/-- MIN, MAX (R123). -/
def rowMinMax (w : MWord) : Bool := w.aluop == 0x0D || w.aluop == 0x0E
/-- MINU, MAXU (R123). -/
def rowMinuMaxu (w : MWord) : Bool := w.aluop == 0x0F || w.aluop == 0x10
/-- IDX (R123). -/
def rowIdx (w : MWord) : Bool := w.aluop == 0x11
/-- AND, OR, XOR, ANDN (R104). -/
def rowAndOrXorAndn (w : MWord) : Bool := decide (0x18 ≤ w.aluop.toNat ∧ w.aluop.toNat ≤ 0x1B)
/-- NOT (R104). -/
def rowNot (w : MWord) : Bool := w.aluop == 0x1C
/-- TST (R116). -/
def rowTst (w : MWord) : Bool := w.aluop == 0x1D
/-- SHL, SHR, SAR, ROL, ROR (R122). -/
def rowShlShrSarRolRor (w : MWord) : Bool := decide (0x20 ≤ w.aluop.toNat ∧ w.aluop.toNat ≤ 0x24)
/-- SHLI, SHRI, SARI, ROLI, RORI (R122). -/
def rowShliShriSariRoliRori (w : MWord) : Bool := decide (0x28 ≤ w.aluop.toNat ∧ w.aluop.toNat ≤ 0x2C)
/-- CLZ (R123). -/
def rowClz (w : MWord) : Bool := w.aluop == 0x30
/-- POPC (R123). -/
def rowPopc (w : MWord) : Bool := w.aluop == 0x31
/-- SEXT (R123). -/
def rowSext (w : MWord) : Bool := w.aluop == 0x32
/-- ZEXT (R123). -/
def rowZext (w : MWord) : Bool := w.aluop == 0x33
/-- BSWAP (R123). -/
def rowBswap (w : MWord) : Bool := w.aluop == 0x34
/-- BREV (R123). -/
def rowBrev (w : MWord) : Bool := w.aluop == 0x35
/-- MUL, MULU (R124). -/
def rowMulMulu (w : MWord) : Bool := w.aluop == 0x40 || w.aluop == 0x41
/-- DIV, DIVU (R127). -/
def rowDivDivu (w : MWord) : Bool := w.aluop == 0x42 || w.aluop == 0x43
/-- MAC, MACU (R126). -/
def rowMacMacu (w : MWord) : Bool := w.aluop == 0x44 || w.aluop == 0x45
/-- MSU (R126). -/
def rowMsu (w : MWord) : Bool := w.aluop == 0x46
/-- ACLR (R130). -/
def rowAclr (w : MWord) : Bool := w.aluop == 0x48
/-- AADD, ASUB (R130). -/
def rowAaddAsub (w : MWord) : Bool := w.aluop == 0x49 || w.aluop == 0x4A
/-- ASHR (R130). -/
def rowAshr (w : MWord) : Bool := w.aluop == 0x4B
/-- AHI (R130). -/
def rowAhi (w : MWord) : Bool := w.aluop == 0x4C
/-- ASAT (R130). -/
def rowAsat (w : MWord) : Bool := w.aluop == 0x4D
/-- CKADD (R131). -/
def rowCkadd (w : MWord) : Bool := w.aluop == 0x50
/-- CKFOLD (R131). -/
def rowCkfold (w : MWord) : Bool := w.aluop == 0x51
/-- CRCB (R133). -/
def rowCrcb (w : MWord) : Bool := w.aluop == 0x52
/-- CRCW (R133). -/
def rowCrcw (w : MWord) : Bool := w.aluop == 0x53
/-- CRCFIN (R133). -/
def rowCrcfin (w : MWord) : Bool := w.aluop == 0x54
/-- AFX0..AFX15 (R70). -/
def rowAfx (w : MWord) : Bool := w.isAfx
/-- LD1, LD1S (R106). -/
def rowLd1Ld1s (w : MWord) : Bool := w.memop == 0x01 || w.memop == 0x02
/-- LD2, LD2S (R106). -/
def rowLd2Ld2s (w : MWord) : Bool := w.memop == 0x03 || w.memop == 0x04
/-- LD4, LD4S (R106). -/
def rowLd4Ld4s (w : MWord) : Bool := w.memop == 0x05 || w.memop == 0x06
/-- LD6 (R106). -/
def rowLd6 (w : MWord) : Bool := w.memop == 0x07
/-- LD8, LD8S (R106). -/
def rowLd8Ld8s (w : MWord) : Bool := w.memop == 0x08 || w.memop == 0x09
/-- LD12 (R106). -/
def rowLd12 (w : MWord) : Bool := w.memop == 0x0A
/-- ST1, ST2, ST4, ST6 (R106). -/
def rowSt1St2St4St6 (w : MWord) : Bool := decide (0x10 ≤ w.memop.toNat ∧ w.memop.toNat ≤ 0x13)
/-- ST8, ST12 (R106). -/
def rowSt8St12 (w : MWord) : Bool := w.memop == 0x14 || w.memop == 0x15
/-- LR6 (R246). -/
def rowLr6 (w : MWord) : Bool := w.memop == 0x18
/-- SC6 (R247). -/
def rowSc6 (w : MWord) : Bool := w.memop == 0x19
/-- REL (R247). -/
def rowRel (w : MWord) : Bool := w.memop == 0x1A
/-- MOVE (R142). -/
def rowMove (w : MWord) : Bool := w.memop == 0x20
/-- FILL (R142). -/
def rowFill (w : MWord) : Bool := w.memop == 0x21
/-- CKSUM16 (R132). -/
def rowCksum16 (w : MWord) : Bool := w.memop == 0x22
/-- CKCRC (R133). -/
def rowCkcrc (w : MWord) : Bool := w.memop == 0x23
/-- SCAN (R142). -/
def rowScan (w : MWord) : Bool := w.memop == 0x24
/-- PUSH (R262). -/
def rowPush (w : MWord) : Bool := w.laneop == 0x01
/-- POP (R262). -/
def rowPop (w : MWord) : Bool := w.laneop == 0x02
/-- PEEK (R262). -/
def rowPeek (w : MWord) : Bool := w.laneop == 0x03
/-- SHO (R267). -/
def rowSho (w : MWord) : Bool := w.laneop == 0x04
/-- SHI (R267). -/
def rowShi (w : MWord) : Bool := w.laneop == 0x05
/-- SHX (R267). -/
def rowShx (w : MWord) : Bool := w.laneop == 0x06
/-- OUT (R259). -/
def rowOut (w : MWord) : Bool := w.laneop == 0x07
/-- OEN (R259). -/
def rowOen (w : MWord) : Bool := w.laneop == 0x08
/-- IN (R259). -/
def rowInW (w : MWord) : Bool := w.laneop == 0x09
/-- RESETPROG (R277). -/
def rowResetprog (w : MWord) : Bool := w.laneop == 0x0A
/-- QFLUSH (R262). -/
def rowQflush (w : MWord) : Bool := w.laneop == 0x0B
/-- CAPARM (R279). -/
def rowCaparm (w : MWord) : Bool := w.laneop == 0x0C
/-- GETL (R111). -/
def rowGetl (w : MWord) : Bool := w.xfer == 0x01
/-- CLRL (R111). -/
def rowClrl (w : MWord) : Bool := w.xfer == 0x02
/-- GETEVM (R111). -/
def rowGetevm (w : MWord) : Bool := w.xfer == 0x03
/-- SETEVM (R111). -/
def rowSetevm (w : MWord) : Bool := w.xfer == 0x04
/-- GETSTK (R111). -/
def rowGetstk (w : MWord) : Bool := w.xfer == 0x05
/-- SETSTK (R111). -/
def rowSetstk (w : MWord) : Bool := w.xfer == 0x06
/-- GETECAUSE (R111). -/
def rowGetecause (w : MWord) : Bool := w.xfer == 0x08
/-- GETEUPC (R111). -/
def rowGeteupc (w : MWord) : Bool := w.xfer == 0x09
/-- GETEINFO (R111). -/
def rowGeteinfo (w : MWord) : Bool := w.xfer == 0x0A
/-- SETEUPC (R111). -/
def rowSeteupc (w : MWord) : Bool := w.xfer == 0x0B
/-- GETETk (R203). -/
def rowGetet (w : MWord) : Bool := decide (0x10 ≤ w.xfer.toNat ∧ w.xfer.toNat ≤ 0x13)
/-- SETETCk (R203). -/
def rowSetetc (w : MWord) : Bool := decide (0x14 ≤ w.xfer.toNat ∧ w.xfer.toNat ≤ 0x17)

end Sys2Proof.Machine
end

