-- ==== Sys2Proof/Machine/WordRows.lean ====
section
/-! DEFINITION. The rows of the opcode table that are slots of a microword. Each row issues the next word of the context that it names,
where that word holds the row's operation; the word acts whole (Issue.lean). -/

namespace Sys2Proof.Machine
open Sys2Proof
/-- NEXT (R91). -/
def execNext (e : EngId) (k : CtxId) (s : State) : Host.Outcome State Fault Refusal :=
  atTurn (turnOf (.next e k)) (issueAs rowNext (ctxNo e k)) s
/-- JUMP (R91). -/
def execJump (e : EngId) (k : CtxId) (s : State) : Host.Outcome State Fault Refusal :=
  atTurn (turnOf (.jump e k)) (issueAs rowJump (ctxNo e k)) s
/-- CALL (R97..R100). -/
def execCall (e : EngId) (k : CtxId) (s : State) : Host.Outcome State Fault Refusal :=
  atTurn (turnOf (.call e k)) (issueAs rowCall (ctxNo e k)) s
/-- RET (R101). -/
def execRet (e : EngId) (k : CtxId) (s : State) : Host.Outcome State Fault Refusal :=
  atTurn (turnOf (.ret e k)) (issueAs rowRet (ctxNo e k)) s
/-- RETX (R165). -/
def execRetx (e : EngId) (k : CtxId) (s : State) : Host.Outcome State Fault Refusal :=
  atTurn (turnOf (.retx e k)) (issueAs rowRetx (ctxNo e k)) s
/-- TRAP (R91). -/
def execTrap (e : EngId) (k : CtxId) (s : State) : Host.Outcome State Fault Refusal :=
  atTurn (turnOf (.trap e k)) (issueAs rowTrap (ctxNo e k)) s
/-- WAIT (R50..R52). -/
def execWait (e : EngId) (k : CtxId) (s : State) : Host.Outcome State Fault Refusal :=
  atTurn (turnOf (.wait e k)) (issueAs rowWait (ctxNo e k)) s
/-- AT (R53, R54). -/
def execAtW (e : EngId) (k : CtxId) (s : State) : Host.Outcome State Fault Refusal :=
  atTurn (turnOf (.atW e k)) (issueAs rowAtW (ctxNo e k)) s
/-- DISPATCH (R93). -/
def execDispatch (e : EngId) (k : CtxId) (s : State) : Host.Outcome State Fault Refusal :=
  atTurn (turnOf (.dispatch e k)) (issueAs rowDispatch (ctxNo e k)) s
/-- LOOP (R94). -/
def execLoop (e : EngId) (k : CtxId) (s : State) : Host.Outcome State Fault Refusal :=
  atTurn (turnOf (.loop e k)) (issueAs rowLoop (ctxNo e k)) s
/-- YIELD (R55). -/
def execYield (e : EngId) (k : CtxId) (s : State) : Host.Outcome State Fault Refusal :=
  atTurn (turnOf (.yield e k)) (issueAs rowYield (ctxNo e k)) s
/-- PARK (R61). -/
def execPark (e : EngId) (k : CtxId) (s : State) : Host.Outcome State Fault Refusal :=
  atTurn (turnOf (.park e k)) (issueAs rowPark (ctxNo e k)) s
/-- SYNC (R95). -/
def execSync (e : EngId) (k : CtxId) (s : State) : Host.Outcome State Fault Refusal :=
  atTurn (turnOf (.sync e k)) (issueAs rowSync (ctxNo e k)) s
/-- FENCE (R96, R235). -/
def execFence (e : EngId) (k : CtxId) (s : State) : Host.Outcome State Fault Refusal :=
  atTurn (turnOf (.fence e k)) (issueAs rowFence (ctxNo e k)) s
/-- HALT (R465). -/
def execHalt (e : EngId) (k : CtxId) (s : State) : Host.Outcome State Fault Refusal :=
  atTurn (turnOf (.halt e k)) (issueAs rowHalt (ctxNo e k)) s
/-- MOV (R104). -/
def execMov (e : EngId) (k : CtxId) (s : State) : Host.Outcome State Fault Refusal :=
  atTurn (turnOf (.mov e k)) (issueAs rowMov (ctxNo e k)) s
/-- ADD (R117). -/
def execAdd (e : EngId) (k : CtxId) (s : State) : Host.Outcome State Fault Refusal :=
  atTurn (turnOf (.add e k)) (issueAs rowAdd (ctxNo e k)) s
/-- ADC (R118). -/
def execAdc (e : EngId) (k : CtxId) (s : State) : Host.Outcome State Fault Refusal :=
  atTurn (turnOf (.adc e k)) (issueAs rowAdc (ctxNo e k)) s
/-- SUB (R117). -/
def execSub (e : EngId) (k : CtxId) (s : State) : Host.Outcome State Fault Refusal :=
  atTurn (turnOf (.sub e k)) (issueAs rowSub (ctxNo e k)) s
/-- SBC (R118). -/
def execSbc (e : EngId) (k : CtxId) (s : State) : Host.Outcome State Fault Refusal :=
  atTurn (turnOf (.sbc e k)) (issueAs rowSbc (ctxNo e k)) s
/-- CMP (R116). -/
def execCmp (e : EngId) (k : CtxId) (s : State) : Host.Outcome State Fault Refusal :=
  atTurn (turnOf (.cmp e k)) (issueAs rowCmp (ctxNo e k)) s
/-- NEG (R121). -/
def execNeg (e : EngId) (k : CtxId) (s : State) : Host.Outcome State Fault Refusal :=
  atTurn (turnOf (.neg e k)) (issueAs rowNeg (ctxNo e k)) s
/-- ABS (R121). -/
def execAbs (e : EngId) (k : CtxId) (s : State) : Host.Outcome State Fault Refusal :=
  atTurn (turnOf (.abs e k)) (issueAs rowAbs (ctxNo e k)) s
/-- ADDS, SUBS, NEGS, ABSS (R119). -/
def execAddsSubsNegsAbss (e : EngId) (k : CtxId) (s : State) : Host.Outcome State Fault Refusal :=
  atTurn (turnOf (.addsSubsNegsAbss e k)) (issueAs rowAddsSubsNegsAbss (ctxNo e k)) s
/-- MIN, MAX (R123). -/
def execMinMax (e : EngId) (k : CtxId) (s : State) : Host.Outcome State Fault Refusal :=
  atTurn (turnOf (.minMax e k)) (issueAs rowMinMax (ctxNo e k)) s
/-- MINU, MAXU (R123). -/
def execMinuMaxu (e : EngId) (k : CtxId) (s : State) : Host.Outcome State Fault Refusal :=
  atTurn (turnOf (.minuMaxu e k)) (issueAs rowMinuMaxu (ctxNo e k)) s
/-- IDX (R123). -/
def execIdx (e : EngId) (k : CtxId) (s : State) : Host.Outcome State Fault Refusal :=
  atTurn (turnOf (.idx e k)) (issueAs rowIdx (ctxNo e k)) s
/-- AND, OR, XOR, ANDN (R104). -/
def execAndOrXorAndn (e : EngId) (k : CtxId) (s : State) : Host.Outcome State Fault Refusal :=
  atTurn (turnOf (.andOrXorAndn e k)) (issueAs rowAndOrXorAndn (ctxNo e k)) s
/-- NOT (R104). -/
def execNot (e : EngId) (k : CtxId) (s : State) : Host.Outcome State Fault Refusal :=
  atTurn (turnOf (.not e k)) (issueAs rowNot (ctxNo e k)) s
/-- TST (R116). -/
def execTst (e : EngId) (k : CtxId) (s : State) : Host.Outcome State Fault Refusal :=
  atTurn (turnOf (.tst e k)) (issueAs rowTst (ctxNo e k)) s
/-- SHL, SHR, SAR, ROL, ROR (R122). -/
def execShlShrSarRolRor (e : EngId) (k : CtxId) (s : State) : Host.Outcome State Fault Refusal :=
  atTurn (turnOf (.shlShrSarRolRor e k)) (issueAs rowShlShrSarRolRor (ctxNo e k)) s
/-- SHLI, SHRI, SARI, ROLI, RORI (R122). -/
def execShliShriSariRoliRori (e : EngId) (k : CtxId) (s : State) : Host.Outcome State Fault Refusal :=
  atTurn (turnOf (.shliShriSariRoliRori e k)) (issueAs rowShliShriSariRoliRori (ctxNo e k)) s
/-- CLZ (R123). -/
def execClz (e : EngId) (k : CtxId) (s : State) : Host.Outcome State Fault Refusal :=
  atTurn (turnOf (.clz e k)) (issueAs rowClz (ctxNo e k)) s
/-- POPC (R123). -/
def execPopc (e : EngId) (k : CtxId) (s : State) : Host.Outcome State Fault Refusal :=
  atTurn (turnOf (.popc e k)) (issueAs rowPopc (ctxNo e k)) s
/-- SEXT (R123). -/
def execSext (e : EngId) (k : CtxId) (s : State) : Host.Outcome State Fault Refusal :=
  atTurn (turnOf (.sext e k)) (issueAs rowSext (ctxNo e k)) s
/-- ZEXT (R123). -/
def execZext (e : EngId) (k : CtxId) (s : State) : Host.Outcome State Fault Refusal :=
  atTurn (turnOf (.zext e k)) (issueAs rowZext (ctxNo e k)) s
/-- BSWAP (R123). -/
def execBswap (e : EngId) (k : CtxId) (s : State) : Host.Outcome State Fault Refusal :=
  atTurn (turnOf (.bswap e k)) (issueAs rowBswap (ctxNo e k)) s
/-- BREV (R123). -/
def execBrev (e : EngId) (k : CtxId) (s : State) : Host.Outcome State Fault Refusal :=
  atTurn (turnOf (.brev e k)) (issueAs rowBrev (ctxNo e k)) s
/-- MUL, MULU (R124). -/
def execMulMulu (e : EngId) (k : CtxId) (s : State) : Host.Outcome State Fault Refusal :=
  atTurn (turnOf (.mulMulu e k)) (issueAs rowMulMulu (ctxNo e k)) s
/-- DIV, DIVU (R127). -/
def execDivDivu (e : EngId) (k : CtxId) (s : State) : Host.Outcome State Fault Refusal :=
  atTurn (turnOf (.divDivu e k)) (issueAs rowDivDivu (ctxNo e k)) s
/-- MAC, MACU (R126). -/
def execMacMacu (e : EngId) (k : CtxId) (s : State) : Host.Outcome State Fault Refusal :=
  atTurn (turnOf (.macMacu e k)) (issueAs rowMacMacu (ctxNo e k)) s
/-- MSU (R126). -/
def execMsu (e : EngId) (k : CtxId) (s : State) : Host.Outcome State Fault Refusal :=
  atTurn (turnOf (.msu e k)) (issueAs rowMsu (ctxNo e k)) s
/-- ACLR (R130). -/
def execAclr (e : EngId) (k : CtxId) (s : State) : Host.Outcome State Fault Refusal :=
  atTurn (turnOf (.aclr e k)) (issueAs rowAclr (ctxNo e k)) s
/-- AADD, ASUB (R130). -/
def execAaddAsub (e : EngId) (k : CtxId) (s : State) : Host.Outcome State Fault Refusal :=
  atTurn (turnOf (.aaddAsub e k)) (issueAs rowAaddAsub (ctxNo e k)) s
/-- ASHR (R130). -/
def execAshr (e : EngId) (k : CtxId) (s : State) : Host.Outcome State Fault Refusal :=
  atTurn (turnOf (.ashr e k)) (issueAs rowAshr (ctxNo e k)) s
/-- AHI (R130). -/
def execAhi (e : EngId) (k : CtxId) (s : State) : Host.Outcome State Fault Refusal :=
  atTurn (turnOf (.ahi e k)) (issueAs rowAhi (ctxNo e k)) s
/-- ASAT (R130). -/
def execAsat (e : EngId) (k : CtxId) (s : State) : Host.Outcome State Fault Refusal :=
  atTurn (turnOf (.asat e k)) (issueAs rowAsat (ctxNo e k)) s
/-- CKADD (R131). -/
def execCkadd (e : EngId) (k : CtxId) (s : State) : Host.Outcome State Fault Refusal :=
  atTurn (turnOf (.ckadd e k)) (issueAs rowCkadd (ctxNo e k)) s
/-- CKFOLD (R131). -/
def execCkfold (e : EngId) (k : CtxId) (s : State) : Host.Outcome State Fault Refusal :=
  atTurn (turnOf (.ckfold e k)) (issueAs rowCkfold (ctxNo e k)) s
/-- CRCB (R133). -/
def execCrcb (e : EngId) (k : CtxId) (s : State) : Host.Outcome State Fault Refusal :=
  atTurn (turnOf (.crcb e k)) (issueAs rowCrcb (ctxNo e k)) s
/-- CRCW (R133). -/
def execCrcw (e : EngId) (k : CtxId) (s : State) : Host.Outcome State Fault Refusal :=
  atTurn (turnOf (.crcw e k)) (issueAs rowCrcw (ctxNo e k)) s
/-- CRCFIN (R133). -/
def execCrcfin (e : EngId) (k : CtxId) (s : State) : Host.Outcome State Fault Refusal :=
  atTurn (turnOf (.crcfin e k)) (issueAs rowCrcfin (ctxNo e k)) s
/-- AFX0..AFX15 (R70). -/
def execAfx (e : EngId) (k : CtxId) (s : State) : Host.Outcome State Fault Refusal :=
  atTurn (turnOf (.afx e k)) (issueAs rowAfx (ctxNo e k)) s
/-- LD1, LD1S (R106). -/
def execLd1Ld1s (e : EngId) (k : CtxId) (s : State) : Host.Outcome State Fault Refusal :=
  atTurn (turnOf (.ld1Ld1s e k)) (issueAs rowLd1Ld1s (ctxNo e k)) s
/-- LD2, LD2S (R106). -/
def execLd2Ld2s (e : EngId) (k : CtxId) (s : State) : Host.Outcome State Fault Refusal :=
  atTurn (turnOf (.ld2Ld2s e k)) (issueAs rowLd2Ld2s (ctxNo e k)) s
/-- LD4, LD4S (R106). -/
def execLd4Ld4s (e : EngId) (k : CtxId) (s : State) : Host.Outcome State Fault Refusal :=
  atTurn (turnOf (.ld4Ld4s e k)) (issueAs rowLd4Ld4s (ctxNo e k)) s
/-- LD6 (R106). -/
def execLd6 (e : EngId) (k : CtxId) (s : State) : Host.Outcome State Fault Refusal :=
  atTurn (turnOf (.ld6 e k)) (issueAs rowLd6 (ctxNo e k)) s
/-- LD8, LD8S (R106). -/
def execLd8Ld8s (e : EngId) (k : CtxId) (s : State) : Host.Outcome State Fault Refusal :=
  atTurn (turnOf (.ld8Ld8s e k)) (issueAs rowLd8Ld8s (ctxNo e k)) s
/-- LD12 (R106). -/
def execLd12 (e : EngId) (k : CtxId) (s : State) : Host.Outcome State Fault Refusal :=
  atTurn (turnOf (.ld12 e k)) (issueAs rowLd12 (ctxNo e k)) s
/-- ST1, ST2, ST4, ST6 (R106). -/
def execSt1St2St4St6 (e : EngId) (k : CtxId) (s : State) : Host.Outcome State Fault Refusal :=
  atTurn (turnOf (.st1St2St4St6 e k)) (issueAs rowSt1St2St4St6 (ctxNo e k)) s
/-- ST8, ST12 (R106). -/
def execSt8St12 (e : EngId) (k : CtxId) (s : State) : Host.Outcome State Fault Refusal :=
  atTurn (turnOf (.st8St12 e k)) (issueAs rowSt8St12 (ctxNo e k)) s
/-- LR6 (R246). -/
def execLr6 (e : EngId) (k : CtxId) (s : State) : Host.Outcome State Fault Refusal :=
  atTurn (turnOf (.lr6 e k)) (issueAs rowLr6 (ctxNo e k)) s
/-- SC6 (R247). -/
def execSc6 (e : EngId) (k : CtxId) (s : State) : Host.Outcome State Fault Refusal :=
  atTurn (turnOf (.sc6 e k)) (issueAs rowSc6 (ctxNo e k)) s
/-- REL (R247). -/
def execRel (e : EngId) (k : CtxId) (s : State) : Host.Outcome State Fault Refusal :=
  atTurn (turnOf (.rel e k)) (issueAs rowRel (ctxNo e k)) s
/-- MOVE (R142). -/
def execMove (e : EngId) (k : CtxId) (s : State) : Host.Outcome State Fault Refusal :=
  atTurn (turnOf (.move e k)) (issueAs rowMove (ctxNo e k)) s
/-- FILL (R142). -/
def execFill (e : EngId) (k : CtxId) (s : State) : Host.Outcome State Fault Refusal :=
  atTurn (turnOf (.fill e k)) (issueAs rowFill (ctxNo e k)) s
/-- CKSUM16 (R132). -/
def execCksum16 (e : EngId) (k : CtxId) (s : State) : Host.Outcome State Fault Refusal :=
  atTurn (turnOf (.cksum16 e k)) (issueAs rowCksum16 (ctxNo e k)) s
/-- CKCRC (R133). -/
def execCkcrc (e : EngId) (k : CtxId) (s : State) : Host.Outcome State Fault Refusal :=
  atTurn (turnOf (.ckcrc e k)) (issueAs rowCkcrc (ctxNo e k)) s
/-- SCAN (R142). -/
def execScan (e : EngId) (k : CtxId) (s : State) : Host.Outcome State Fault Refusal :=
  atTurn (turnOf (.scan e k)) (issueAs rowScan (ctxNo e k)) s
/-- PUSH (R262). -/
def execPush (e : EngId) (k : CtxId) (s : State) : Host.Outcome State Fault Refusal :=
  atTurn (turnOf (.push e k)) (issueAs rowPush (ctxNo e k)) s
/-- POP (R262). -/
def execPop (e : EngId) (k : CtxId) (s : State) : Host.Outcome State Fault Refusal :=
  atTurn (turnOf (.pop e k)) (issueAs rowPop (ctxNo e k)) s
/-- PEEK (R262). -/
def execPeek (e : EngId) (k : CtxId) (s : State) : Host.Outcome State Fault Refusal :=
  atTurn (turnOf (.peek e k)) (issueAs rowPeek (ctxNo e k)) s
/-- SHO (R267). -/
def execSho (e : EngId) (k : CtxId) (s : State) : Host.Outcome State Fault Refusal :=
  atTurn (turnOf (.sho e k)) (issueAs rowSho (ctxNo e k)) s
/-- SHI (R267). -/
def execShi (e : EngId) (k : CtxId) (s : State) : Host.Outcome State Fault Refusal :=
  atTurn (turnOf (.shi e k)) (issueAs rowShi (ctxNo e k)) s
/-- SHX (R267). -/
def execShx (e : EngId) (k : CtxId) (s : State) : Host.Outcome State Fault Refusal :=
  atTurn (turnOf (.shx e k)) (issueAs rowShx (ctxNo e k)) s
/-- OUT (R259). -/
def execOut (e : EngId) (k : CtxId) (s : State) : Host.Outcome State Fault Refusal :=
  atTurn (turnOf (.out e k)) (issueAs rowOut (ctxNo e k)) s
/-- OEN (R259). -/
def execOen (e : EngId) (k : CtxId) (s : State) : Host.Outcome State Fault Refusal :=
  atTurn (turnOf (.oen e k)) (issueAs rowOen (ctxNo e k)) s
/-- IN (R259). -/
def execInW (e : EngId) (k : CtxId) (s : State) : Host.Outcome State Fault Refusal :=
  atTurn (turnOf (.inW e k)) (issueAs rowInW (ctxNo e k)) s
/-- RESETPROG (R277). -/
def execResetprog (e : EngId) (k : CtxId) (s : State) : Host.Outcome State Fault Refusal :=
  atTurn (turnOf (.resetprog e k)) (issueAs rowResetprog (ctxNo e k)) s
/-- QFLUSH (R262). -/
def execQflush (e : EngId) (k : CtxId) (s : State) : Host.Outcome State Fault Refusal :=
  atTurn (turnOf (.qflush e k)) (issueAs rowQflush (ctxNo e k)) s
/-- CAPARM (R279). -/
def execCaparm (e : EngId) (k : CtxId) (s : State) : Host.Outcome State Fault Refusal :=
  atTurn (turnOf (.caparm e k)) (issueAs rowCaparm (ctxNo e k)) s
/-- GETL (R111). -/
def execGetl (e : EngId) (k : CtxId) (s : State) : Host.Outcome State Fault Refusal :=
  atTurn (turnOf (.getl e k)) (issueAs rowGetl (ctxNo e k)) s
/-- CLRL (R111). -/
def execClrl (e : EngId) (k : CtxId) (s : State) : Host.Outcome State Fault Refusal :=
  atTurn (turnOf (.clrl e k)) (issueAs rowClrl (ctxNo e k)) s
/-- GETEVM (R111). -/
def execGetevm (e : EngId) (k : CtxId) (s : State) : Host.Outcome State Fault Refusal :=
  atTurn (turnOf (.getevm e k)) (issueAs rowGetevm (ctxNo e k)) s
/-- SETEVM (R111). -/
def execSetevm (e : EngId) (k : CtxId) (s : State) : Host.Outcome State Fault Refusal :=
  atTurn (turnOf (.setevm e k)) (issueAs rowSetevm (ctxNo e k)) s
/-- GETSTK (R111). -/
def execGetstk (e : EngId) (k : CtxId) (s : State) : Host.Outcome State Fault Refusal :=
  atTurn (turnOf (.getstk e k)) (issueAs rowGetstk (ctxNo e k)) s
/-- SETSTK (R111). -/
def execSetstk (e : EngId) (k : CtxId) (s : State) : Host.Outcome State Fault Refusal :=
  atTurn (turnOf (.setstk e k)) (issueAs rowSetstk (ctxNo e k)) s
/-- GETECAUSE (R111). -/
def execGetecause (e : EngId) (k : CtxId) (s : State) : Host.Outcome State Fault Refusal :=
  atTurn (turnOf (.getecause e k)) (issueAs rowGetecause (ctxNo e k)) s
/-- GETEUPC (R111). -/
def execGeteupc (e : EngId) (k : CtxId) (s : State) : Host.Outcome State Fault Refusal :=
  atTurn (turnOf (.geteupc e k)) (issueAs rowGeteupc (ctxNo e k)) s
/-- GETEINFO (R111). -/
def execGeteinfo (e : EngId) (k : CtxId) (s : State) : Host.Outcome State Fault Refusal :=
  atTurn (turnOf (.geteinfo e k)) (issueAs rowGeteinfo (ctxNo e k)) s
/-- SETEUPC (R111). -/
def execSeteupc (e : EngId) (k : CtxId) (s : State) : Host.Outcome State Fault Refusal :=
  atTurn (turnOf (.seteupc e k)) (issueAs rowSeteupc (ctxNo e k)) s
/-- GETETk (R203). -/
def execGetet (e : EngId) (k : CtxId) (s : State) : Host.Outcome State Fault Refusal :=
  atTurn (turnOf (.getet e k)) (issueAs rowGetet (ctxNo e k)) s
/-- SETETCk (R203). -/
def execSetetc (e : EngId) (k : CtxId) (s : State) : Host.Outcome State Fault Refusal :=
  atTurn (turnOf (.setetc e k)) (issueAs rowSetetc (ctxNo e k)) s

end Sys2Proof.Machine
end

