-- ==== Sys2Proof/Machine/Dispatch.lean ====
section
/-! DEFINITION. One arm per command: the meaning that the block gives it. -/

namespace Sys2Proof.Machine
open Sys2Proof

def exec (i : Instr) (s : State) : Host.Outcome State Fault Refusal :=
  match i with
  | .next e k => Sys2Proof.Machine.execNext e k s
  | .jump e k => Sys2Proof.Machine.execJump e k s
  | .call e k => Sys2Proof.Machine.execCall e k s
  | .ret e k => Sys2Proof.Machine.execRet e k s
  | .retx e k => Sys2Proof.Machine.execRetx e k s
  | .trap e k => Sys2Proof.Machine.execTrap e k s
  | .wait e k => Sys2Proof.Machine.execWait e k s
  | .atW e k => Sys2Proof.Machine.execAtW e k s
  | .dispatch e k => Sys2Proof.Machine.execDispatch e k s
  | .loop e k => Sys2Proof.Machine.execLoop e k s
  | .yield e k => Sys2Proof.Machine.execYield e k s
  | .park e k => Sys2Proof.Machine.execPark e k s
  | .sync e k => Sys2Proof.Machine.execSync e k s
  | .fence e k => Sys2Proof.Machine.execFence e k s
  | .halt e k => Sys2Proof.Machine.execHalt e k s
  | .mov e k => Sys2Proof.Machine.execMov e k s
  | .add e k => Sys2Proof.Machine.execAdd e k s
  | .adc e k => Sys2Proof.Machine.execAdc e k s
  | .sub e k => Sys2Proof.Machine.execSub e k s
  | .sbc e k => Sys2Proof.Machine.execSbc e k s
  | .cmp e k => Sys2Proof.Machine.execCmp e k s
  | .neg e k => Sys2Proof.Machine.execNeg e k s
  | .abs e k => Sys2Proof.Machine.execAbs e k s
  | .addsSubsNegsAbss e k => Sys2Proof.Machine.execAddsSubsNegsAbss e k s
  | .minMax e k => Sys2Proof.Machine.execMinMax e k s
  | .minuMaxu e k => Sys2Proof.Machine.execMinuMaxu e k s
  | .idx e k => Sys2Proof.Machine.execIdx e k s
  | .andOrXorAndn e k => Sys2Proof.Machine.execAndOrXorAndn e k s
  | .not e k => Sys2Proof.Machine.execNot e k s
  | .tst e k => Sys2Proof.Machine.execTst e k s
  | .shlShrSarRolRor e k => Sys2Proof.Machine.execShlShrSarRolRor e k s
  | .shliShriSariRoliRori e k => Sys2Proof.Machine.execShliShriSariRoliRori e k s
  | .clz e k => Sys2Proof.Machine.execClz e k s
  | .popc e k => Sys2Proof.Machine.execPopc e k s
  | .sext e k => Sys2Proof.Machine.execSext e k s
  | .zext e k => Sys2Proof.Machine.execZext e k s
  | .bswap e k => Sys2Proof.Machine.execBswap e k s
  | .brev e k => Sys2Proof.Machine.execBrev e k s
  | .mulMulu e k => Sys2Proof.Machine.execMulMulu e k s
  | .divDivu e k => Sys2Proof.Machine.execDivDivu e k s
  | .macMacu e k => Sys2Proof.Machine.execMacMacu e k s
  | .msu e k => Sys2Proof.Machine.execMsu e k s
  | .aclr e k => Sys2Proof.Machine.execAclr e k s
  | .aaddAsub e k => Sys2Proof.Machine.execAaddAsub e k s
  | .ashr e k => Sys2Proof.Machine.execAshr e k s
  | .ahi e k => Sys2Proof.Machine.execAhi e k s
  | .asat e k => Sys2Proof.Machine.execAsat e k s
  | .ckadd e k => Sys2Proof.Machine.execCkadd e k s
  | .ckfold e k => Sys2Proof.Machine.execCkfold e k s
  | .crcb e k => Sys2Proof.Machine.execCrcb e k s
  | .crcw e k => Sys2Proof.Machine.execCrcw e k s
  | .crcfin e k => Sys2Proof.Machine.execCrcfin e k s
  | .afx e k => Sys2Proof.Machine.execAfx e k s
  | .ld1Ld1s e k => Sys2Proof.Machine.execLd1Ld1s e k s
  | .ld2Ld2s e k => Sys2Proof.Machine.execLd2Ld2s e k s
  | .ld4Ld4s e k => Sys2Proof.Machine.execLd4Ld4s e k s
  | .ld6 e k => Sys2Proof.Machine.execLd6 e k s
  | .ld8Ld8s e k => Sys2Proof.Machine.execLd8Ld8s e k s
  | .ld12 e k => Sys2Proof.Machine.execLd12 e k s
  | .st1St2St4St6 e k => Sys2Proof.Machine.execSt1St2St4St6 e k s
  | .st8St12 e k => Sys2Proof.Machine.execSt8St12 e k s
  | .lr6 e k => Sys2Proof.Machine.execLr6 e k s
  | .sc6 e k => Sys2Proof.Machine.execSc6 e k s
  | .rel e k => Sys2Proof.Machine.execRel e k s
  | .move e k => Sys2Proof.Machine.execMove e k s
  | .fill e k => Sys2Proof.Machine.execFill e k s
  | .cksum16 e k => Sys2Proof.Machine.execCksum16 e k s
  | .ckcrc e k => Sys2Proof.Machine.execCkcrc e k s
  | .scan e k => Sys2Proof.Machine.execScan e k s
  | .push e k => Sys2Proof.Machine.execPush e k s
  | .pop e k => Sys2Proof.Machine.execPop e k s
  | .peek e k => Sys2Proof.Machine.execPeek e k s
  | .sho e k => Sys2Proof.Machine.execSho e k s
  | .shi e k => Sys2Proof.Machine.execShi e k s
  | .shx e k => Sys2Proof.Machine.execShx e k s
  | .out e k => Sys2Proof.Machine.execOut e k s
  | .oen e k => Sys2Proof.Machine.execOen e k s
  | .inW e k => Sys2Proof.Machine.execInW e k s
  | .resetprog e k => Sys2Proof.Machine.execResetprog e k s
  | .qflush e k => Sys2Proof.Machine.execQflush e k s
  | .caparm e k => Sys2Proof.Machine.execCaparm e k s
  | .getl e k => Sys2Proof.Machine.execGetl e k s
  | .clrl e k => Sys2Proof.Machine.execClrl e k s
  | .getevm e k => Sys2Proof.Machine.execGetevm e k s
  | .setevm e k => Sys2Proof.Machine.execSetevm e k s
  | .getstk e k => Sys2Proof.Machine.execGetstk e k s
  | .setstk e k => Sys2Proof.Machine.execSetstk e k s
  | .getecause e k => Sys2Proof.Machine.execGetecause e k s
  | .geteupc e k => Sys2Proof.Machine.execGeteupc e k s
  | .geteinfo e k => Sys2Proof.Machine.execGeteinfo e k s
  | .seteupc e k => Sys2Proof.Machine.execSeteupc e k s
  | .getet e k => Sys2Proof.Machine.execGetet e k s
  | .setetc e k => Sys2Proof.Machine.execSetetc e k s
  | .mulProductWrite e k => Sys2Proof.Machine.execMulProductWrite e k s
  | .macAccumulate e k => Sys2Proof.Machine.execMacAccumulate e k s
  | .divideResult e => Sys2Proof.Machine.execDivideResult e s
  | .memoryLoadResult e tag ecc => Sys2Proof.Machine.execMemoryLoadResult e tag ecc s
  | .storeAccepted e tag => Sys2Proof.Machine.execStoreAccepted e tag s
  | .affixRequest c => Sys2Proof.Machine.execAffixRequest c s
  | .affixResponse c r => Sys2Proof.Machine.execAffixResponse c r s
  | .affixTimeout e tag => Sys2Proof.Machine.execAffixTimeout e tag s
  | .longStepEnd e k ecc => Sys2Proof.Machine.execLongStepEnd e k ecc s
  | .callFrameDone e k => Sys2Proof.Machine.execCallFrameDone e k s
  | .retRestoreDone e k ecc => Sys2Proof.Machine.execRetRestoreDone e k ecc s
  | .fenceComplete e k => Sys2Proof.Machine.execFenceComplete e k s
  | .conditionEvent => Sys2Proof.Machine.execConditionEvent s
  | .waitTimeout e k => Sys2Proof.Machine.execWaitTimeout e k s
  | .syncTimeout e k => Sys2Proof.Machine.execSyncTimeout e k s
  | .atDue e k => Sys2Proof.Machine.execAtDue e k s
  | .atTarget e k => Sys2Proof.Machine.execAtTarget e k s
  | .wakeatReached ch => Sys2Proof.Machine.execWakeatReached ch s
  | .parkSpillStart e k => Sys2Proof.Machine.execParkSpillStart e k s
  | .channelFillStart e k => Sys2Proof.Machine.execChannelFillStart e k s
  | .channelSpillEnd e k ecc => Sys2Proof.Machine.execChannelSpillEnd e k ecc s
  | .channelFillEnd e k ecc => Sys2Proof.Machine.execChannelFillEnd e k ecc s
  | .exceptionEntry e k => Sys2Proof.Machine.execExceptionEntry e k s
  | .shadowBankGrant e => Sys2Proof.Machine.execShadowBankGrant e s
  | .machineCheck e k flip stored => Sys2Proof.Machine.execMachineCheck e k flip stored s
  | .csRepair c readback bad0 bad1 => Sys2Proof.Machine.execCsRepair c readback bad0 bad1 s
  | .csRepairEnd c => Sys2Proof.Machine.execCsRepairEnd c s
  | .patchActivate e => Sys2Proof.Machine.execPatchActivate e s
  | .timerStep c x => Sys2Proof.Machine.execTimerStep c x s
  | .timerCompareFire c x => Sys2Proof.Machine.execTimerCompareFire c x s
  | .timerGoRelease => Sys2Proof.Machine.execTimerGoRelease s
  | .ticksec => Sys2Proof.Machine.execTicksec s
  | .evtInEdge n => Sys2Proof.Machine.execEvtInEdge n s
  | .evtOutChange n => Sys2Proof.Machine.execEvtOutChange n s
  | .evtOutPulseEnd n => Sys2Proof.Machine.execEvtOutPulseEnd n s
  | .leaseExpiry tbl owner => Sys2Proof.Machine.execLeaseExpiry tbl owner s
  | .starvationEvent bank => Sys2Proof.Machine.execStarvationEvent bank s
  | .eccWriteback bank => Sys2Proof.Machine.execEccWriteback bank s
  | .patrolScrub bank ecc => Sys2Proof.Machine.execPatrolScrub bank ecc s
  | .pinGroupGrant c g => Sys2Proof.Machine.execPinGroupGrant c g s
  | .shiftBitStart c g => Sys2Proof.Machine.execShiftBitStart c g s
  | .shiftBitEnd c g => Sys2Proof.Machine.execShiftBitEnd c g s
  | .shiftWordEnd c g => Sys2Proof.Machine.execShiftWordEnd c g s
  | .laneEdge c levels => Sys2Proof.Machine.execLaneEdge c levels s
  | .injectedWord e k => Sys2Proof.Machine.execInjectedWord e k s
  | .dmaBeatIssue n => Sys2Proof.Machine.execDmaBeatIssue n s
  | .journalAppend n => Sys2Proof.Machine.execJournalAppend n s
  | .dmaBeatComplete n beat => Sys2Proof.Machine.execDmaBeatComplete n beat s
  | .dmaIdleHandover n => Sys2Proof.Machine.execDmaIdleHandover n s
  | .hostReadResponse p tag status data => Sys2Proof.Machine.execHostReadResponse p tag status data s
  | .hostWriteResponse p tag status => Sys2Proof.Machine.execHostWriteResponse p tag status s
  | .hostTimeout p write slot => Sys2Proof.Machine.execHostTimeout p write slot s
  | .descriptorFetch r => Sys2Proof.Machine.execDescriptorFetch r s
  | .descriptorCommit r => Sys2Proof.Machine.execDescriptorCommit r s
  | .acceptHeadWrite r => Sys2Proof.Machine.execAcceptHeadWrite r s
  | .completionRecordWrite r => Sys2Proof.Machine.execCompletionRecordWrite r s
  | .hostRetry r => Sys2Proof.Machine.execHostRetry r s
  | .replay entry => Sys2Proof.Machine.execReplay entry s
  | .payloadRefetch entry => Sys2Proof.Machine.execPayloadRefetch entry s
  | .data p f => Sys2Proof.Machine.execData p f s
  | .mirror p f => Sys2Proof.Machine.execMirror p f s
  | .ack p f => Sys2Proof.Machine.execAck p f s
  | .nak p f => Sys2Proof.Machine.execNak p f s
  | .busy p f => Sys2Proof.Machine.execBusy p f s
  | .announce p f => Sys2Proof.Machine.execAnnounce p f s
  | .heartbeat p f => Sys2Proof.Machine.execHeartbeat p f s
  | .join p f => Sys2Proof.Machine.execJoin p f s
  | .leave p f => Sys2Proof.Machine.execLeave p f s
  | .tsync p f t2 t3 => Sys2Proof.Machine.execTsync p f t2 t3 s
  | .tresp p f t4 => Sys2Proof.Machine.execTresp p f t4 s
  | .holdoverAlarm => Sys2Proof.Machine.execHoldoverAlarm s
  | .timedDelivery slot => Sys2Proof.Machine.execTimedDelivery slot s
  | .retransmitTimeout peer => Sys2Proof.Machine.execRetransmitTimeout peer s
  | .ackSend peer => Sys2Proof.Machine.execAckSend peer s
  | .announceRound => Sys2Proof.Machine.execAnnounceRound s
  | .masterTimeout => Sys2Proof.Machine.execMasterTimeout s
  | .tsyncSend t1 => Sys2Proof.Machine.execTsyncSend t1 s
  | .heartbeatSend peer => Sys2Proof.Machine.execHeartbeatSend peer s
  | .partnerLoss peer => Sys2Proof.Machine.execPartnerLoss peer s
  | .takeover peer => Sys2Proof.Machine.execTakeover peer s
  | .cjLinkUp p => Sys2Proof.Machine.execCjLinkUp p s
  | .cjLinkDown p => Sys2Proof.Machine.execCjLinkDown p s
  | .canarySample isl sample => Sys2Proof.Machine.execCanarySample isl sample s
  | .crossingRetrain isl => Sys2Proof.Machine.execCrossingRetrain isl s
  | .linkRetrain p => Sys2Proof.Machine.execLinkRetrain p s
  | .eventPost => Sys2Proof.Machine.execEventPost s
  | .channelRebind ch => Sys2Proof.Machine.execChannelRebind ch s
  | .synHeartbeat => Sys2Proof.Machine.execSynHeartbeat s
  | .queryVersion => Sys2Proof.Machine.execQueryVersion s
  | .modeReq => Sys2Proof.Machine.execModeReq s
  | .loadImage img => Sys2Proof.Machine.execLoadImage img s
  | .patchApply img => Sys2Proof.Machine.execPatchApply img s
  | .fenceSection => Sys2Proof.Machine.execFenceSection s
  | .unfenceSection => Sys2Proof.Machine.execUnfenceSection s
  | .ringCreate => Sys2Proof.Machine.execRingCreate s
  | .ringDestroy => Sys2Proof.Machine.execRingDestroy s
  | .ringMirror answer => Sys2Proof.Machine.execRingMirror answer s
  | .federateJoin => Sys2Proof.Machine.execFederateJoin s
  | .federateLeave => Sys2Proof.Machine.execFederateLeave s
  | .timeSet => Sys2Proof.Machine.execTimeSet s
  | .headBind => Sys2Proof.Machine.execHeadBind s
  | .channelBind => Sys2Proof.Machine.execChannelBind s
  | .channelUnbind => Sys2Proof.Machine.execChannelUnbind s
  | .channelWake => Sys2Proof.Machine.execChannelWake s
  | .inject => Sys2Proof.Machine.execInject s
  | .powerOn => Sys2Proof.Machine.execPowerOn s
  | .fuseWord data => Sys2Proof.Machine.execFuseWord data s
  | .coldReset => Sys2Proof.Machine.execColdReset s
  | .blockReset brst => Sys2Proof.Machine.execBlockReset brst s
  | .warmWake => Sys2Proof.Machine.execWarmWake s
  | .wakeEnd testReq => Sys2Proof.Machine.execWakeEnd testReq s
  | .wakeAckTimeout sec => Sys2Proof.Machine.execWakeAckTimeout sec s
  | .sectionClearEnd sec => Sys2Proof.Machine.execSectionClearEnd sec s
  | .secPwrAckRise sec => Sys2Proof.Machine.execSecPwrAckRise sec s
  | .secPwrAckFall sec => Sys2Proof.Machine.execSecPwrAckFall sec s
  | .secPwrAckTimeout sec => Sys2Proof.Machine.execSecPwrAckTimeout sec s
  | .sectionFence sec => Sys2Proof.Machine.execSectionFence sec s
  | .recoverEnd => Sys2Proof.Machine.execRecoverEnd s
  | .recoverOverrun => Sys2Proof.Machine.execRecoverOverrun s
  | .quiesceDone => Sys2Proof.Machine.execQuiesceDone s
  | .contextReset e k => Sys2Proof.Machine.execContextReset e k s
  | .engineReset e => Sys2Proof.Machine.execEngineReset e s
  | .clusterReset c => Sys2Proof.Machine.execClusterReset c s
  | .sectionReset sec => Sys2Proof.Machine.execSectionReset sec s
  | .clusterSleep c => Sys2Proof.Machine.execClusterSleep c s
  | .clusterWake c slowEdges => Sys2Proof.Machine.execClusterWake c slowEdges s
  | .faultReaction => Sys2Proof.Machine.execFaultReaction s
  | .faultPinPulseEnd => Sys2Proof.Machine.execFaultPinPulseEnd s
  | .watchdogBite e => Sys2Proof.Machine.execWatchdogBite e s
  | .syntaxWatchdogBite => Sys2Proof.Machine.execSyntaxWatchdogBite s
  | .sourceWindowMature src => Sys2Proof.Machine.execSourceWindowMature src s
  | .contextHalt e k => Sys2Proof.Machine.execContextHalt e k s
  | .haltComplete e => Sys2Proof.Machine.execHaltComplete e s
  | .holdLeaseEnd owner => Sys2Proof.Machine.execHoldLeaseEnd owner s
  | .debugBusTimeout => Sys2Proof.Machine.execDebugBusTimeout s
  | .frame msg => Sys2Proof.Machine.execFrame msg s
  | .line msg => Sys2Proof.Machine.execLine msg s
  | .underrun msg => Sys2Proof.Machine.execUnderrun msg s
  | .clone msg => Sys2Proof.Machine.execClone msg s
  | .rstevBadmsg msg => Sys2Proof.Machine.execRstevBadmsg msg s
  | .rcomSend => Sys2Proof.Machine.execRcomSend s
  | .extest => Sys2Proof.Machine.execExtest s
  | .samplePreload => Sys2Proof.Machine.execSamplePreload s
  | .idcode => Sys2Proof.Machine.execIdcode s
  | .clamp => Sys2Proof.Machine.execClamp s
  | .highz => Sys2Proof.Machine.execHighz s
  | .tapScan => Sys2Proof.Machine.execTapScan s
  | .bypass => Sys2Proof.Machine.execBypass s
  | .tapReset => Sys2Proof.Machine.execTapReset s
  | .registerWrite o addr data => Sys2Proof.Machine.execRegisterWrite o addr data s
  | .readClearRead o addr => Sys2Proof.Machine.execReadClearRead o addr s
  | .ctxRegisterWrite o e k reg data => Sys2Proof.Machine.execCtxRegisterWrite o e k reg data s
  | .ctxResetRequest o e mask => Sys2Proof.Machine.execCtxResetRequest o e mask s
  | .engineResetRequest o e => Sys2Proof.Machine.execEngineResetRequest o e s
  | .engLbufInval o e => Sys2Proof.Machine.execEngLbufInval o e s
  | .engXbEstatWrite o e level2 data => Sys2Proof.Machine.execEngXbEstatWrite o e level2 data s
  | .tmrCfgWrite o c x data => Sys2Proof.Machine.execTmrCfgWrite o c x data s
  | .tmrWhiCommit o c data => Sys2Proof.Machine.execTmrWhiCommit o c data s
  | .tmrCapLoRead o c x => Sys2Proof.Machine.execTmrCapLoRead o c x s
  | .timerGo o => Sys2Proof.Machine.execTimerGo o s
  | .timerGoat o => Sys2Proof.Machine.execTimerGoat o s
  | .instSwev o ev => Sys2Proof.Machine.execInstSwev o ev s
  | .tirLoRead o off => Sys2Proof.Machine.execTirLoRead o off s
  | .laneQcfgWrite o c data => Sys2Proof.Machine.execLaneQcfgWrite o c data s
  | .laneTxpush o c q data => Sys2Proof.Machine.execLaneTxpush o c q data s
  | .laneRxqPop o c q => Sys2Proof.Machine.execLaneRxqPop o c q s
  | .laneQueueFlush o c lq => Sys2Proof.Machine.execLaneQueueFlush o c lq s
  | .laneCaptLoRead o c g => Sys2Proof.Machine.execLaneCaptLoRead o c g s
  | .injectGo o e k sys => Sys2Proof.Machine.execInjectGo o e k sys s
  | .injectCancel o e k => Sys2Proof.Machine.execInjectCancel o e k s
  | .cluCsRaddrWrite o c addr => Sys2Proof.Machine.execCluCsRaddrWrite o c addr s
  | .csReadDone c => Sys2Proof.Machine.execCsReadDone c s
  | .dmaStart o n => Sys2Proof.Machine.execDmaStart o n s
  | .dmaPause o n => Sys2Proof.Machine.execDmaPause o n s
  | .dmaResume o n => Sys2Proof.Machine.execDmaResume o n s
  | .dmaAbort o n => Sys2Proof.Machine.execDmaAbort o n s
  | .dmaClrerr o n => Sys2Proof.Machine.execDmaClrerr o n s
  | .dmaShadowWrite o n reg data => Sys2Proof.Machine.execDmaShadowWrite o n reg data s
  | .ringDb o r tail => Sys2Proof.Machine.execRingDb o r tail s
  | .ringHosterrClear o r => Sys2Proof.Machine.execRingHosterrClear o r s
  | .instConcTake o => Sys2Proof.Machine.execInstConcTake o s
  | .instConcDone o data => Sys2Proof.Machine.execInstConcDone o data s
  | .fedTxGo o timed => Sys2Proof.Machine.execFedTxGo o timed s
  | .fedRxtake o => Sys2Proof.Machine.execFedRxtake o s
  | .fedRxfree o slot => Sys2Proof.Machine.execFedRxfree o slot s
  | .mbxDb o m => Sys2Proof.Machine.execMbxDb o m s
  | .synEvack o => Sys2Proof.Machine.execSynEvack o s
  | .instResetBlock o key => Sys2Proof.Machine.execInstResetBlock o key s
  | .instResetSec o mask => Sys2Proof.Machine.execInstResetSec o mask s
  | .cluReset o c => Sys2Proof.Machine.execCluReset o c s
  | .cluWdkick o c data => Sys2Proof.Machine.execCluWdkick o c data s
  | .impInjGo o data => Sys2Proof.Machine.execImpInjGo o data s
  | .impModectlStop o => Sys2Proof.Machine.execImpModectlStop o s
  | .impModectlBreset o key => Sys2Proof.Machine.execImpModectlBreset o key s
  | .impKeyctlRevoke o => Sys2Proof.Machine.execImpKeyctlRevoke o s
  | .impTestlockWrite o data => Sys2Proof.Machine.execImpTestlockWrite o data s
  | .impSrcCfgWrite o src data => Sys2Proof.Machine.execImpSrcCfgWrite o src data s
  | .impPinWrite o level => Sys2Proof.Machine.execImpPinWrite o level s
  | .impLogPop o => Sys2Proof.Machine.execImpLogPop o s
  | .impPlDataHi o h data => Sys2Proof.Machine.execImpPlDataHi o h data s
  | .impPlCommit o h => Sys2Proof.Machine.execImpPlCommit o h s
  | .headShwHi o h data => Sys2Proof.Machine.execHeadShwHi o h data s
  | .headCommit o h => Sys2Proof.Machine.execHeadCommit o h s
  | .dbgHalt o e => Sys2Proof.Machine.execDbgHalt o e s
  | .dbgChalt o e mask => Sys2Proof.Machine.execDbgChalt o e mask s
  | .dbgRelease o e => Sys2Proof.Machine.execDbgRelease o e s
  | .dbgStep o e k => Sys2Proof.Machine.execDbgStep o e k s
  | .dbgStepabort o e => Sys2Proof.Machine.execDbgStepabort o e s
  | .dbgMdata o write data => Sys2Proof.Machine.execDbgMdata o write data s
  | .dbgPcmpAlloc o c p data => Sys2Proof.Machine.execDbgPcmpAlloc o c p data s
  | .perturbSeedWrite o seed => Sys2Proof.Machine.execPerturbSeedWrite o seed s
  | .flitCrcDrop p f => Sys2Proof.Machine.execFlitCrcDrop p f s
  | .linkTrained p => Sys2Proof.Machine.execLinkTrained p s
  | .linkRetrainEnd p delay asym => Sys2Proof.Machine.execLinkRetrainEnd p delay asym s
  | .retrainPauseEnd isl delay paused => Sys2Proof.Machine.execRetrainPauseEnd isl delay paused s
  | .commandTimeout => Sys2Proof.Machine.execCommandTimeout s
  | .fuseTimeout => Sys2Proof.Machine.execFuseTimeout s
  | .debugBusAccessDone ecc => Sys2Proof.Machine.execDebugBusAccessDone ecc s
  | .txFull o => Sys2Proof.Machine.execTxFull o s
  | .dmaLocalReadDone n beat ecc => Sys2Proof.Machine.execDmaLocalReadDone n beat ecc s

end Sys2Proof.Machine
end

