-- ==== Sys2Proof/Safety.lean ====
section
/-! DEFINITION. What a safe run is, and the terms in which the statements of Certificates/ speak of a command's outcome. -/

namespace Sys2Proof

/-- A state whose next step answers a next state. -/
def Runs (s : Machine.State) : Prop := ∃ t, Machine.step s = .next t

/-- `n` steps from `s` all answer next states. -/
def RunsFor : Nat → Machine.State → Prop
  | 0, _ => True
  | n + 1, s => ∃ t, Machine.step s = .next t ∧ RunsFor n t

end Sys2Proof

namespace Sys2Proof.Machine
open Sys2Proof

/-! ### Outcomes -/

/-- The command is in turn in the present tick: its place does not lie before one that the tick has reached (R24, R25, R28),
and no reset or fence of this tick has taken its part (R27). In the first place of a tick every command is. -/
abbrev InTurn (i : Instr) (s : State) : Prop :=
  isLate (turnOf i s.blk) s.turn = false ∧ discarded (turnOf i s.blk) s.blk = false ∧ fixesDue s.blk = []

/-- The place that the tick has reached after the command. -/
def turnAfter (i : Instr) (s : State) : Nat := max s.turn ((turnOf i s.blk).place.getD 0)

/-- In turn, the command completes: the block is then `b`, and the waiting commands are as before. -/
def Does (i : Instr) (s : State) (b : Block) : Prop :=
  InTurn i s → exec i s = .next { s with turn := turnAfter i s, blk := b }

/-- In turn, the command completes with a block of which `P` holds, and the waiting commands are as before. -/
def Gives (i : Instr) (s : State) (P : Block → Prop) : Prop :=
  InTurn i s → ∃ b, exec i s = .next { s with turn := turnAfter i s, blk := b } ∧ P b

/-! ### The issue of a word -/

/-- The level at which the context's words issue (R155), and the register file that they see. -/
abbrev lvlOf (b : Block) (n : CtxNo) : Lvl := (b.ctx n).lvl
abbrev fileOf (b : Block) (n : CtxNo) : Ctx := b.file n (lvlOf b n)

/-- The context stands between two steps of a long instruction (R138), whose memory tag the next word drops or goes on with. -/
def betweenSteps : Act → Bool
  | .longNext _ => true
  | _ => false

/-- The context is selected (R30) with word `w` at its UPC, the fetch passes its checks (R85, R169), and no comparator of
the engine watches it (R473). -/
abbrev Fetches (b : Block) (n : CtxNo) (w : MWord) : Prop :=
  canIssue b n = true ∧ (b.ctx n).upc.toNat ≤ 0x21FF ∧ fetchW b n = w ∧ (fetchP b (engOf n) (b.ctx n).upc).bad = 0 ∧
  ∀ x ∈ engCmps b (engOf n), x.2.watches (ctxOf n) = false

/-- It is selected so, and not between two steps of a long instruction. -/
abbrev Selects (b : Block) (n : CtxNo) (w : MWord) : Prop := Fetches b n w ∧ betweenSteps (b.ctx n).act = false

/-- The context issues `w`: it is selected, its condition is true (R45), and it raises no precise fault (R145). -/
abbrev Issues (b : Block) (n : CtxNo) (w : MWord) : Prop :=
  Selects b n w ∧ cond b n (fileOf b n) w = true ∧ wordFault b n (snapOf b n w none false) = none

/-- What the word reads as SRCA and SRCB (R80, R83). -/
abbrev srcA (b : Block) (n : CtxNo) (w : MWord) : Word := src b n (fileOf b n) w w.srca
abbrev srcB (b : Block) (n : CtxNo) (w : MWord) : Word := src b n (fileOf b n) w w.srcb

/-- The file with the context gone on at `a`, and a debug step or a skipped comparator over (R470, R475). -/
def goneTo (a : CsAddr) (c : Ctx) : Ctx :=
  { c with upc := a, act := .idle, halt := { c.halt with skipCmp := false, stepping := false } }

/-- The engine as the issue leaves it: it has counted the issue and moved its pointer (R31, R74), and its loop buffer may
hold the word (R67). -/
def issuedEng (b : Block) (n : CtxNo) : Eng := (lbCapture n (b.ctx n).upc (select n b)).eng (engOf n)

/-- From `b` to `t` only context `n`, which is `c`, and its engine, which is `g`, change, and free values may be drawn. -/
def OnlyParts (b t : Block) (n : CtxNo) (c : Ctx) (g : Eng) : Prop :=
  t = { b with ctxs := t.ctxs, engs := t.engs, free := t.free } ∧
  (∀ m, t.ctx m = if m = n then c else b.ctx m) ∧ (∀ x, t.eng x = if x = engOf n then g else b.eng x)

/-- The block in which the bank that the fetch reads has granted the context's engine (R66). -/
def granted (b : Block) (n : CtxNo) : Block := { b with csRr := (select n b).csRr }

/-- The whole effect of a word that leaves its context with register file `c` and changes nothing else of the block than
what its issue counts. -/
def OnlyFile (b t : Block) (n : CtxNo) (c : Ctx) : Prop :=
  OnlyParts (granted b n) t n (unviewCtx (b.ctx n) c (lvlOf b n)) (unviewEng (issuedEng b n) c (lvlOf b n))

/-- The word holds no operation but its ALU operation and SEQ NEXT. -/
abbrev AluAlone (w : MWord) : Prop := w.memop = 0 ∧ w.laneop = 0 ∧ w.xfer = 0 ∧ w.seq = 0

/-- What an ALU operation reads (R104): A, B, AUX8, the carry, the accumulators that SRCA and DST name. -/
structure AluIn where
  a : Word
  b : Word
  aux : BitVec 8
  carry : Bool
  accA : Acc
  accD : Acc

/-- The inputs of the word's ALU operation. -/
def aluIn (b : Block) (n : CtxNo) (w : MWord) : AluIn :=
  let c := fileOf b n
  { a := srcA b n w, b := srcB b n w, aux := w.aux8, carry := c.stat.getLsbD 2, accA := accOf c w.srca, accD := accOf c w.dst }

/-- Where an ALU operation puts its result: nowhere, at DST, or at the accumulator that DST names. -/
inductive AluOut where
  | none
  | dst (v : Word)
  | acc (v : Acc)

/-- The flags that an ALU operation gives (R117), and whether it clipped (R119). -/
structure AluFlags where
  z : Bool
  n : Bool
  c : Bool := false
  v : Bool := false
  sat : Bool := false

/-- Z and N of a 48-bit and of a 104-bit result. -/
def flags48 (x : Word) (c v sat : Bool) : AluFlags := { z := x == 0, n := x.getLsbD 47, c := c, v := v, sat := sat }
def flags104 (x : Acc) (c v : Bool) : AluFlags := { z := x == 0, n := x.getLsbD 103, c := c, v := v }

/-- SETF updates the flags: not where DST is an A register that the operation writes (R40, R89). -/
def setsFlags (w : MWord) (o : AluOut) : Bool :=
  w.setf && (match o with
    | .dst _ => !isA w.dst
    | _ => true)

/-- STAT with Z, N, C and V in its bits [3:0]. -/
def putFlags (st : Word) (f : AluFlags) : Word := putBit (putBit (putBit (putBit st 0 f.z) 1 f.n) 2 f.c) 3 f.v

/-- The exceptions of a context with `x` raised at `now` (R151, R161): one of its code and level that is already pending only
gains MULT. -/
def withExc (now : Nat) (l : List Exc) (x : Exc) : List Exc :=
  if l.any (fun y => y.code == x.code && y.lvl == x.lvl) then
    l.map (fun y => if y.code = x.code ∧ y.lvl = x.lvl then { y with mult := true } else y)
  else l ++ [{ x with at_ := now }]

/-- The register file that an ALU operation leaves, in the order of R88: flags, DST, and the sticky SAT and EARLY, which
DST does not clear (R43, R125); an overflow under STAT.VTEN raises VTRAP (R120), not of a word whose DST is STAT (R88). -/
def aluFile (b : Block) (n : CtxNo) (w : MWord) (o : AluOut) (f : AluFlags) : Ctx :=
  let c := fileOf b n
  let st := if setsFlags w o then putFlags c.stat f else c.stat
  let c1 := { c with stat := st }
  let c2 := match o with
    | .none => c1
    | .dst v => writeDst (statPriv c.stat) c1 w.dst v
    | .acc v => writeAcc c1 w.dst v
  let early := earlyRead w && mulInFlight (b.ctx n)
  let c3 := { c2 with stat := putBit (putBit c2.stat 7 (c2.stat.getLsbD 7 || f.sat)) 5 (c2.stat.getLsbD 5 || early) }
  let toStat := isSpec w.dst 4 && (match o with
    | .dst _ => true
    | _ => false)
  if setsFlags w o && f.v && c.stat.getLsbD 19 && !toStat then
    { c3 with excs := withExc b.now c.excs { code := 0x0A, kind := 2, sub := 0, fupc := c.upc, lvl := lvlOf b n } }
  else c3

/-- Command `i` with ALU code `op`: on every word that holds it alone, the result goes where `out` says with the flags
`fl`, the context goes on at UPC + 1, and nothing else changes. -/
def AluRow (i : EngId → CtxId → Instr) (op : BitVec 7) (out : AluIn → AluOut) (fl : AluIn → AluFlags) : Prop :=
  ∀ (s : State) (e : EngId) (k : CtxId) (w : MWord),
    Issues s.blk (ctxNo e k) w → AluAlone w → w.aluop = op →
    Gives (i e k) s (fun t =>
      let n := ctxNo e k
      let x := aluIn s.blk n w
      OnlyFile s.blk t n (goneTo ((s.blk.ctx n).upc + 1) (aluFile s.blk n w (out x) (fl x))))

/-- An ALU row whose 48-bit result `v` goes to DST and gives Z and N, with C and V cleared. -/
abbrev PlainRow (i : EngId → CtxId → Instr) (op : BitVec 7) (v : AluIn → Word) : Prop :=
  AluRow i op (fun x => .dst (v x)) (fun x => flags48 (v x) false false false)

/-- A signed value fits `w` bits. -/
def fits (w : Nat) (i : Int) : Bool := decide (-(2 ^ (w - 1) : Int) ≤ i ∧ i < 2 ^ (w - 1))

/-- The value nearest to an exact result in the signed 48-bit range (R119). -/
def nearest (i : Int) : Word := BitVec.ofInt 48 (max (-(2 ^ 47)) (min i (2 ^ 47 - 1)))

/-! ### Words without an ALU result -/

/-- The word holds its sequencer operation only; a memory word, a lane word or an XFER word holds one operation of its own
slot and SEQ NEXT. -/
abbrev SeqAlone (w : MWord) : Prop := w.aluop = 0 ∧ w.memop = 0 ∧ w.laneop = 0 ∧ w.xfer = 0
abbrev MemAlone (w : MWord) : Prop := w.aluop = 0 ∧ w.laneop = 0 ∧ w.xfer = 0 ∧ w.seq = 0
abbrev LaneAlone (w : MWord) : Prop := w.aluop = 0 ∧ w.memop = 0 ∧ w.xfer = 0 ∧ w.seq = 0
abbrev XferAlone (w : MWord) : Prop := w.aluop = 0 ∧ w.memop = 0 ∧ w.laneop = 0 ∧ w.seq = 0

/-- The register file of a word that writes none of its registers: the sticky EARLY may be set (R125). -/
def readFile (b : Block) (n : CtxNo) (w : MWord) : Ctx :=
  let c := fileOf b n
  { c with stat := putBit c.stat 5 (c.stat.getLsbD 5 || (earlyRead w && mulInFlight (b.ctx n))) }

/-- The context stopped in an activity, with a debug step or a skipped comparator over. -/
def heldIn (x : Act) (c : Ctx) : Ctx :=
  { c with act := x, halt := { c.halt with skipCmp := false, stepping := false } }

/-- A JUMP or LOOP back by at most 63 sets the loop buffer's range, empty unless it is the present one (R67). -/
def loopRange (upc target : CsAddr) (g : Eng) : Eng :=
  if target.toNat ≤ upc.toNat ∧ upc.toNat ≤ target.toNat + 63 then
    if g.lbOn = true ∧ g.lbBase = target ∧ g.lbLast = BitVec.ofNat 6 (upc.toNat - target.toNat) then g
    else { g with lbOn := true, lbBase := target, lbLast := BitVec.ofNat 6 (upc.toNat - target.toNat), lbBuf := [] }
  else g

/-- The whole effect of a word that leaves its context with register file `c`, changes its engine by `fe` beside the
issue's own counts, its cluster by `fc`, and takes `q` numbers of the issue order. -/
def WordEffect (b t : Block) (n : CtxNo) (c : Ctx) (fe : Eng → Eng) (fc : Clu → Clu) (q : Nat) : Prop :=
  t = { granted b n with ctxs := t.ctxs, engs := t.engs, clus := t.clus, seq := b.seq + q, free := t.free } ∧
  (∀ m, t.ctx m = if m = n then unviewCtx (b.ctx n) c (lvlOf b n) else b.ctx m) ∧
  (∀ x, t.eng x = if x = engOf n then unviewEng (fe (issuedEng b n)) c (lvlOf b n) else b.eng x) ∧
  (∀ x, t.clu x = if x = cluOf (engOf n) then fc (b.clu x) else b.clu x)

/-- `t` and `v` agree: their contexts and engines by number, everything else as it stands. -/
def Agree (t v : Block) : Prop :=
  t = { v with ctxs := t.ctxs, engs := t.engs } ∧ (∀ m, t.ctx m = v.ctx m) ∧ ∀ x, t.eng x = v.eng x

/-- The request that a memory or Affix word leaves under its tag (R38, R69, R70, R106, R107). -/
def requestUnder (b : Block) (n : CtxNo) (w : MWord) (kind : PendKind) : Pend :=
  let c := fileOf b n
  { kind := kind, k := ctxOf n, ea := if w.isAfx then srcA b n w else effAddr b n c w,
    data := if w.isAfx then (srcB b n w).setWidth 104 else if isAcc w.srcb then accOf c w.srcb else (srcB b n w).setWidth 104,
    dst := w.dst, opc := w.aluop.extractLsb' 0 4, tenant := reqTenant (b.ctx n) (lvlOf b n), priv := statPriv c.stat,
    lvl := lvlOf b n, fupc := (b.ctx n).upc, seq := b.seq }

/-- The file after the write-back of MMODE 0b001 and 0b010 (R107). -/
def withBase (b : Block) (n : CtxNo) (w : MWord) (c : Ctx) : Ctx :=
  let d := w.disp16.signExtend 48
  let base := reg16 (fileOf b n).a w.mbase
  if w.mmode = 1 ∨ w.mmode = 2 then { c with a := setReg16 c.a w.mbase (base + d) } else c

/-- The engine with a request under a tag. -/
def underTag (t : BitVec 5) (p : Pend) (g : Eng) : Eng := g.setTag t (some p)

/-- ECAUSE with its fields where R158 puts them: CODE [5:0], KIND [7:6], SUB [13:8], FUPC [27:14], TAG [32:28], LONG
[33], MULT [34], L2 [35]. -/
def ecauseOf (x : Exc) (code sub : BitVec 6) (long l2 : Bool) : Word :=
  (0 : BitVec 12) ++ BitVec.ofBool l2 ++ BitVec.ofBool x.mult ++ BitVec.ofBool long ++ x.tag ++ x.fupc ++ sub ++ x.kind ++ code

/-! ### The register port (R225, R437, R462, R479, R511, R512) -/

/-- An access of a register by an origin lands: the block is not OFF, the window is not shut, its cluster is awake; the Debug
Access Port is fused in and has no memory access under way; IREG reaches IMP_ only; a context's access is the one it has
issued first and that waits. (The Tirnis window and DBG_MDATA have statements of their own.) -/
def CanLand (b : Block) (o : Origin) (w : Win) (a : Acc32) : Prop :=
  b.mode ≠ .off ∧ shut b o w = false ∧
  (match w.cluster with
   | some c => shut b o (.clu c 0) = false ∧ (b.clu c).asleep = false
   | none => True) ∧
  (match w with
   | .tir _ => False
   | _ => True) ∧
  (match o with
   | .ctx .. => True
   | o => ∀ x ∈ b.held, x.org ≠ o) ∧
  (match o, w with
   | .hreg, _ | .synCore, _ => True
   | .dap, w => b.dbg.bus = none ∧ b.dbg.fuseEn = true ∧ w ≠ .inst 0xA10
   | .ireg, .imp _ => True
   | .ireg, _ => False
   | .ctx e k, w => (match firstWindow (b.eng e) k with
     | some x => x.2.win = w ∧ x.2.acc = some a
     | none => False))

/-- An access of a cluster's window counts as a wake trigger (R432). -/
def portTouch (w : Win) (b : Block) : Block := match w.cluster with
  | some c => trigger c b
  | none => b

/-- The end of an access made in `b0`: the port's answer, or a context's tag freed and, for a read, DST written (R36). -/
def portEnd (b0 : Block) (o : Origin) (a : Acc32) (v : Reg32) (b : Block) : Block := match o with
  | .ctx e k => (match firstWindow (b0.eng e) k with
    | some x =>
      let b1 := b.modEng e (fun g => g.setTag x.1 none)
      settle (ctxNo e k) (if a = .read then
        b1.modFile (ctxNo e k) x.2.lvl (fun c => writeDst x.2.priv c x.2.dst (v.setWidth 48)) else b1)
    | none => b)
  | o => answerPort o v false b

/-- Command `i o` is a write of `d` to a register, whose effect is `f`. -/
def PortWrite (i : Origin → Instr) (w : Win) (d : Reg32) (f : Origin → Block → Block) : Prop :=
  ∀ (s : State) (o : Origin), CanLand s.blk o w (.write d) →
    Does (i o) s (portEnd s.blk o (.write d) 0 (f o (portTouch w s.blk)))

/-- Command `i o` is a read of a register that returns `v` and has the side effect `f`, but for a read of the Debug Access
Port with DBG_CTL.SIDE = 0 (R479). -/
def PortRead (i : Origin → Instr) (w : Win) (v : Origin → Block → Reg32) (f : Origin → Block → Block) : Prop :=
  ∀ (s : State) (o : Origin), CanLand s.blk o w .read →
    let b := portTouch w s.blk
    Does (i o) s (portEnd s.blk o .read (v o b) (if o = .dap ∧ s.blk.dbg.side = false then b else f o b))

/-! ### Mailbox commands (R390..R397) -/

/-- The Syntax core takes mailbox commands: READY, in any mode but OFF. -/
def takesCommands (b : Block) : Prop := b.mode ≠ .off ∧ b.syn.st = .ready

/-- The block in which the first queued command, of pair `m`, has begun to run (R392). -/
def begun (m : BitVec 6) (rest : List (BitVec 6)) (b : Block) : Block :=
  (b.modMbx m (fun x => { x with st := 2 })).modSyn (fun y => { y with queue := rest, run := some { pair := m, since := b.now } })

/-- Command `i` is the row of mailbox command OPC: first in the queue, it is checked for LEN, mode and parameters (R395..R397)
and then acts; running, it carries on; otherwise it does nothing. `act` has the request's bytes and the run's record. -/
def CmdRow (i : Instr) (opc len : Nat) (modes : List Mode) (ps : List Byte → List Param)
    (act : List Byte → Running → Block → Block) : Prop :=
  ∀ (s : State), takesCommands s.blk →
    let b := s.blk
    (∀ x, b.syn.run = some x → rqN (reqOf b x.pair) 0 2 = opc → Does i s (act (reqOf b x.pair) x b)) ∧
    (∀ x, b.syn.run = some x → rqN (reqOf b x.pair) 0 2 ≠ opc → Does i s b) ∧
    (b.syn.run = none → b.syn.queue = [] → Does i s b) ∧
    ∀ m rest, b.syn.run = none → b.syn.queue = m :: rest →
      let r := reqOf b m
      let t := begun m rest b
      (rqN r 0 2 ≠ opc → Does i s b) ∧
      (rqN r 0 2 = opc → rqN r 4 2 ≠ len → Does i s (reply 2 0 [] t)) ∧
      (rqN r 0 2 = opc → rqN r 4 2 = len → b.mode ∉ modes → Does i s (reply 4 b.mode.code [] t)) ∧
      (∀ o, rqN r 0 2 = opc → rqN r 4 2 = len → b.mode ∈ modes → badParam r (ps r) = some o → Does i s (reply 3 o [] t)) ∧
      (rqN r 0 2 = opc → rqN r 4 2 = len → b.mode ∈ modes → badParam r (ps r) = none →
        Does i s (act r { pair := m, since := b.now } t))

/-! ### Events (R47, R219) -/

/-- The latches of context `n` that an engine-broadcast event sets: source 48 + j where ENG_EVSEL[j] selects the event, the
context is bound, CTX_EVMASK admits j, and the section is in service. -/
def broadcastTo (b : Block) (ev : Ev) (n : CtxNo) : BitVec 24 :=
  (List.range 16).foldl (fun a j =>
    if selects (engOf n) (evSelOf (b.eng (engOf n)) j) ev && !(b.fenced (secOf (engOf n))) && (b.ctx n).chan.isSome &&
        (b.ctx n).evMask.getLsbD j then putBit a (8 + j) true else a) 0

/-- The context is in a WAIT. -/
def onWait : Act → Bool
  | .wait .. => true
  | _ => false

/-- The latches that an event of stamp `t` (with its count of steps of TICK_NOW, R194) sets, of those that it reaches: not one that an event of this stamp has set
already (R47). -/
def fresh (t : Tick × Nat) (c : Ctx) (got : BitVec 24) : BitVec 24 :=
  (List.range 24).foldl (fun v i => putBit v i (got.getLsbD i && Map.get none c.took i != some t)) 0

/-- The context after an event of stamp `t` in the tick `now` that reaches the latches `got` (R26, R47); a YIELD that admits one
that is set ends (R55). -/
def latched (now : Nat) (t : Tick × Nat) (got : BitVec 24) (c : Ctx) : Ctx :=
  let new := fresh t c got
  let c' : Ctx := { c with
    latch := if new = 0 then c.latch else c.latch.set now new
    took := (List.range 24).foldl (fun m i => if new.getLsbD i then Map.set none m i (some t) else m) c.took }
  match c.act with
  | .yieldOn mask => if new ≠ 0 ∧ c'.latch.on &&& mask ≠ 0 then { c' with upc := c.upc + 1, act := .idle } else c'
  | _ => c'

/-- A timer that captures an edge at input `sel` in the tick `now` (R213). -/
def captured (now : Nat) (t : Timer) (sel : BitVec 6) (rising : Bool) : Timer :=
  if t.capen && t.capsel == sel && t.capedge.getLsbD (if rising then 0 else 1) then
    { t with cap := t.count, ovr := if t.capf.on then t.ovr.set now else t.ovr, capf := t.capf.set now } else t

/-- Command `i` of context `k` of engine `e` is the row of a microword's slot; `p` tells the words that hold its
operation. -/
def WordRow (e : EngId) (k : CtxId) (i : Instr) (p : MWord → Bool) : Prop :=
  (i = .next e k ∧ p = rowNext) ∨ (i = .jump e k ∧ p = rowJump) ∨
  (i = .call e k ∧ p = rowCall) ∨ (i = .ret e k ∧ p = rowRet) ∨
  (i = .retx e k ∧ p = rowRetx) ∨ (i = .trap e k ∧ p = rowTrap) ∨
  (i = .wait e k ∧ p = rowWait) ∨ (i = .atW e k ∧ p = rowAtW) ∨
  (i = .dispatch e k ∧ p = rowDispatch) ∨ (i = .loop e k ∧ p = rowLoop) ∨
  (i = .yield e k ∧ p = rowYield) ∨ (i = .park e k ∧ p = rowPark) ∨
  (i = .sync e k ∧ p = rowSync) ∨ (i = .fence e k ∧ p = rowFence) ∨
  (i = .halt e k ∧ p = rowHalt) ∨ (i = .mov e k ∧ p = rowMov) ∨
  (i = .add e k ∧ p = rowAdd) ∨ (i = .adc e k ∧ p = rowAdc) ∨
  (i = .sub e k ∧ p = rowSub) ∨ (i = .sbc e k ∧ p = rowSbc) ∨
  (i = .cmp e k ∧ p = rowCmp) ∨ (i = .neg e k ∧ p = rowNeg) ∨
  (i = .abs e k ∧ p = rowAbs) ∨ (i = .addsSubsNegsAbss e k ∧ p = rowAddsSubsNegsAbss) ∨
  (i = .minMax e k ∧ p = rowMinMax) ∨ (i = .minuMaxu e k ∧ p = rowMinuMaxu) ∨
  (i = .idx e k ∧ p = rowIdx) ∨ (i = .andOrXorAndn e k ∧ p = rowAndOrXorAndn) ∨
  (i = .not e k ∧ p = rowNot) ∨ (i = .tst e k ∧ p = rowTst) ∨
  (i = .shlShrSarRolRor e k ∧ p = rowShlShrSarRolRor) ∨ (i = .shliShriSariRoliRori e k ∧ p = rowShliShriSariRoliRori) ∨
  (i = .clz e k ∧ p = rowClz) ∨ (i = .popc e k ∧ p = rowPopc) ∨
  (i = .sext e k ∧ p = rowSext) ∨ (i = .zext e k ∧ p = rowZext) ∨
  (i = .bswap e k ∧ p = rowBswap) ∨ (i = .brev e k ∧ p = rowBrev) ∨
  (i = .mulMulu e k ∧ p = rowMulMulu) ∨ (i = .divDivu e k ∧ p = rowDivDivu) ∨
  (i = .macMacu e k ∧ p = rowMacMacu) ∨ (i = .msu e k ∧ p = rowMsu) ∨
  (i = .aclr e k ∧ p = rowAclr) ∨ (i = .aaddAsub e k ∧ p = rowAaddAsub) ∨
  (i = .ashr e k ∧ p = rowAshr) ∨ (i = .ahi e k ∧ p = rowAhi) ∨
  (i = .asat e k ∧ p = rowAsat) ∨ (i = .ckadd e k ∧ p = rowCkadd) ∨
  (i = .ckfold e k ∧ p = rowCkfold) ∨ (i = .crcb e k ∧ p = rowCrcb) ∨
  (i = .crcw e k ∧ p = rowCrcw) ∨ (i = .crcfin e k ∧ p = rowCrcfin) ∨
  (i = .afx e k ∧ p = rowAfx) ∨ (i = .ld1Ld1s e k ∧ p = rowLd1Ld1s) ∨
  (i = .ld2Ld2s e k ∧ p = rowLd2Ld2s) ∨ (i = .ld4Ld4s e k ∧ p = rowLd4Ld4s) ∨
  (i = .ld6 e k ∧ p = rowLd6) ∨ (i = .ld8Ld8s e k ∧ p = rowLd8Ld8s) ∨
  (i = .ld12 e k ∧ p = rowLd12) ∨ (i = .st1St2St4St6 e k ∧ p = rowSt1St2St4St6) ∨
  (i = .st8St12 e k ∧ p = rowSt8St12) ∨ (i = .lr6 e k ∧ p = rowLr6) ∨
  (i = .sc6 e k ∧ p = rowSc6) ∨ (i = .rel e k ∧ p = rowRel) ∨
  (i = .move e k ∧ p = rowMove) ∨ (i = .fill e k ∧ p = rowFill) ∨
  (i = .cksum16 e k ∧ p = rowCksum16) ∨ (i = .ckcrc e k ∧ p = rowCkcrc) ∨
  (i = .scan e k ∧ p = rowScan) ∨ (i = .push e k ∧ p = rowPush) ∨
  (i = .pop e k ∧ p = rowPop) ∨ (i = .peek e k ∧ p = rowPeek) ∨
  (i = .sho e k ∧ p = rowSho) ∨ (i = .shi e k ∧ p = rowShi) ∨
  (i = .shx e k ∧ p = rowShx) ∨ (i = .out e k ∧ p = rowOut) ∨
  (i = .oen e k ∧ p = rowOen) ∨ (i = .inW e k ∧ p = rowInW) ∨
  (i = .resetprog e k ∧ p = rowResetprog) ∨ (i = .qflush e k ∧ p = rowQflush) ∨
  (i = .caparm e k ∧ p = rowCaparm) ∨ (i = .getl e k ∧ p = rowGetl) ∨
  (i = .clrl e k ∧ p = rowClrl) ∨ (i = .getevm e k ∧ p = rowGetevm) ∨
  (i = .setevm e k ∧ p = rowSetevm) ∨ (i = .getstk e k ∧ p = rowGetstk) ∨
  (i = .setstk e k ∧ p = rowSetstk) ∨ (i = .getecause e k ∧ p = rowGetecause) ∨
  (i = .geteupc e k ∧ p = rowGeteupc) ∨ (i = .geteinfo e k ∧ p = rowGeteinfo) ∨
  (i = .seteupc e k ∧ p = rowSeteupc) ∨ (i = .getet e k ∧ p = rowGetet) ∨
  (i = .setetc e k ∧ p = rowSetetc)

end Sys2Proof.Machine
end

