-- ==== Sys2Proof/Certificates/Slice0/Obligations.lean ====
section
/-! DEFINITION. The statements for the provers. -/

open Sys2Proof Sys2Proof.Machine

set_option linter.unusedVariables false

/-- A word whose condition is false has no effect and its context continues at UPC + 1, whichever of its rows issues
it (R84). -/
def Obligations.AWordWhoseConditionIsFalseHasNoEffect : Prop :=
  ∀ (s : State) (e : EngId) (k : CtxId) (w : MWord) (i : Instr) (p : MWord → Bool), WordRow e k i p → p w = true →
    let n := ctxNo e k
    Selects s.blk n w → cond s.blk n (fileOf s.blk n) w = false → resumes (fileOf s.blk n) (lvlOf s.blk n) w = false →
    (w.isLong = true → ownGroups (fun l => l == lvlOf s.blk n) s.blk n = []) →
    Gives i s (fun t => OnlyFile s.blk t n (goneTo ((s.blk.ctx n).upc + 1) (fileOf s.blk n)))

/-- Any row that is an operation of the next word issues the whole word; a row that is none of its operations changes
nothing (R77, R83, 95_what_each_step_holds.md). -/
def Obligations.AWordActsWholeByAnyOneOfItsRows : Prop :=
  ∀ (s : State) (e : EngId) (k : CtxId) (i : Instr) (p : MWord → Bool), WordRow e k i p →
    let n := ctxNo e k
    let w := fetchW s.blk n
    (canIssue s.blk n = false → Does i s s.blk) ∧
    ((s.blk.ctx n).upc.toNat ≤ 0x21FF →
      (p w = false → Does i s s.blk) ∧
      ∀ (j : Instr) (q : MWord → Bool), WordRow e k j q → p w = true → q w = true → exec i s = exec j s)

/-- MOV, the logical operations, NOT, MIN..MAXU, CLZ, POPC, SEXT, ZEXT, BSWAP, BREV write their result; TST sets flags
only (R104, R115, R116, R117, R123, R82, R88, R89, R120, R125). -/
def Obligations.MovesLogicAndBitOperationsWriteTheirResult : Prop :=
  PlainRow .mov 0x01 (fun x => x.a) ∧
  PlainRow .minMax 0x0D (fun x => if x.a.toInt ≤ x.b.toInt then x.a else x.b) ∧
  PlainRow .minMax 0x0E (fun x => if x.b.toInt ≤ x.a.toInt then x.a else x.b) ∧
  PlainRow .minuMaxu 0x0F (fun x => if x.a.toNat ≤ x.b.toNat then x.a else x.b) ∧
  PlainRow .minuMaxu 0x10 (fun x => if x.b.toNat ≤ x.a.toNat then x.a else x.b) ∧
  PlainRow .andOrXorAndn 0x18 (fun x => x.a &&& x.b) ∧
  PlainRow .andOrXorAndn 0x19 (fun x => x.a ||| x.b) ∧
  PlainRow .andOrXorAndn 0x1A (fun x => x.a ^^^ x.b) ∧
  PlainRow .andOrXorAndn 0x1B (fun x => x.a &&& ~~~x.b) ∧
  PlainRow .not 0x1C (fun x => ~~~x.a) ∧
  AluRow .tst 0x1D (fun _ => .none) (fun x => flags48 (x.a &&& x.b) false false false) ∧
  PlainRow .clz 0x30 (fun x => if x.a = 0 then 48 else BitVec.ofNat 48 (47 - Nat.log2 x.a.toNat)) ∧
  PlainRow .popc 0x31 (fun x => BitVec.ofNat 48 (((List.range 48).map (fun i => (x.a.getLsbD i).toNat)).sum)) ∧
  PlainRow .sext 0x32 (fun x => if 47 ≤ (x.aux.extractLsb' 0 6).toNat then x.a
    else (x.a.extractLsb' 0 ((x.aux.extractLsb' 0 6).toNat + 1)).signExtend 48) ∧
  PlainRow .zext 0x33 (fun x => if 47 ≤ (x.aux.extractLsb' 0 6).toNat then x.a
    else (x.a.extractLsb' 0 ((x.aux.extractLsb' 0 6).toNat + 1)).setWidth 48) ∧
  PlainRow .bswap 0x34 (fun x => x.a.extractLsb' 0 8 ++ x.a.extractLsb' 8 8 ++ x.a.extractLsb' 16 8 ++
    x.a.extractLsb' 24 8 ++ x.a.extractLsb' 32 8 ++ x.a.extractLsb' 40 8) ∧
  PlainRow .brev 0x35 (fun x => BitVec.ofNat 48 (((List.range 48).map (fun i => (x.a.getLsbD (47 - i)).toNat * 2 ^ i)).sum))

/-- ADD, ADC, SUB, SBC, CMP, NEG, ABS and IDX give the result modulo 2^48 with carry or borrow and signed overflow
(R104, R114, R115, R116, R117, R118, R121, R123, R88, R89). -/
def Obligations.AdditionsAndSubtractionsGiveSumCarryAndOverflow : Prop :=
  AluRow .add 0x02 (fun x => .dst (x.a + x.b))
    (fun x => flags48 (x.a + x.b) (decide (2 ^ 48 ≤ x.a.toNat + x.b.toNat)) (!fits 48 (x.a.toInt + x.b.toInt)) false) ∧
  AluRow .adc 0x03 (fun x => .dst (x.a + x.b + if x.carry then 1 else 0))
    (fun x => flags48 (x.a + x.b + if x.carry then 1 else 0) (decide (2 ^ 48 ≤ x.a.toNat + x.b.toNat + x.carry.toNat))
      (!fits 48 (x.a.toInt + x.b.toInt + x.carry.toNat)) false) ∧
  AluRow .sub 0x04 (fun x => .dst (x.a - x.b))
    (fun x => flags48 (x.a - x.b) (decide (x.a.toNat < x.b.toNat)) (!fits 48 (x.a.toInt - x.b.toInt)) false) ∧
  AluRow .sbc 0x05 (fun x => .dst (x.a - x.b - if x.carry then 1 else 0))
    (fun x => flags48 (x.a - x.b - if x.carry then 1 else 0) (decide (x.a.toNat < x.b.toNat + x.carry.toNat))
      (!fits 48 (x.a.toInt - x.b.toInt - x.carry.toNat)) false) ∧
  AluRow .cmp 0x06 (fun _ => .none)
    (fun x => flags48 (x.a - x.b) (decide (x.a.toNat < x.b.toNat)) (!fits 48 (x.a.toInt - x.b.toInt)) false) ∧
  AluRow .neg 0x07 (fun x => .dst (0 - x.a)) (fun x => flags48 (0 - x.a) (x.a != 0) (x.a == 0x800000000000) false) ∧
  AluRow .abs 0x08 (fun x => .dst (if x.a.toInt < 0 then 0 - x.a else x.a))
    (fun x => flags48 (if x.a.toInt < 0 then 0 - x.a else x.a) false (x.a == 0x800000000000) false) ∧
  ∀ (sel : BitVec 3) (scale : Word), (sel, scale) ∈
      [((0 : BitVec 3), (1 : Word)), (1, 2), (2, 4), (3, 6), (4, 8), (5, 12), (6, 16), (7, 256)] →
    ∀ (s : State) (e : EngId) (k : CtxId) (w : MWord),
      Issues s.blk (ctxNo e k) w → AluAlone w → w.aluop = 0x11 → w.aux8.extractLsb' 0 3 = sel →
      Gives (.idx e k) s (fun t =>
        let x := aluIn s.blk (ctxNo e k) w
        let y := x.b * scale
        OnlyFile s.blk t (ctxNo e k) (goneTo ((s.blk.ctx (ctxNo e k)).upc + 1) (aluFile s.blk (ctxNo e k) w
          (.dst (x.a + y))
          (flags48 (x.a + y) (decide (2 ^ 48 ≤ x.a.toNat + y.toNat)) (!fits 48 (x.a.toInt + y.toInt)) false))))

/-- ADDS, SUBS, NEGS, ABSS and ASAT return the value of the signed 48-bit range nearest to the exact result and set
SAT (R119). -/
def Obligations.SaturatingOperationsClipToTheWordRange : Prop :=
  AluRow .addsSubsNegsAbss 0x09 (fun x => .dst (nearest (x.a.toInt + x.b.toInt)))
    (fun x => flags48 (nearest (x.a.toInt + x.b.toInt)) (decide (2 ^ 48 ≤ x.a.toNat + x.b.toNat))
      (!fits 48 (x.a.toInt + x.b.toInt)) (!fits 48 (x.a.toInt + x.b.toInt))) ∧
  AluRow .addsSubsNegsAbss 0x0A (fun x => .dst (nearest (x.a.toInt - x.b.toInt)))
    (fun x => flags48 (nearest (x.a.toInt - x.b.toInt)) (decide (x.a.toNat < x.b.toNat))
      (!fits 48 (x.a.toInt - x.b.toInt)) (!fits 48 (x.a.toInt - x.b.toInt))) ∧
  AluRow .addsSubsNegsAbss 0x0B (fun x => .dst (nearest (-x.a.toInt)))
    (fun x => flags48 (nearest (-x.a.toInt)) (x.a != 0) (!fits 48 (-x.a.toInt)) (!fits 48 (-x.a.toInt))) ∧
  AluRow .addsSubsNegsAbss 0x0C (fun x => .dst (nearest |x.a.toInt|))
    (fun x => flags48 (nearest |x.a.toInt|) false (!fits 48 |x.a.toInt|) (!fits 48 |x.a.toInt|)) ∧
  AluRow .asat 0x4D (fun x => .dst (nearest x.accA.toInt))
    (fun x => flags48 (nearest x.accA.toInt) false (!fits 48 x.accA.toInt) (!fits 48 x.accA.toInt))

/-- SHL, SHR, SAR, ROL and ROR by B[7:0] or by AUX8 give the result and carry of the count table, for counts 0 to 255
(R104, R117, R122). -/
def Obligations.ShiftsAndRotatesFollowTheirCountTable : Prop :=
  let Rows (lo : BitVec 3) (v : Word → Nat → Word) (c : Word → Nat → Bool) : Prop :=
    AluRow .shlShrSarRolRor ((0x20 : BitVec 7) + lo.setWidth 7) (fun x => .dst (v x.a (x.b.toNat % 256)))
      (fun x => flags48 (v x.a (x.b.toNat % 256)) (c x.a (x.b.toNat % 256)) false false) ∧
    AluRow .shliShriSariRoliRori ((0x28 : BitVec 7) + lo.setWidth 7) (fun x => .dst (v x.a x.aux.toNat))
      (fun x => flags48 (v x.a x.aux.toNat) (c x.a x.aux.toNat) false false)
  Rows 0 (fun a k => if k < 48 then BitVec.ofNat 48 (a.toNat * 2 ^ k) else 0)
    (fun a k => decide (0 < k) && decide (k ≤ 48) && a.getLsbD (48 - k)) ∧
  Rows 1 (fun a k => if k < 48 then BitVec.ofNat 48 (a.toNat / 2 ^ k) else 0)
    (fun a k => decide (0 < k) && decide (k ≤ 48) && a.getLsbD (k - 1)) ∧
  Rows 2 (fun a k => BitVec.ofInt 48 (a.toInt / 2 ^ (min k 48)))
    (fun a k => decide (0 < k) && a.getLsbD (min (k - 1) 47)) ∧
  Rows 3 (fun a k => BitVec.ofNat 48 (a.toNat * 2 ^ (k % 48)) ||| BitVec.ofNat 48 (a.toNat / 2 ^ (48 - k % 48)))
    (fun a k => decide (k % 48 ≠ 0) && a.getLsbD (48 - k % 48)) ∧
  Rows 4 (fun a k => BitVec.ofNat 48 (a.toNat / 2 ^ (k % 48)) ||| BitVec.ofNat 48 (a.toNat * 2 ^ (48 - k % 48)))
    (fun a k => decide (k % 48 ≠ 0) && a.getLsbD (k % 48 - 1))

/-- ACLR, AADD, ASUB, ASHR, AHI, CKADD, CKFOLD, CRCB, CRCW and CRCFIN compute on the 104-bit accumulators as
R130..R133 say (R104, R105, R115, R117, R130, R131, R133). -/
def Obligations.AccumulatorAndChecksumOperationsWriteTheirResult : Prop :=
  AluRow .aclr 0x48 (fun _ => .acc 0) (fun _ => flags104 0 false false) ∧
  AluRow .aaddAsub 0x49 (fun x => .acc (x.accD + x.a.signExtend 104))
    (fun x => flags104 (x.accD + x.a.signExtend 104) (decide (2 ^ 104 ≤ x.accD.toNat + (x.a.signExtend 104).toNat))
      (!fits 104 (x.accD.toInt + x.a.toInt))) ∧
  AluRow .aaddAsub 0x4A (fun x => .acc (x.accD - x.a.signExtend 104))
    (fun x => flags104 (x.accD - x.a.signExtend 104) (decide (x.accD.toNat < (x.a.signExtend 104).toNat))
      (!fits 104 (x.accD.toInt - x.a.toInt))) ∧
  AluRow .ashr 0x4B (fun x => .acc (BitVec.ofInt 104 (x.accD.toInt / 2 ^ x.aux.toNat)))
    (fun x => flags104 (BitVec.ofInt 104 (x.accD.toInt / 2 ^ x.aux.toNat))
      (decide (0 < x.aux.toNat) && x.accD.getLsbD (min (x.aux.toNat - 1) 103)) false) ∧
  PlainRow .ahi 0x4C (fun x => BitVec.ofNat 48 (x.accA.toNat / 2 ^ 48)) ∧
  AluRow .ckadd 0x50
    (fun x => .acc (x.accD + BitVec.ofNat 104 (x.a.toNat % 65536 + x.a.toNat / 65536 % 65536 + x.a.toNat / 65536 / 65536)))
    (fun x => flags104
      (x.accD + BitVec.ofNat 104 (x.a.toNat % 65536 + x.a.toNat / 65536 % 65536 + x.a.toNat / 65536 / 65536)) false false) ∧
  PlainRow .ckfold 0x51 (fun x => if x.accA = 0 then 0 else BitVec.ofNat 48 ((x.accA.toNat - 1) % 65535 + 1)) ∧
  AluRow .crcb 0x52 (fun x => .acc (crcStep x.accD (x.a.extractLsb' 0 8)))
    (fun x => flags104 (crcStep x.accD (x.a.extractLsb' 0 8)) false false) ∧
  AluRow .crcw 0x53
    (fun x => .acc (crcStep (crcStep (crcStep (crcStep (crcStep (crcStep x.accD (x.a.extractLsb' 0 8))
      (x.a.extractLsb' 8 8)) (x.a.extractLsb' 16 8)) (x.a.extractLsb' 24 8)) (x.a.extractLsb' 32 8)) (x.a.extractLsb' 40 8)))
    (fun x => flags104 (crcStep (crcStep (crcStep (crcStep (crcStep (crcStep x.accD (x.a.extractLsb' 0 8))
      (x.a.extractLsb' 8 8)) (x.a.extractLsb' 16 8)) (x.a.extractLsb' 24 8)) (x.a.extractLsb' 32 8)) (x.a.extractLsb' 40 8))
      false false) ∧
  PlainRow .crcfin 0x54 (fun x => (~~~(x.accA.extractLsb' 0 32)).setWidth 48)

/-- MUL, MULU, MAC, MACU, MSU, DIV and DIVU start their unit; the product, the accumulation and the quotient land
exactly (R121, R124, R125, R126, R127, R128, R129). -/
def Obligations.MultipliesAndDividesStartAndDeliverTheirResult : Prop :=
  let Start (i : EngId → CtxId → Instr) (op : BitVec 7) (m : MWord → Word → Word → Mul) : Prop :=
    ∀ (s : State) (e : EngId) (k : CtxId) (w : MWord), Issues s.blk (ctxNo e k) w → AluAlone w → w.aluop = op →
      Gives (i e k) s (fun t =>
        let n := ctxNo e k
        let c := readFile s.blk n w
        OnlyFile s.blk t n (goneTo ((s.blk.ctx n).upc + 1)
          { c with muls := c.muls ++ [m w (srcA s.blk n w) (srcB s.blk n w)] }))
  Start .mulMulu 0x40 (fun _ a b => .prod (BitVec.ofInt 96 (a.toInt * b.toInt))) ∧
  Start .mulMulu 0x41 (fun _ a b => .prod (BitVec.ofNat 96 (a.toNat * b.toNat))) ∧
  Start .macMacu 0x44 (fun w a b => .mac (w.dst.extractLsb' 0 2) (BitVec.ofInt 104 (a.toInt * b.toInt))) ∧
  Start .macMacu 0x45 (fun w a b => .mac (w.dst.extractLsb' 0 2) (BitVec.ofNat 104 (a.toNat * b.toNat))) ∧
  Start .msu 0x46 (fun w a b => .mac (w.dst.extractLsb' 0 2) (BitVec.ofInt 104 (-(a.toInt * b.toInt)))) ∧
  (∀ (s : State) (e : EngId) (k : CtxId) (w : MWord), Issues s.blk (ctxNo e k) w → AluAlone w →
    (w.aluop = 0x42 ∨ w.aluop = 0x43) →
    Gives (.divDivu e k) s (fun t =>
      let n := ctxNo e k
      WordEffect s.blk t n (goneTo ((s.blk.ctx n).upc + 1) (readFile s.blk n w))
        (fun g => { g with div := some { k := ctxOf n, a := srcA s.blk n w, b := srcB s.blk n w,
                                         sgn := w.aluop == 0x42, lvl := lvlOf s.blk n, fupc := (s.blk.ctx n).upc } })
        (fun v => v) 0)) ∧
  (∀ (s : State) (e : EngId) (k : CtxId) (p : BitVec 96) (rest : List Mul), (s.blk.ctx (ctxNo e k)).muls = .prod p :: rest →
    Does (.mulProductWrite e k) s (settle (ctxNo e k) (s.blk.setCtx (ctxNo e k)
      { s.blk.ctx (ctxNo e k) with mph := BitVec.ofNat 48 (p.toNat / 2 ^ 48), mpl := BitVec.ofNat 48 p.toNat, muls := rest }))) ∧
  (∀ (s : State) (e : EngId) (k : CtxId) (i : BitVec 2) (p : Acc) (rest : List Mul),
    (s.blk.ctx (ctxNo e k)).muls = .mac i p :: rest →
    Does (.macAccumulate e k) s (settle (ctxNo e k) (s.blk.setCtx (ctxNo e k)
      { s.blk.ctx (ctxNo e k) with
        acc := setAcc4 (s.blk.ctx (ctxNo e k)).acc i (acc4 (s.blk.ctx (ctxNo e k)).acc i + p), muls := rest }))) ∧
  (∀ (s : State) (e : EngId) (d : Divide), (s.blk.eng e).div = some d →
    let n := ctxNo e d.k
    let b := s.blk.setEng e { s.blk.eng e with div := none }
    let c := b.file n d.lvl
    Does (.divideResult e) s (settle n (
      if d.b = 0 then
        let q : Word := if !d.sgn then 0xFFFFFFFFFFFF else if d.a.toInt < 0 then 0x800000000000 else 0x7FFFFFFFFFFF
        let b := b.setFile n d.lvl { c with dvq := q, dvr := d.a, stat := putBit c.stat 4 true }
        if c.stat.getLsbD 18 then
          injErrIf d.inj e (pendExc n
            { code := 0x0B, kind := if d.inj then 0 else 2, sub := 0, fupc := d.fupc, einfo := d.a, lvl := d.lvl } b)
        else b
      else if d.sgn then
        b.setFile n d.lvl { c with
          dvq := BitVec.ofInt 48 (d.a.toInt.tdiv d.b.toInt), dvr := BitVec.ofInt 48 (d.a.toInt.tmod d.b.toInt)
          stat := if d.a = 0x800000000000 ∧ d.b = 0xFFFFFFFFFFFF then putBit c.stat 3 true else c.stat }
      else
        b.setFile n d.lvl { c with
          dvq := BitVec.ofNat 48 (d.a.toNat / d.b.toNat), dvr := BitVec.ofNat 48 (d.a.toNat % d.b.toNat) })))

/-- NEXT, JUMP, DISPATCH and LOOP continue at UPC + 1, at TARGET, at the scaled index, and at TARGET while LC is not 0
(R91, R93, R94, R67). -/
def Obligations.NextJumpDispatchAndLoopContinueAtTheirTarget : Prop :=
  ∀ (s : State) (e : EngId) (k : CtxId) (w : MWord), Issues s.blk (ctxNo e k) w → SeqAlone w →
    let n := ctxNo e k
    let c := readFile s.blk n w
    let next := (s.blk.ctx n).upc + 1
    (w.seq = 0 → Gives (.next e k) s (fun t => OnlyFile s.blk t n (goneTo next c))) ∧
    (w.seq = 1 → Gives (.jump e k) s (fun t =>
      WordEffect s.blk t n (goneTo w.target c) (loopRange (s.blk.ctx n).upc w.target) (fun v => v) 0)) ∧
    (w.seq = 8 → Gives (.dispatch e k) s (fun t =>
      let i := (srcA s.blk n w).toNat % 2 ^ (w.aux8.toNat % 16)
      OnlyFile s.blk t n (goneTo (w.target + BitVec.ofNat 14 (i * 2 ^ (w.aux8.toNat / 16 % 4))) c))) ∧
    (w.seq = 9 → Gives (.loop e k) s (fun t =>
      WordEffect s.blk t n (goneTo (if c.lc = 1 then next else w.target) { c with lc := c.lc - 1 })
        (loopRange (s.blk.ctx n).upc w.target) (fun v => v) 0))

/-- WAIT, YIELD, PARK and FENCE stop the context until their condition, or let it pass; the ends of a WAIT and of a
FENCE (R50, R51, R52, R55, R61, R96, R235). -/
def Obligations.WaitYieldParkAndFenceStopOrPassTheContext : Prop :=
  (∀ (s : State) (e : EngId) (k : CtxId) (w : MWord), Issues s.blk (ctxNo e k) w → SeqAlone w →
    let n := ctxNo e k
    let c := readFile s.blk n w
    let next := (s.blk.ctx n).upc + 1
    (w.seq = 6 → Gives (.wait e k) s (fun t =>
      if source s.blk n (fileOf s.blk n) w.lq w.wsel then
        OnlyFile s.blk t n (goneTo next { c with
          stat := putBit c.stat 8 false
          latch := if 40 ≤ w.wsel.toNat then c.latch.drop (BitVec.ofNat 24 (2 ^ (w.wsel.toNat - 40))) else c.latch })
      else
        OnlyFile s.blk t n (heldIn (.wait w.wsel w.lq
          (if w.aux8.toNat % 16 = 0 then none
           else some (s.blk.now + w.aux8.toNat % 16 * 2 ^ (w.aux8.toNat / 16 + 4))) w.target) c))) ∧
    (w.seq = 10 → Gives (.yield e k) s (fun t =>
      let m := w.imm48.extractLsb' 0 24
      OnlyFile s.blk t n (if (s.blk.ctx n).latch.on &&& m ≠ 0 then goneTo next c else heldIn (.yieldOn m) c))) ∧
    (w.seq = 11 → Gives (.park e k) s (fun t =>
      OnlyFile s.blk t n (heldIn (.park (srcA s.blk n w) (w.imm48.extractLsb' 0 9)) c))) ∧
    (w.seq = 13 → Gives (.fence e k) s (fun t =>
      let cl := w.aux8.extractLsb' 0 3
      OnlyFile s.blk t n (if fenceHeld s.blk n cl s.blk.seq then heldIn (.fence cl s.blk.seq) c else goneTo next c)))) ∧
  (∀ (s : State) (e : EngId) (k : CtxId) (cl : BitVec 3) (before : Nat),
    (s.blk.ctx (ctxNo e k)).act = .fence cl before → fenceHeld s.blk (ctxNo e k) cl before = false →
    Does (.fenceComplete e k) s (s.blk.setCtx (ctxNo e k)
      { s.blk.ctx (ctxNo e k) with upc := (s.blk.ctx (ctxNo e k)).upc + 1, act := .idle })) ∧
  (∀ (s : State) (e : EngId) (k : CtxId) (src : BitVec 6) (lq : BitVec 4) (d : Nat) (target : CsAddr),
    let n := ctxNo e k
    (s.blk.ctx n).act = .wait src lq (some d) target → source s.blk n (fileOf s.blk n) lq src = false → d ≤ s.blk.now → s.blk.paused_ (cluOf e) = false →
    let c := fileOf s.blk n
    Gives (.waitTimeout e k) s (fun t => OnlyParts s.blk t n
      (unviewCtx (s.blk.ctx n) { c with stat := putBit c.stat 8 true, upc := target, act := .idle } (lvlOf s.blk n))
      (unviewEng (s.blk.eng e) { c with stat := putBit c.stat 8 true } (lvlOf s.blk n))))

/-- SYNC arrives at its barrier; the N-th arrival releases every member; a timeout withdraws the arrival (R95, R51).
-/
def Obligations.SyncHoldsItsMembersUntilTheLastArrives : Prop :=
  (∀ (s : State) (e : EngId) (k : CtxId) (w : MWord), Issues s.blk (ctxNo e k) w → SeqAlone w → w.seq = 12 →
    let n := ctxNo e k
    let c := readFile s.blk n w
    let bar := w.imm48.extractLsb' 0 3
    let want := (w.imm48.extractLsb' 3 8).toNat
    let here := (Map.get {} (s.blk.clu (cluOf e)).bars bar.toNat).members
    Gives (.sync e k) s (fun t =>
      if here.length + 1 < want then
        WordEffect s.blk t n (heldIn (.sync bar
            (if w.aux8.toNat % 16 = 0 then none
             else some (s.blk.now + w.aux8.toNat % 16 * 2 ^ (w.aux8.toNat / 16 + 4))) w.target) c)
          (fun g => g) (fun v => { v with bars := Map.set {} v.bars bar.toNat { n := want, members := here ++ [n] } }) 0
      else
        t = { granted s.blk n with ctxs := t.ctxs, engs := t.engs, clus := t.clus, free := t.free } ∧
        (∀ m, t.ctx m = if m = n then unviewCtx (s.blk.ctx n) (goneTo ((s.blk.ctx n).upc + 1) c) (lvlOf s.blk n)
          else if m ∈ here then { s.blk.ctx m with
            upc := (s.blk.ctx m).upc + BitVec.ofNat 14 (here.count m), act := .idle }
          else s.blk.ctx m) ∧
        (∀ x, t.eng x = if x = e then unviewEng (issuedEng s.blk n) c (lvlOf s.blk n) else s.blk.eng x) ∧
        (∀ x, t.clu x = if x = cluOf e then { s.blk.clu x with bars := Map.set {} (s.blk.clu x).bars bar.toNat {} }
          else s.blk.clu x))) ∧
  (∀ (s : State) (e : EngId) (k : CtxId) (bar : BitVec 3) (d : Nat) (target : CsAddr),
    let n := ctxNo e k
    (s.blk.ctx n).act = .sync bar (some d) target → lvlOf s.blk n = .prog → d ≤ s.blk.now → s.blk.paused_ (cluOf e) = false →
    Gives (.syncTimeout e k) s (fun t =>
      let left := (Map.get {} (s.blk.clu (cluOf e)).bars bar.toNat).members.filter (fun m => m != n)
      t = { s.blk with ctxs := t.ctxs, engs := t.engs, clus := t.clus } ∧
      (∀ m, t.ctx m = if m = n then
          { s.blk.ctx n with stat := putBit (s.blk.ctx n).stat 8 true, upc := target, act := .idle } else s.blk.ctx m) ∧
      (∀ x, t.eng x = s.blk.eng x) ∧ (∀ x, x ≠ cluOf e → t.clu x = s.blk.clu x) ∧
      (Map.get {} (t.clu (cluOf e)).bars bar.toNat).members = left ∧
      ∀ j, j ≠ bar.toNat → Map.get {} (t.clu (cluOf e)).bars j = Map.get {} (s.blk.clu (cluOf e)).bars j))

/-- TRAP raises trap 0x0C with AUX8 behind the word; HALT halts, raises DEBUG or passes as DBG_ENG_CFG.MODE says (R91,
R145, R151, R465, R472). -/
def Obligations.TrapAndHaltActAsTheDebugModeAndTheTrapRuleSay : Prop :=
  ∀ (s : State) (e : EngId) (k : CtxId) (w : MWord), Issues s.blk (ctxNo e k) w → SeqAlone w →
    let n := ctxNo e k
    let c := readFile s.blk n w
    let upc := (s.blk.ctx n).upc
    let at1 := goneTo (upc + 1) c
    let d := (s.blk.eng e).dbg
    (w.seq = 5 → Gives (.trap e k) s (fun t => OnlyFile s.blk t n { at1 with
      excs := withExc s.blk.now c.excs
        { code := 0x0C, kind := 2, sub := 0, fupc := upc, einfo := w.aux8.setWidth 48, lvl := lvlOf s.blk n } })) ∧
    (w.seq = 14 → Gives (.halt e k) s (fun t =>
      if d.mode = 1 then
        WordEffect s.blk t n { at1 with halt := { at1.halt with request := some (2, 0) } }
          (fun g => if d.haltAll then { g with dbg := { g.dbg with haltReq := true } } else g) (fun v => v) 0
      else if d.mode = 2 ∧ lvlOf s.blk n = .prog then
        OnlyFile s.blk t n { at1 with
          excs := withExc s.blk.now c.excs { code := 0x0E, kind := 2, sub := 0x3E, fupc := upc, lvl := .prog } }
      else OnlyFile s.blk t n at1))

/-- CALL writes its frame and shadow entry and continues at the target; RET checks the frame and restores the
registers (R97, R98, R99, R100, R101, R103). -/
def Obligations.CallAndReturnTransferTheirFrame : Prop :=
  (∀ (s : State) (e : EngId) (k : CtxId) (w : MWord), Issues s.blk (ctxNo e k) w → SeqAlone w →
    let n := ctxNo e k
    let r := snapOf s.blk n w none false
    (w.seq = 2 → Gives (.call e k) s (fun t =>
      WordEffect s.blk t n (heldIn (.call r) (readFile s.blk n w)) (fun g => g) (fun v => v) 1)) ∧
    (w.seq = 3 → Gives (.ret e k) s (fun t =>
      WordEffect s.blk t n (heldIn (.ret r) (readFile s.blk n w)) (fun g => g) (fun v => v) 1))) ∧
  (∀ (s : State) (e : EngId) (k : CtxId) (r : Snap),
    let n := ctxNo e k
    let c := s.blk.file n r.lvl
    let a := frameAddr s.blk n r.lvl r.ssp.toNat
    (s.blk.ctx n).act = .call r → bankBehind s.blk e r.seq (banksOf s.blk a.toNat r.frame.length) = false →
    frameFault s.blk n r true a r.frame.length = none →
    let m := bankWrite n a.toNat r.frame s.blk
    Gives (.callFrameDone e ⟨k, .ok⟩) s (fun t =>
      let c' : Ctx := { c with
        shadow := c.shadow.setIfInBounds r.ssp.toNat (r.upc + 1), ssp := r.ssp + 1, act := .idle
        upc := if r.w.aux8.getLsbD 0 then r.a.extractLsb' 0 14 else r.w.target }
      OnlyParts m t n (unviewCtx (s.blk.ctx n) c' r.lvl) (unviewEng (s.blk.eng e) c' r.lvl))) ∧
  (∀ (s : State) (e : EngId) (k : CtxId) (r : Snap),
    let n := ctxNo e k
    let c := s.blk.file n r.lvl
    let d := r.ssp.toNat - 1
    let a := frameAddr s.blk n r.lvl d
    let x := portARead a.toNat 8 s.blk
    let h := x.2
    let ret : BitVec 16 := ofBytes 16 (h.take 2)
    let mask : BitVec 16 := ofBytes 16 ((h.drop 2).take 2)
    let cls : BitVec 2 := (nth 0 h 4).extractLsb' 0 2
    let entry := nth 0 c.shadow.toList d
    let bits := savedBits cls mask
    let len := (bits.map (savedSize cls)).foldl (· + ·) 0
    (s.blk.ctx n).act = .ret r → bankBehind s.blk e r.seq (banksOf s.blk a.toNat 0x68) = false →
    frameFault s.blk n r false a 8 = none →
    (ret = entry.setWidth 16 ∧ (nth 0 h 5).toNat = d ∧ cls ≠ 3 ∧ (cls = 2 → mask.extractLsb' 8 8 = 0) ∧
        (len = 0 ∨ frameFault x.1 n r false (a + 8) len = none) →
      Gives (.retRestoreDone e k .ok) s (fun t =>
        let y := portARead (a + 8).toNat len x.1
        let c' : Ctx := { restoreAll cls bits y.2 c with
          ssp := BitVec.ofNat 6 d, upc := entry, act := .idle }
        OnlyParts y.1 t n (unviewCtx (s.blk.ctx n) c' r.lvl) (unviewEng (s.blk.eng e) c' r.lvl))) ∧
    (ret ≠ entry.setWidth 16 ∨ (nth 0 h 5).toNat ≠ d →
      Does (.retRestoreDone e k .ok) s (pendExc n
        { code := 4, kind := 0, sub := if ret ≠ entry.setWidth 16 then 2 else 3, fupc := r.upc, lvl := r.lvl
          einfo := (ret.extractLsb' 0 14).setWidth 48 ||| entry.setWidth 48 <<< 14 ||| (nth 0 h 5).setWidth 48 <<< 28 }
        (x.1.setCtx n { s.blk.ctx n with act := .idle }))))

/-- AT waits for the tick in SRCA, takes a timed entry 16 ticks before, and goes on past the word at the target (R53,
R54, R368, R374). -/
def Obligations.AtHoldsItsWordForTheTargetTick : Prop :=
  (∀ (s : State) (e : EngId) (k : CtxId) (w : MWord), Issues s.blk (ctxNo e k) w → SeqAlone w → w.seq = 7 →
    let n := ctxNo e k
    let c := readFile s.blk n w
    let a := srcA s.blk n w
    Gives (.atW e k) s (fun t =>
      if reached s.blk.tick a then
        OnlyFile s.blk t n (goneTo ((s.blk.ctx n).upc + 1) { c with stat := putBit c.stat 9 true })
      else OnlyFile s.blk t n (heldIn (.atWait (snapOf s.blk n w none false) a (decide ((a - s.blk.tick).toNat < 16)))
        c))) ∧
  (∀ (s : State) (e : EngId) (k : CtxId) (r : Snap) (a : Tick) (late : Bool),
    let n := ctxNo e k
    let r' : Snap := { snapOf s.blk n r.w r.inj false with priv := r.priv }
    (s.blk.ctx n).act = .atWait r a late → SeqAlone r.w →
    allCtx.find? (fun j => atReady s.blk (ctxNo e j)) = some k → wordFault s.blk n r' = none →
    Gives (.atDue e k) s (fun t =>
      let c : Ctx := { readFile s.blk n r.w with act := .atDue r' a late }
      OnlyParts s.blk t n (unviewCtx (s.blk.ctx n) c (lvlOf s.blk n)) (unviewEng (s.blk.eng e) c (lvlOf s.blk n)))) ∧
  (∀ (s : State) (e : EngId) (k : CtxId) (r : Snap) (a : Tick) (late : Bool),
    let n := ctxNo e k
    let c := s.blk.file n r.lvl
    (s.blk.ctx n).act = .atDue r a late → SeqAlone r.w → reached s.blk.tick a = true →
    s.blk.paused_ (cluOf e) = false →
    Gives (.atTarget e k) s (fun t =>
      let c' : Ctx := { c with stat := if late || !(onTime s.blk a) then putBit c.stat 9 true else c.stat,
                               upc := r.upc + 1, act := .idle }
      OnlyParts s.blk t n (unviewCtx (s.blk.ctx n) c' r.lvl) (unviewEng (s.blk.eng e) c' r.lvl)))

/-- Exception entry saves the context into the shadow bank above its level and goes to the vector; RETX brings it back
(R147, R151, R154, R155, R157, R158, R161, R163, R164, R165). -/
def Obligations.ExceptionEntryAndReturn : Prop :=
  (∀ (s : State) (e : EngId) (k : CtxId) (x : Exc),
    let n := ctxNo e k
    let c := s.blk.ctx n
    let g := s.blk.eng e
    let v := s.blk.clu (cluOf e)
    let m := leaveFor n x s.blk
    settle n s.blk = s.blk → engineLive s.blk e = true → haltPending s.blk n = false → takeable s.blk n = some x →
    let long := x.long || (match c.act with
      | .longNext _ | .shift _ => true
      | _ => false)
    let c1 := { m.ctx n with
      excs := (m.ctx n).excs.filter (fun y => !(x.same y)), excWait := false, halt := { c.halt with stepping := false } }
    let ch := { c1 with halt := { c.halt with skipCmp := false, stepping := false } }
    let g0 := if x.code = 0x0D then { m.eng e with swi := g.swi.clear s.blk.now (BitVec.ofNat 16 (2 ^ k.toNat)) } else m.eng e
    let bank1 := { g.xb1 with
      owner := k, held := true, ecause := ecauseOf x x.code x.sub long false, eupc := (m.ctx n).upc, estat := c.stat
      epriv := c.stat.getLsbD 16, einfo := x.einfo, eprog := c.prog, stat := 0x30000, lc := 0, cmap := 0, ssp := 0, priv := 0 }
    let bank2 (k1 : Bank) := { g.xb2 with
      owner := k, held := true, ecause := ecauseOf x 0x10 x.code long true, eupc := (m.ctx n).upc, estat := k1.stat
      epriv := true, einfo := x.einfo, eprog := k1.priv, stat := 0x30000, lc := 0, cmap := 0, ssp := 0, priv := 0 }
    (c.lvl = .prog → bankTaken s.blk e = false → entryFaults v x.code = false →
      Gives (.exceptionEntry e k) s (fun t => OnlyParts m t n
        { ch with lvl := .bank1
                  upc := if x.code = 0x0E then v.monEntry else BitVec.ofNat 14 (v.xvBase.toNat * 64 + x.code.toNat * 4) }
        { g0 with xb1 := bank1 })) ∧
    (c.lvl = .prog → bankTaken s.blk e = false → entryFaults v x.code = true → entryFaults v 0x10 = false →
      Gives (.exceptionEntry e k) s (fun t => OnlyParts m t n
        { ch with lvl := .bank2, upc := BitVec.ofNat 14 (v.xvBase.toNat * 64 + 0x40) }
        { g0 with xb1 := bank1, xb2 := bank2 bank1 })) ∧
    (c.lvl = .bank1 → entryFaults v 0x10 = false →
      Gives (.exceptionEntry e k) s (fun t => OnlyParts m t n
        { ch with lvl := .bank2, upc := BitVec.ofNat 14 (v.xvBase.toNat * 64 + 0x40) }
        { g0 with xb2 := bank2 g.xb1 })) ∧
    (c.lvl = .bank2 ∨ (c.lvl = .bank1 ∧ entryFaults v 0x10 = true) →
      Gives (.exceptionEntry e k) s (fun t =>
        let code := if c.lvl = .bank2 then x.code else 0x10
        OnlyParts (detect e.toNat 0x20 (k.setWidth 24 ||| code.setWidth 24 <<< 4) m) t n
          { c1 with excWait := c.excWait } { g0 with resetAt := some (s.blk.now + 1) })) ∧
    (c.lvl = .prog → bankTaken s.blk e = true →
      Gives (.exceptionEntry e k) s (fun t => OnlyParts m t n
        { m.ctx n with excWait := true, halt := { c.halt with stepping := false }
                       excs := (m.ctx n).excs.map (fun y => if x.same y then { y with long := y.long || c.act.midLong } else y) }
        { m.eng e with waitq := g.waitq ++ [k] }))) ∧
  (∀ (s : State) (e : EngId) (k : CtxId) (x : Exc),
    let n := ctxNo e k
    let c := s.blk.ctx n
    let g := s.blk.eng e
    let v := s.blk.clu (cluOf e)
    g.xb1.held = false → firstWaiter s.blk e = some k → firstExc c.excs = some x →
    c.lvl = .prog → c.act = .idle → x.code ≠ 0x0D → entryFaults v x.code = false →
    Gives (.shadowBankGrant e) s (fun t => OnlyParts s.blk t n
      { c with excs := c.excs.filter (fun y => !(x.same y)), excWait := false, lvl := .bank1, halt := { c.halt with skipCmp := false }
               upc := if x.code = 0x0E then v.monEntry else BitVec.ofNat 14 (v.xvBase.toNat * 64 + x.code.toNat * 4) }
      { g with waitq := g.waitq.erase k, xb1 := { g.xb1 with
        owner := k, held := true, ecause := ecauseOf x x.code x.sub x.long false, eupc := c.upc, estat := c.stat
        epriv := c.stat.getLsbD 16, einfo := x.einfo, eprog := c.prog
        stat := 0x30000, lc := 0, cmap := 0, ssp := 0, priv := 0 } })) ∧
  (∀ (s : State) (e : EngId) (k : CtxId) (w : MWord),
    let n := ctxNo e k
    let g := s.blk.eng e
    Issues s.blk n w → SeqAlone w → w.seq = 4 →
    let f := heldIn .idle (readFile s.blk n w)
    (lvlOf s.blk n = .bank1 → Gives (.retx e k) s (fun t =>
      let c := unviewCtx (s.blk.ctx n) f .bank1
      let h := unviewEng (issuedEng s.blk n) f .bank1
      OnlyParts (granted s.blk n) t n
        { c with lvl := .prog, stat := g.xb1.estat, upc := g.xb1.eupc, prog := g.xb1.eprog
                 halt := { c.halt with skipCmp := true } }
        { h with xb1 := { h.xb1 with held := false } })) ∧
    (lvlOf s.blk n = .bank2 → Gives (.retx e k) s (fun t =>
      let c := unviewCtx (s.blk.ctx n) f .bank2
      let h := unviewEng (issuedEng s.blk n) f .bank2
      OnlyParts (granted s.blk n) t n
        { c with lvl := .bank1, upc := g.xb2.eupc, halt := { c.halt with skipCmp := true } }
        { h with xb2 := { h.xb2 with held := false }, xb1 := { h.xb1 with stat := g.xb2.estat, priv := h.xb2.eprog } }))) ∧
  (∀ (b : Block) (n : CtxNo) (x : Exc), takeable b n = some x → x.kind ≠ 3 →
    x ∈ (b.ctx n).excs ∧ (b.ctx n).lvl.num ≤ x.lvl.num ∧
    ∀ y ∈ (b.ctx n).excs, (b.ctx n).lvl.num ≤ y.lvl.num → (y.kind ≠ 1 ∨ wouldIssue b n = true) →
      heldTrap (b.ctx n) y = false → x.rank ≤ y.rank)

/-- Every scalar load, store, LR6, SC6, REL and Affix word leaves its request under MTAG and goes on; modes 1 and 2
write MBASE (R38, R70, R106, R107, R108, R223, R226). -/
def Obligations.MemoryAndAffixWordsLeaveTheirRequestUnderTheTag : Prop :=
  (∀ (s : State) (e : EngId) (k : CtxId) (w : MWord) (i : Instr), Issues s.blk (ctxNo e k) w → MemAlone w →
    ((w.memop = 1 ∨ w.memop = 2) ∧ i = .ld1Ld1s e k ∨ (w.memop = 3 ∨ w.memop = 4) ∧ i = .ld2Ld2s e k ∨
     (w.memop = 5 ∨ w.memop = 6) ∧ i = .ld4Ld4s e k ∨ w.memop = 7 ∧ i = .ld6 e k ∨
     (w.memop = 8 ∨ w.memop = 9) ∧ i = .ld8Ld8s e k ∨ w.memop = 0x0A ∧ i = .ld12 e k ∨
     (w.memop = 0x10 ∨ w.memop = 0x11 ∨ w.memop = 0x12 ∨ w.memop = 0x13) ∧ i = .st1St2St4St6 e k ∨
     (w.memop = 0x14 ∨ w.memop = 0x15) ∧ i = .st8St12 e k ∨ w.memop = 0x18 ∧ i = .lr6 e k ∨
     w.memop = 0x19 ∧ i = .sc6 e k ∨ w.memop = 0x1A ∧ i = .rel e k) →
    Gives i s (fun t =>
      let n := ctxNo e k
      let a := (effAddr s.blk n (fileOf s.blk n) w).toNat
      let affix := decide (0x100000000 ≤ a)
      let kind : PendKind := if affix then .affixMem w.memop
        else if 0x80000000 ≤ a then .window (w.memop == 0x12) else .mem w.memop
      WordEffect s.blk t n (goneTo ((s.blk.ctx n).upc + 1) (withBase s.blk n w (readFile s.blk n w)))
        (fun g => { underTag w.mtag (requestUnder s.blk n w kind) g with
          afxQ := if affix then g.afxQ ++ [w.mtag] else g.afxQ }) (fun v => v) 1)) ∧
  (∀ (s : State) (e : EngId) (k : CtxId) (w : MWord), Issues s.blk (ctxNo e k) w →
    w.memop = 0 → w.laneop = 0 → w.xfer = 0 → w.seq = 0 → w.isAfx = true →
    Gives (.afx e k) s (fun t =>
      let n := ctxNo e k
      WordEffect s.blk t n (goneTo ((s.blk.ctx n).upc + 1) (readFile s.blk n w))
        (fun g => { underTag w.mtag (requestUnder s.blk n w .affix) g with afxQ := g.afxQ ++ [w.mtag] }) (fun v => v) 1))

/-- MEMORY_LOAD_RESULT writes the loaded value, LR6's with its reservation, or SC6's 1 or 0, and frees the tag (R36,
R39, R106, R108, R230, R240, R242, R246, R247). -/
def Obligations.AnAnsweredLoadWritesItsDestinationAndFreesItsTag : Prop :=
  ∀ (s : State) (e : EngId) (t : BitVec 5) (ecc : Ecc) (p : Pend) (op : BitVec 6),
    (s.blk.eng e).tag t = some p → p.kind = .mem op → (isLoadOp op = true ∨ op = 0x19) →
    let n := ctxNo e p.k
    let a := p.ea.toNat
    let size := opSize op
    bankBehind s.blk e p.seq (banksOf s.blk a size) = false → s.blk.dbg.pActive = false →
    let b1 := arrive s.blk p.tenant true (op == 0x19) a size (linesOf a size) ecc
    bankCheck b1 p.tenant true (op == 0x19) a size = .pass →
    let b := (portARead a size b1).1
    let bytes := (portARead a size b1).2
    let free (m : Block) : Block := m.setEng e ((m.eng e).setTag t none)
    let put (m : Block) (v : Word) : Block := settle n (free (m.setFile n p.lvl (writeDst p.priv (m.file n p.lvl) p.dst v)))
    let putAcc (v : Acc) : Block := settle n (free (b.setFile n p.lvl (writeAcc (b.file n p.lvl) p.dst v)))
    (op = 1 ∨ op = 3 ∨ op = 5 ∨ op = 7 → Does (.memoryLoadResult e t ecc) s (put b (BitVec.ofNat 48 (natOfBytes bytes)))) ∧
    (op = 2 → Does (.memoryLoadResult e t ecc) s (put b ((BitVec.ofNat 8 (natOfBytes bytes)).signExtend 48))) ∧
    (op = 4 → Does (.memoryLoadResult e t ecc) s (put b ((BitVec.ofNat 16 (natOfBytes bytes)).signExtend 48))) ∧
    (op = 6 → Does (.memoryLoadResult e t ecc) s (put b ((BitVec.ofNat 32 (natOfBytes bytes)).signExtend 48))) ∧
    (op = 8 ∨ op = 0x0A → isAcc p.dst = true →
      Does (.memoryLoadResult e t ecc) s (putAcc (BitVec.ofNat 104 (natOfBytes bytes)))) ∧
    (op = 9 → isAcc p.dst = true →
      Does (.memoryLoadResult e t ecc) s (putAcc ((BitVec.ofNat 64 (natOfBytes bytes)).signExtend 104))) ∧
    (op = 0x18 → Does (.memoryLoadResult e t ecc) s (put (loadReserve n a b) (BitVec.ofNat 48 (natOfBytes bytes)))) ∧
    (op = 0x19 → Does (.memoryLoadResult e t ecc) s
      (if scHolds b n a then put (bankWrite n a (bytesOf 6 p.data) b) 1 else put b 0))

/-- STORE_ACCEPTED stores the low bytes at the effective address and no other byte, ends the reservations it touches,
frees its tag (R106, R108, R230, R233, R243, R247, R248). -/
def Obligations.AnAcceptedStoreChangesItsOwnBytesOnly : Prop :=
  ∀ (s : State) (e : EngId) (t : BitVec 5) (p : Pend) (op : BitVec 6),
        let n := ctxNo e p.k
    let a := p.ea.toNat
    let size := opSize op
    (s.blk.eng e).tag t = some p → p.kind = .mem op → bankBehind s.blk e p.seq (banksOf s.blk a size) = false →
    ((0x10 ≤ op.toNat ∧ op.toNat ≤ 0x15) → s.blk.dbg.pActive = false →
      bankCheck s.blk p.tenant false true a size = .pass →
      Gives (.storeAccepted e ⟨t, .ok⟩) s (fun u =>
        (∀ x, readByte u x = if a ≤ x ∧ x < a + size then p.data.extractLsb' (8 * (x - a)) 8 else readByte s.blk x) ∧
        u.leases = s.blk.leases.filter (fun l => decide (l.owner = n ∨ ¬ (l.addr < a + size ∧ a < l.addr + 6))) ∧
        u.poison = s.blk.poison.filter (fun l => !decide (a ≤ 8 * l ∧ 8 * l + 8 ≤ a + size)) ∧
        (∀ x t', (u.eng x).tag t' = if x = e ∧ t' = t then none else (s.blk.eng x).tag t') ∧
        (∀ x, x ≠ e → u.eng x = s.blk.eng x) ∧
        (∀ m, m ≠ n → u.ctx m = s.blk.ctx m) ∧
        (a + size ≤ 0x4000000 →
          u.touched = s.blk.touched ∧ u.units = s.blk.units ∧ u.imp = s.blk.imp ∧ u.free = s.blk.free) ∧
        u = { s.blk with mem := u.mem, leases := u.leases, poison := u.poison, wbs := u.wbs, engs := u.engs,
                         ctxs := u.ctxs, touched := u.touched, units := u.units, imp := u.imp, free := u.free })) ∧
    (∀ ecc, op = 0x1A → bankCheck s.blk p.tenant false false a size = .pass →
      Does (.storeAccepted e ⟨t, ecc⟩) s (settle n
      { s.blk.setEng e ((s.blk.eng e).setTag t none) with
        leases := s.blk.leases.filter (fun l => !(l.owner == n && l.addr == a)) }))

/-- A load, store or REL that a fenced section, the region check or a poisoned line refuses raises its deferred fault
(R145, R224, R230, R243, R250, R276). -/
def Obligations.ARefusedAccessRaisesItsDeferredFault : Prop :=
  ∀ (s : State) (e : EngId) (t : BitVec 5) (p : Pend) (op : BitVec 6),
    let n := ctxNo e p.k
    let a := p.ea.toNat
    let size := opSize op
    (s.blk.eng e).tag t = some p → p.kind = .mem op → bankBehind s.blk e p.seq (banksOf s.blk a size) = false →
    s.blk.dbg.pActive = false →
    let fault (code sub : BitVec 6) (m : Block) : Block := settle n (injErrIf p.inj e (pendExc n
      { code := code, kind := if p.inj then 0 else 1, sub := sub, fupc := p.fupc, tag := if p.inj then 0 else t
        einfo := p.ea, lvl := p.lvl } (m.setEng e ((m.eng e).setTag t none))))
    let refused (i : Instr) (k : BankCheck) (m : Block) : Prop := match k with
      | .pass => True
      | .bus => Does i s (fault 5 3 m)
      | .region => Does i s (fault 6 0 m)
      | .memue => Does i s (fault 7 0 m)
    (∀ ecc, (isLoadOp op = true ∨ op = 0x19) →
      let m := arrive s.blk p.tenant true (op == 0x19) a size (linesOf a size) ecc
      refused (.memoryLoadResult e t ecc) (bankCheck m p.tenant true (op == 0x19) a size) m) ∧
    (∀ ecc, isLoadOp op = false → op ≠ 0x19 →
      let m := arrive s.blk p.tenant false (op != 0x1A) a size (if op = 0x1A then [] else mergeLines false a size) ecc
      refused (.storeAccepted e ⟨t, ecc⟩) (bankCheck m p.tenant false (op != 0x1A) a size) m) ∧
    (∀ rd wr ls ecc y, partsOf a size = [(a, size)] → inFenced s.blk a size = false →
      refusedAt s.blk p.tenant rd wr a size = some y →
      arrive s.blk p.tenant rd wr a size ls ecc = detect (bankSrc (bankOf s.blk y)) 4 (lineInfo y) s.blk)

/-- AFFIX_REQUEST sends the next engine's oldest request; a response writes DST and FLAG; a timeout raises AFXTMO and
advances GEN (R70, R71, R72, R73, R276, R522). -/
def Obligations.AffixRequestsAreSentAnsweredOrTimedOut : Prop :=
  (∀ (s : State) (c : CluId) (d : Nat) (i : BitVec 3), (s.blk.clu c).asleep = false → s.blk.fenced (cluSec c) = false →
    d < 8 → i = (s.blk.clu c).afxRr + 1 + BitVec.ofNat 3 d → (s.blk.eng (mkEng c i)).afxQ ≠ [] →
    (∀ j < d, (s.blk.eng (mkEng c ((s.blk.clu c).afxRr + 1 + BitVec.ofNat 3 j))).afxQ = []) →
    Does (.affixRequest c) s
      ((s.blk.setEng (mkEng c i) { s.blk.eng (mkEng c i) with afxQ := (s.blk.eng (mkEng c i)).afxQ.tail }).setClu c
        { s.blk.clu c with afxRr := i })) ∧
  (∀ (s : State) (c : CluId) (r : AfxResponse) (p : Pend),
    let e := mkEng c r.eng
    let g := s.blk.eng e
    let n := ctxNo e p.k
    s.blk.fenced (cluSec c) = false → s.blk.dbg.pActive = false →
    (r.gen ≠ Map.get 0 g.tagGen r.tag.toNat →
      Does (.affixResponse c r) s (detect e.toNat 0x21 (r.ctx.setWidth 24 ||| r.tag.setWidth 24 <<< 4)
        (s.blk.setEng e { g with afxLate := g.afxLate.count s.blk.now 1 }))) ∧
    (r.gen = Map.get 0 g.tagGen r.tag.toNat → g.tag r.tag = some p → p.kind = .affix → p.k = r.ctx →
      r.tag ∉ g.afxQ →
      let b := s.blk.setCtx n { s.blk.ctx n with afxFlag := r.flag }
      let m := b.setFile n p.lvl (writeDst p.priv (b.file n p.lvl) p.dst r.result)
      let fault (code sub : BitVec 6) (info : Word) (v : Block) : Block := injErrIf p.inj e (pendExc n
        { code := code, kind := if p.inj then 0 else 1, sub := sub, fupc := p.fupc, tag := if p.inj then 0 else r.tag
          einfo := info, lvl := p.lvl } (v.setEng e ((v.eng e).setTag r.tag none)))
      (r.err = true → Does (.affixResponse c r) s (settle n (fault 8 0 (r.gen.setWidth 48) s.blk))) ∧
      (∀ code sub info, r.err = false → dstFault p.priv p.lvl (b.file n p.lvl) p.dst r.result = some (code, sub, info) →
        Does (.affixResponse c r) s (settle n (fault code sub info b))) ∧
      (r.err = false → dstFault p.priv p.lvl (b.file n p.lvl) p.dst r.result = none →
        Does (.affixResponse c r) s
          (settle n (m.setEng e ((m.eng e).setTag r.tag none)))))) ∧
  (∀ (s : State) (e : EngId) (t : BitVec 5) (p : Pend),
    let g := s.blk.eng e
    let gen := Map.get 0 g.tagGen t.toNat
    g.tag t = some p → p.isAffix = true →
    Does (.affixTimeout e t) s (settle (ctxNo e p.k) (injErrIf p.inj e (pendExc (ctxNo e p.k)
      { code := 9, kind := if p.inj then 0 else 1, sub := 0, fupc := p.fupc, tag := if p.inj then 0 else t
        einfo := gen.setWidth 48, lvl := p.lvl }
      (s.blk.setEng e ({ g with
        tagGen := Map.set 0 g.tagGen t.toNat (gen + 1), afxQ := g.afxQ.filter (fun x => x != t) }.setTag t none))))))

/-- LR6 takes, renews or is denied a lease; SC6 needs it live; LEASE_EXPIRY ends it with LEASE_LOST (R245, R246, R247,
R248, R255). -/
def Obligations.ReservationsAreTakenRenewedAndLost : Prop :=
  (∀ (b : Block) (n : CtxNo) (a u : Nat), unitOf a = some u →
    let mine := b.leases.filter (fun l => l.owner == n)
    let room : Prop := (b.leases.filter (fun l => l.unit == u)).length < (if u = 8 then 256 else 64)
    let until_ := b.now + max 64 (b.unit u).lease.toNat
    ((∃ l ∈ b.leases, l.owner ≠ n ∧ l.addr < a + 6 ∧ a < l.addr + 6) → loadReserve n a b = b) ∧
    ((∀ l ∈ b.leases, l.owner ≠ n → ¬ (l.addr < a + 6 ∧ a < l.addr + 6)) →
      (mine = [] → room → (loadReserve n a b).leases = b.leases ++ [{ unit := u, owner := n, addr := a, expiry := until_ }]) ∧
      (mine = [] → ¬ room → loadReserve n a b = b.modUnit u (fun m => { m with full := m.full.count b.now 1 })) ∧
      (∀ l, mine = [l] → l.addr = a → (loadReserve n a b).leases =
        b.leases.map (fun x => if x.owner = n then { x with expiry := until_ } else x)) ∧
      (∀ l, mine = [l] → l.addr ≠ a → (room ∨ l.unit = u) → (loadReserve n a b).leases =
        b.leases.filter (fun x => x.owner != n) ++ [{ unit := u, owner := n, addr := a, expiry := until_ }]))) ∧
  (∀ (b : Block) (n : CtxNo) (a : Nat), scHolds b n a = true ↔
    ∃ l ∈ b.leases, l.owner = n ∧ l.addr = a ∧ (match l.heldSince with
      | some h => h < l.expiry
      | none => b.now < l.expiry)) ∧
  (∀ (s : State) (u : BitVec 4) (n : CtxNo) (l : Lease), l ∈ s.blk.leases → l.owner = n → l.unit = u.toNat →
    l.expiry ≤ l.heldSince.getD s.blk.now →
    Does (.leaseExpiry u n) s (
      let b := { s.blk with leases := s.blk.leases.filter (fun x => x.owner != n) }.modUnit u.toNat
        (fun m => { m with expired := m.expired.count s.blk.now 1 })
      let c := fileOf s.blk n
      settle n (b.setFile n (lvlOf s.blk n) { c with stat := putBit c.stat 6 true })))

/-- MOVE, FILL, CKSUM16, CKCRC and SCAN start with PROG and their tag, and each answered step of 64 bytes advances
PROG.DONE (R132, R133, R134, R136, R137, R138, R140, R142, R278). -/
def Obligations.LongOperationsRunStepByStepThroughProg : Prop :=
  (∀ (s : State) (e : EngId) (k : CtxId) (w : MWord) (i : Instr),
    let n := ctxNo e k
    let v := dropTag n s.blk
    Fetches s.blk n w → cond v n (fileOf v n) w = true → wordFault v n (snapOf v n w none false) = none →
    w.aluop = 0 → w.laneop = 0 → w.xfer = 0 → w.seq = 0 →
    (w.memop = 0x20 ∧ i = .move e k ∨ w.memop = 0x21 ∧ i = .fill e k ∨ w.memop = 0x22 ∧ i = .cksum16 e k ∨
     w.memop = 0x23 ∧ i = .ckcrc e k ∨ w.memop = 0x24 ∧ i = .scan e k) →
    let l := lvlOf v n
    let c := readFile v n w
    let again := resumes (fileOf v n) l w
    let b := if again then v else releaseOwn (fun x => x == l) n v
    let done := if again then (progress l c).toNat % 2 ^ 32 else 0
    let c1 := if w.memop = 0x24 then writeDst (statPriv c.stat) c w.dst 0xFFFFFFFFFFFF else c
    Gives i s (fun t =>
      if (srcB v n w).toNat % 2 ^ 32 ≤ done then
        WordEffect b t n (goneTo ((s.blk.ctx n).upc + 1) (setProgress l c1 0)) (fun g => g.setTag w.mtag none) (fun v => v) 0
      else
        WordEffect b t n (heldIn (.longStep (snapOf v n w none false))
            (if again then c else setProgress l c (0x800000000000 ||| w.memop.setWidth 48 <<< 32)))
          (underTag w.mtag (requestUnder v n w .long)) (fun v => v) 1)) ∧
  (∀ (s : State) (e : EngId) (k : CtxId) (r : Snap),
    let n := ctxNo e k
    let c := s.blk.file n r.lvl
    let count := r.b.toNat % 2 ^ 32
    let done := (progress r.lvl c).toNat % 2 ^ 32
    let stop := min ((done / 64 + 1) * 64) count
    let len := stop - done
    let src := r.a + BitVec.ofNat 48 done
    let dst := r.ea + BitVec.ofNat 48 done
    (s.blk.ctx n).act = .longStep r → r.w.isLongMem = true → r.w.seq = 0 →
    bankBehind s.blk e r.seq (stepBanks s.blk n r) = false →
    (∀ x ∈ engCmps s.blk e, x.2.watches k = false) →
    let Ended (m t : Block) (c' : Ctx) : Prop :=
      let c'' : Ctx := { setProgress r.lvl c' 0 with upc := r.upc + 1, act := .idle }
      OnlyParts m t n (unviewCtx (s.blk.ctx n) c'' r.lvl) (unviewEng ((s.blk.eng e).setTag r.w.mtag none) c'' r.lvl)
    let Stepped (m t : Block) (c' : Ctx) : Prop :=
      if count ≤ stop then Ended m t c'
      else
        let c'' : Ctx := { setProgress r.lvl c' (0x800000000000 ||| r.w.memop.setWidth 48 <<< 32 ||| BitVec.ofNat 48 stop) with
          act := .longNext r }
        OnlyParts m t n (unviewCtx (s.blk.ctx n) c'' r.lvl) (unviewEng (s.blk.eng e) c'' r.lvl)
    let reads (a : Word) (ecc : Ecc) : Block := rangeArrive n r false a len (rowLines a.toNat len) ecc s.blk
    let merges (ecc : Ecc) (m : Block) : Block := rangeArrive n r true dst len (mergeLines true dst.toNat len) ecc m
    (∀ ecc, r.w.memop = 0x20 →
      let m := merges (ecc.from (rowLines src.toNat len).length) (reads src ecc)
      rangeFault (reads src ecc) n r false src len = none → rangeFault m n r true dst len = none →
      Gives (.longStepEnd e k ecc) s (fun t =>
        let y := portARead src.toNat len m
        Stepped (bankWrite n dst.toNat y.2 y.1) t c)) ∧
    (∀ ecc, r.w.memop = 0x21 → 
      let m := merges (ecc.from 0) s.blk
      rangeFault m n r true dst len = none →
      Gives (.longStepEnd e k ecc) s (fun t =>
        Stepped (bankWrite n dst.toNat ((List.range len).map (fun i => r.a.extractLsb' (8 * ((done + i) % 6)) 8)) m)
          t c)) ∧
    (∀ ecc, rangeFault (reads dst ecc) n r false dst len = none →
      let x := portARead dst.toNat len (reads dst ecc)
      let bytes := x.2
      (r.w.memop = 0x22 → Gives (.longStepEnd e k ecc) s (fun t =>
        Stepped x.1 t (writeAcc c r.w.dst (cksumBytes (accOf c r.w.dst) done bytes)))) ∧
      (r.w.memop = 0x23 → Gives (.longStepEnd e k ecc) s (fun t =>
        Stepped x.1 t (writeAcc c r.w.dst (bytes.foldl crcStep (accOf c r.w.dst))))) ∧
      (r.w.memop = 0x24 → r.a.extractLsb' 0 8 ∉ bytes → Gives (.longStepEnd e k ecc) s (fun t =>
        Stepped x.1 t (if count ≤ stop then writeDst r.priv c r.w.dst 0xFFFFFFFFFFFF else c))) ∧
      (∀ j, r.w.memop = 0x24 → bytes[j]? = some (r.a.extractLsb' 0 8) → r.a.extractLsb' 0 8 ∉ bytes.take j →
        Gives (.longStepEnd e k ecc) s (fun t =>
          Ended x.1 t (writeDst r.priv c r.w.dst (BitVec.ofNat 48 (done + j)))))))

/-- PUSH, POP, PEEK, QFLUSH, OUT, OEN, IN, CAPARM and RESETPROG act on the cluster's queues, lanes and pin groups
(R110, R259, R262, R263, R277, R279). -/
def Obligations.LaneWordsActOnTheirQueueOrLanes : Prop :=
  ∀ (s : State) (e : EngId) (k : CtxId) (w : MWord), Issues s.blk (ctxNo e k) w → LaneAlone w →
    let n := ctxNo e k
    let l := s.blk.lanes (cluOf e)
    let q := l.queue w.lq
    let c := readFile s.blk n w
    let priv := statPriv c.stat
    let m := w.imm48.extractLsb' 0 16
    let b := srcB s.blk n w
    let next := goneTo ((s.blk.ctx n).upc + 1)
    let Lanes' (i : Instr) (c : Ctx) (f : Lanes → Lanes) : Prop := Gives i s (fun t =>
      ∃ u, WordEffect s.blk u n (next c) (fun g => g) (fun v => { v with lanes := f v.lanes }) 0 ∧
        Agree t (settleClu (cluOf e) u))
    let Faults (i : Instr) : Prop := Gives i s (fun t =>
      ∃ u, WordEffect (detect (0x440 + (cluOf e).toNat) 1 (w.lq.setWidth 24) s.blk) u n (next c) (fun g => g)
          (fun v => { v with lanes := { v.lanes with qfault := v.lanes.qfault.set s.blk.now } }) 0 ∧ Agree t (settleClu (cluOf e) u))
    let Plain (i : Instr) (f : Lanes → Lanes) : Prop := Gives i s (fun t =>
      WordEffect s.blk t n (next c) (fun g => g) (fun v => { v with lanes := f v.lanes }) 0)
    (w.laneop = 1 → q.entries.length < l.depth w.lq →
      Lanes' (.push e k) c (fun l => l.setQueue w.lq { q with entries := q.entries ++ [b] })) ∧
    (w.laneop = 1 → l.depth w.lq ≤ q.entries.length → Faults (.push e k)) ∧
    (∀ v rest, w.laneop = 2 → q.entries = v :: rest →
      Lanes' (.pop e k) (writeDst priv c w.dst v) (fun l => unblock (l.setQueue w.lq { q with entries := rest }) w.lq)) ∧
    (w.laneop = 2 → q.entries = [] → Faults (.pop e k)) ∧
    (∀ v rest, w.laneop = 3 → q.entries = v :: rest →
      Gives (.peek e k) s (fun t => OnlyFile s.blk t n (next (writeDst priv c w.dst v)))) ∧
    (w.laneop = 7 → Plain (.out e k) (fun l => { l with out := (l.out &&& ~~~m) ||| (b.extractLsb' 0 16 &&& m) })) ∧
    (w.laneop = 8 → Plain (.oen e k) (fun l => { l with oen := (l.oen &&& ~~~m) ||| (b.extractLsb' 0 16 &&& m) })) ∧
    (w.laneop = 9 → Gives (.inW e k) s (fun t => OnlyFile s.blk t n (next (writeDst priv c w.dst (l.levels.setWidth 48))))) ∧
    (w.laneop = 0x0A → Gives (.resetprog e k) s (fun t =>
      if progActive c.prog = true ∧ 0x44 ≤ (progOp c.prog).toNat ∧ (progOp c.prog).toNat ≤ 0x46 then
        WordEffect (releaseOwn (fun x => x == (lvlOf s.blk n).below) n s.blk) t n (next { c with prog := 0 })
          (fun g => g) (fun v => v) 0
      else OnlyFile s.blk t n (next c))) ∧
    (w.laneop = 0x0B → Lanes' (.qflush e k) c (fun l => l.setQueue w.lq {})) ∧
    (w.laneop = 0x0C → Plain (.caparm e k) (fun l => l.modPg (w.imm48.extractLsb' 0 4) (fun p =>
      { p with armed := true, capOwner := (s.blk.ctx n).chan.getD 0 })))

/-- SHO, SHI and SHX issued afresh request their pin group with PROG set; a stopped one resumes on the group it holds
(R110, R134, R136, R137, R267, R268, R273, R278). -/
def Obligations.ShiftWordsRequestOrResumeTheirPinGroup : Prop :=
  (∀ (s : State) (e : EngId) (k : CtxId) (w : MWord) (i : Instr), Issues s.blk (ctxNo e k) w →
    w.aluop = 0 → w.memop = 0 → w.xfer = 0 → w.seq = 0 →
    (w.laneop = 4 ∧ i = .sho e k ∨ w.laneop = 5 ∧ i = .shi e k ∨ w.laneop = 6 ∧ i = .shx e k) →
    let n := ctxNo e k
    let l := lvlOf s.blk n
    let g := w.imm48.extractLsb' 0 4
    let bits := if w.aux8 = 0 then 256 else w.aux8.toNat
    let b := releaseOwn (fun x => x == l) n s.blk
    let done := (progress l (fileOf s.blk n)).toNat % 2 ^ 32
    let request (d : Nat) : ShiftReq :=
      { n := n, g := g, op := w.laneop, lq := w.lq, bits := bits, done := d, lvl := l, at_ := s.blk.now }
    (resumes (fileOf s.blk n) l w = false →
      Gives i s (fun t => WordEffect b t n (heldIn (.shift (snapOf s.blk n w none false))
          (setProgress l (readFile s.blk n w) (0x800000000000 ||| (0x40 + w.laneop.setWidth 48) <<< 32)))
        (fun g => g) (fun v => { v with lanes := { v.lanes with
          reqs := v.lanes.reqs ++ [request 0] } }) 0)) ∧
    (resumes (fileOf s.blk n) l w = true → holdsGroup s.blk n l g = true →
      Gives i s (fun t => WordEffect s.blk t n (heldIn (.shift (snapOf s.blk n w none false)) (readFile s.blk n w))
        (fun g => g) (fun v => { v with lanes := v.lanes.modPg g (fun p => { p with
          stopped := false, bits := bits, done := done, op := w.laneop, lq := w.lq
          notBefore := max p.notBefore (s.blk.now + 1) }) }) 0)) ∧
    (resumes (fileOf s.blk n) l w = true → holdsGroup s.blk n l g = false →
      Gives i s (fun t =>
        if bits ≤ done then WordEffect s.blk t n (goneTo ((s.blk.ctx n).upc + 1) (setProgress l (readFile s.blk n w) 0))
          (fun g => g) (fun v => v) 0
        else WordEffect b t n (heldIn (.shift (snapOf s.blk n w none false)) (readFile s.blk n w))
          (fun g => g) (fun v => { v with lanes := { v.lanes with reqs := v.lanes.reqs ++ [request done] } }) 0))) ∧
  (∀ (s : State) (e : EngId) (k : CtxId) (w : MWord) (i : Instr), Selects s.blk (ctxNo e k) w →
    (w.laneop = 4 ∧ i = .sho e k ∨ w.laneop = 5 ∧ i = .shi e k ∨ w.laneop = 6 ∧ i = .shx e k) →
    let n := ctxNo e k
    let l := lvlOf s.blk n
    let b := releaseOwn (fun x => x == l) n s.blk
    cond s.blk n (fileOf s.blk n) w = false → resumes (fileOf s.blk n) l w = false → ownGroups (fun x => x == l) s.blk n ≠ [] →
    Gives i s (fun t => OnlyFile b t n (goneTo ((s.blk.ctx n).upc + 1) (fileOf s.blk n))))

/-- GETL..GETEINFO and GETET write their value to DST; CLRL, SETEVM, SETSTK, SETEUPC and SETETC write SRCB to their
register (R111, R203, R208). -/
def Obligations.XferWordsReadAndWriteTheContextState : Prop :=
  ∀ (s : State) (e : EngId) (k : CtxId) (w : MWord), Issues s.blk (ctxNo e k) w → XferAlone w →
    let n := ctxNo e k
    let c := readFile s.blk n w
    let b := srcB s.blk n w
    let bank := (s.blk.eng e).bank (lvlOf s.blk n)
    let next := goneTo ((s.blk.ctx n).upc + 1)
    let Get (i : Instr) (v : Word) : Prop :=
      Gives i s (fun t => OnlyFile s.blk t n (next (writeDst (statPriv c.stat) c w.dst v)))
    (w.xfer = 0x01 → Get (.getl e k) (((s.blk.ctx n).latch.pre s.blk.now).setWidth 48)) ∧
    (w.xfer = 0x02 → Gives (.clrl e k) s (fun t =>
      OnlyFile s.blk t n (next { c with latch := c.latch.clear s.blk.now (b.extractLsb' 0 24) }))) ∧
    (w.xfer = 0x03 → Get (.getevm e k) ((s.blk.ctx n).evMask.setWidth 48)) ∧
    (w.xfer = 0x04 → Gives (.setevm e k) s (fun t => OnlyFile s.blk t n (next { c with evMask := b.extractLsb' 0 16 }))) ∧
    (w.xfer = 0x05 → Get (.getstk e k) (s.blk.ctx n).stkBase) ∧
    (w.xfer = 0x06 → Gives (.setstk e k) s (fun t => OnlyFile s.blk t n (next { c with stkBase := b }))) ∧
    (w.xfer = 0x08 → Get (.getecause e k) bank.ecause) ∧
    (w.xfer = 0x09 → Get (.geteupc e k) (bank.eupc.setWidth 48)) ∧
    (w.xfer = 0x0A → Get (.geteinfo e k) bank.einfo) ∧
    (w.xfer = 0x0B → Gives (.seteupc e k) s (fun t => WordEffect s.blk t n (next c)
      (fun g => g.modBank (lvlOf s.blk n) (fun x => { x with eupc := b.extractLsb' 0 14 })) (fun v => v) 0)) ∧
    (∀ j : Nat, j < 4 → w.xfer.toNat = 0x10 + j → Get (.getet e k) (s.blk.timer (cluOf e) (8 + 4 * (engIn e).toNat + j)).count) ∧
    (∀ j : Nat, j < 4 → w.xfer.toNat = 0x14 + j → 
      let set (x : Timer) : Timer := { x with cmp := b, armed := true, armedAt := s.blk.now, cmpf := x.cmpf.clear s.blk.now }
      let i := 8 + 4 * (engIn e).toNat + j
      Gives (.setetc e k) s (fun t => WordEffect s.blk t n (next c)
        (fun g => g) (fun v => { v with timers := Map.mod {} v.timers i set }) 0))

/-- A timer's step, wrap, turn, compare, configuration, wide commit, capture read and release (R50, R199, R201, R204,
R205, R206, R207, R208, R209, R211, R212, R213). -/
def Obligations.TimersCountCompareAndRelease : Prop :=
  (∀ (s : State) (c : CluId) (x : BitVec 6),
    let b := s.blk
    let i := x.toNat
    let t := b.timer c i
    let ud := t.updown && !b.forced
    let t' : Timer := { t with base := t.base + 2 ^ t.p.toNat, p := t.presc }
    let wrapped (n : Word) : Timer := { t' with count := n, wrap := t.wrap.set b.now, armed := true, armedAt := b.now, down := t.down && !ud }
    i < 40 → b.running c i = true → 2 ^ t.p.toNat ≤ b.now - t.base →
    ((ud = false ∨ t.down = false) → t.count.toNat < t.rld.toNat →
      Does (.timerStep c x) s (b.modTimer c i (fun _ => { t' with count := t.count + 1 }))) ∧
    (ud = false ∨ (t.down = false ∧ t.rld = 0) → t.rld.toNat ≤ t.count.toNat →
      Does (.timerStep c x) s (wrapEvent c i (b.modTimer c i (fun _ => wrapped 0)))) ∧
    (ud = true → t.down = false → t.rld ≠ 0 → t.rld.toNat ≤ t.count.toNat →
      Does (.timerStep c x) s (b.modTimer c i (fun _ =>
        { t' with count := t.count - 1, down := true, armed := true, armedAt := b.now }))) ∧
    (ud = true → t.down = true → t.count ≠ 0 →
      Does (.timerStep c x) s (b.modTimer c i (fun _ => { t' with count := t.count - 1 }))) ∧
    (ud = true → t.down = true → t.count = 0 →
      Does (.timerStep c x) s (wrapEvent c i (b.modTimer c i (fun _ => wrapped (if t.rld = 0 then 0 else 1)))))) ∧
  (∀ (s : State) (c : CluId) (x : BitVec 6),
    let b := s.blk
    let t := b.timer c x.toNat
    x.toNat < 40 → b.running c x.toNat = true → t.armed = true → t.armedAt < b.now →
    (if t.down then reached t.cmp t.count else reached t.count t.cmp) = true →
    Does (.timerCompareFire c x) s
      (settleClu c (compareEvent c x.toNat (b.modTimer c x.toNat (fun t => { t with cmpf := t.cmpf.set b.now, armed := false }))))) ∧
  (∀ (c : CluId) (x : BitVec 6) (d : Reg32), x.toNat < 40 →
    PortWrite (fun o => .tmrCfgWrite o c x d) (.clu c (0x800 + 0x18 * x.toNat)) d (fun _ b =>
      let t := b.timer c x.toNat
      let v : BitVec 18 := d.extractLsb' 0 18 &&& (if x.toNat < 8 then 0x3FEF7 else 0x3FFF7)
      let t1 : Timer :=
        if v.getLsbD 0 && !t.run then
          { t with cfg := v, base := b.now, held := 0, p := v.extractLsb' 4 4, armedAt := max t.armedAt b.now }
        else if v.getLsbD 0 then { t with cfg := v }
        else { t with cfg := v, held := (if t.run then b.residue c x.toNat else t.held), p := v.extractLsb' 4 4 }
      let b1 := b.modTimer c x.toNat (fun _ =>
        if t.down && !(v.getLsbD 2 && !b.forced) then { t1 with down := false, armed := true, armedAt := b.now } else t1)
      if x.toNat < 8 then b1 else freezeTimer (mkEng c (BitVec.ofNat 3 ((x.toNat - 8) / 4))) x.toNat b1)) ∧
  (∀ (c : CluId) (d : BitVec 16),
    PortWrite (fun o => .tmrWhiCommit o c d) (.clu c 0xBC8) (d.setWidth 32) (fun o b =>
      let sel := Map.get 0 (b.clu c).wsel (orgKey o)
      let x := (sel.extractLsb' 0 6).toNat
      let v : Word := d ++ Map.get 0 (b.clu c).wlo (orgKey o)
      let ask (m : Block) : Block :=
        if (m.timer c x).rld.toNat < (m.timer c x).count.toNat then
          { m with fab := { m.fab with fixes := m.fab.fixes ++ [(c, x, b.now)] } } else m
      if 40 ≤ x then b
      else if sel.extractLsb' 8 2 = 0 then
        b.modTimer c x (fun t => { t with cmp := v, armed := true, armedAt := b.now, cmpf := t.cmpf.clear b.now })
      else if sel.extractLsb' 8 2 = 1 then ask (b.modTimer c x (fun t => { t with rld := v }))
      else if sel.extractLsb' 8 2 = 2 then ask (b.modTimer c x (fun t =>
        { t with count := v, base := b.now, held := 0, armed := true, armedAt := b.now }))
      else b)) ∧
  (∀ (b : Block) (c : CluId) (x : Nat),
    let t := b.timer c x
    let ud := t.updown && !b.forced
    (t.count.toNat ≤ t.rld.toNat → rangeCorrect c x b = b) ∧
    (t.rld.toNat < t.count.toNat → ud = false → rangeCorrect c x b = wrapEvent c x (b.modTimer c x (fun t =>
      { t with count := 0, wrap := t.wrap.set b.now, base := b.now, held := 0, armed := true, armedAt := b.now }))) ∧
    (t.rld.toNat < t.count.toNat → ud = true → rangeCorrect c x b =
      if t.down then b else b.modTimer c x (fun t => { t with down := true, armed := true, armedAt := b.now }))) ∧
  (∀ (c : CluId) (x : BitVec 6), x.toNat < 40 →
    PortRead (fun o => .tmrCapLoRead o c x) (.clu c (0x800 + 0x18 * x.toNat + 0x10))
      (fun _ b => lo32 (b.timer c x.toNat).cap) (fun _ b => b.modTimer c x.toNat (fun t => { t with capf := t.capf.clear b.now }))) ∧
  PortWrite .timerGo (.inst 0x28) 1 (fun _ b => { b with fab := { b.fab with goAt := some (b.now + 1), goatAt := none, goatLate := false } }) ∧
  PortWrite .timerGoat (.inst 0x28) 2 (fun _ b => { b with fab := { b.fab with goatAt := some b.now, goatLate := false } }) ∧
  (∀ (s : State),
    let b := s.blk
    let goat := goatDue b
    ((∃ n, b.fab.goAt = some n ∧ n ≤ b.now) ∨ ∃ n, b.fab.goatAt = some n ∧ n < b.now ∧ reached b.tick b.fab.goTick = true) →
    Gives .timerGoRelease s (fun t =>
      t = { raiseN 0x1E0 { b with fab := { b.fab with
                goAt := none, goatAt := if goat then none else b.fab.goatAt, goatLate := !goat && b.fab.goatLate
                golate := b.fab.golate.setIf b.now (goat && b.fab.goatLate) } } with
              clus := t.clus } ∧
      ∀ c, t.clu c = { b.clu c with timers := (t.clu c).timers } ∧
        ∀ x, t.timer c x =
          let r := b.timer c x
          if 40 ≤ x ∨ (b.clu c).asleep = true ∨ r.arm = false then r
          else if r.run then { r with cfg := r.cfg &&& 0x3FFFD }
          else { r with cfg := (r.cfg &&& 0x3FFFD) ||| 1, base := b.now, held := 0, p := r.presc })) ∧
  (∀ (b : Block) (n : CtxNo) (src : BitVec 6) (lq : BitVec 4) (dl : Option Nat) (tg : CsAddr),
    (b.ctx n).act = .wait src lq dl tg →
    (source b n (fileOf b n) lq src = false → settle n b = b) ∧
    (source b n (fileOf b n) lq src = true →
      let c := fileOf b n
      let c' : Ctx := { c with
        stat := putBit c.stat 8 false, upc := c.upc + 1, act := .idle
        latch := if 40 ≤ src.toNat then c.latch.drop (BitVec.ofNat 24 (2 ^ (src.toNat - 40))) else c.latch }
      OnlyParts b (settle n b) n (unviewCtx (b.ctx n) c' (lvlOf b n)) (unviewEng (b.eng (engOf n)) c' (lvlOf b n))))

/-- An event is stamped, credits its DMA channels and schedules its pins; EVT_IN edges, TICKSEC, SWEV and EVT_OUT
changes (R22, R213, R219, R220, R221, R222, R294). -/
def Obligations.EventsEnterTheFabricAndDriveThePins : Prop :=
  (∀ (b : Block) (n : BitVec 10),
    let t := raise (.num n) b
    t = { b with fab := { b.fab with queue := b.fab.queue ++ [{ stamp := b.tick, at_ := b.now, era := b.fab.era, ev := .num n }], sched := t.fab.sched }
                 dma := t.dma } ∧
    (∀ c : PinChange, c ∈ t.fab.sched ↔ c ∈ b.fab.sched ∨
      (liveEvent n = true ∧ (b.evtReg c.n).extractLsb' 0 10 = n ∧
        ((b.evtReg c.n).extractLsb' 10 2 = 1 ∨ (b.evtReg c.n).extractLsb' 10 2 = 2) ∧
        Map.get 0 b.fab.evtWrit c.n.toNat ≠ b.now + 1 ∧ c.at_ = b.now + 8 ∧ c.stamp = b.tick ∧ c.era = b.fab.era ∧ c.toggle = ((b.evtReg c.n).extractLsb' 10 2 == 2) ∧
        ∀ d ∈ b.fab.sched, ¬ (d.n = c.n ∧ d.stamp = b.tick ∧ d.era = b.fab.era))) ∧
    (∀ ch : BitVec 8, t.chan ch =
      let d := b.chan ch
      if liveEvent n = true ∧ d.act.cfg.extractLsb' 20 10 = n ∧ n.toNat ≠ ch.toNat ∧ d.creditAt ≠ some b.now then
        { dmaAddCredit b.now d with creditAt := some b.now } else d)) ∧
  (∀ (s : State) (n : BitVec 5),
    let b := s.blk
    let rising := !(b.fab.evtIn.getLsbD n.toNat)
    b.mode ≠ .off →
    Gives (.evtInEdge n) s (fun t =>
      t = { raiseN ((if rising then 0x100 else 0x120) + n.toNat)
              { b with fab := { b.fab with evtIn := putBit b.fab.evtIn n.toNat rising } } with clus := t.clus } ∧
      ∀ c, t.clu c = { b.clu c with timers := (t.clu c).timers } ∧
        ∀ x, t.timer c x = if (b.clu c).asleep = true ∨ 40 ≤ x then b.timer c x
          else captured b.now (b.timer c x) (0x20 + n.setWidth 6) rising)) ∧
  (∀ (s : State) (n : BitVec 5) (c : PinChange),
    let b := s.blk
    let w := ((b.evtReg n).extractLsb' 12 8).toNat
    b.fab.sched.find? (fun c => c.n == n) = some c → c.at_ ≤ b.now →
    (c.toggle = true → Does (.evtOutChange n) s { b with fab := { b.fab with
      sched := b.fab.sched.erase c, pins := b.fab.pins ^^^ BitVec.ofNat 32 (2 ^ n.toNat) } }) ∧
    (c.toggle = false → Does (.evtOutChange n) s { b with fab := { b.fab with
      sched := b.fab.sched.erase c, pins := putBit b.fab.pins n.toNat true
      pulseEnd := Map.set 0 b.fab.pulseEnd n.toNat (c.at_ + w + 1) } })) ∧
  (∀ (s : State) (n : BitVec 5),
    let b := s.blk
    let e := Map.get 0 b.fab.pulseEnd n.toNat
    e ≠ 0 → e ≤ b.now →
    Does (.evtOutPulseEnd n) s { b with fab := { b.fab with
      pins := putBit b.fab.pins n.toNat false, pulseEnd := Map.set 0 b.fab.pulseEnd n.toNat 0 } }) ∧
  (∀ (s : State),
    let b := s.blk
    b.mode ≠ .off → (b.tick.toNat % 1000000000 = 0 ∨ b.fab.ticksecSkip = true) → b.fab.ticksecAt ≠ some b.now →
    Does .ticksec s (raiseN 0x1E1 { b with fab := { b.fab with ticksecAt := some b.now, ticksecSkip := false } })) ∧
  (∀ (ev : Reg32), PortWrite (fun o => .instSwev o ev) (.inst 0x38) ev (fun o b =>
    let send (b : Block) : Block := (List.range 32).foldl (fun b i => if ev.getLsbD i then raiseN (0x1C0 + i) b else b) b
    match o with
    | .ctx e k => (match (firstWindow (b.eng e) k).bind (fun x => x.2.target) with
      | some t => { send { b with tick := t.1, now := t.2 } with tick := b.tick, now := b.now }
      | none => send b)
    | _ => send b))

/-- An event reaches its latches or the channel's entry; a channel joins its ready queue, is filled into a context and
spilled (R47, R55, R57, R59, R60, R61, R62, R63, R64, R65, R243). -/
def Obligations.ChannelsMoveAndEventsReachTheirLatches : Prop :=
  (∀ (s : State) (x : Stamped) (l : List Stamped),
    let b := s.blk
    b.fab.queue = x :: l → (∀ i ch, x.ev ≠ .chan i ch) →
    Gives .conditionEvent s (fun t =>
      t = { b with fab := { b.fab with queue := l }, ctxs := t.ctxs, engs := t.engs, clus := t.clus } ∧
      (∀ c, t.clu c = { b.clu c with trigAt := (t.clu c).trigAt }) ∧
      ∀ m, (onWait (b.ctx m).act = false → t.ctx m = latched b.now (x.stamp, x.era) (broadcastTo b x.ev m) (b.ctx m)) ∧
        (onWait (b.ctx m).act = true → (t.ctx m).latch.on &&& ~~~((b.ctx m).latch.on ||| broadcastTo b x.ev m) = 0))) ∧
  (∀ (s : State) (x : Stamped) (l : List Stamped) (i : BitVec 3) (ch : Chan),
    let b := { s.blk with fab := { s.blk.fab with queue := l } }
    let e := homeOf ch
    s.blk.fab.queue = x :: l → x.ev = .chan i ch → b.fenced (secOf e) = false →
    (csbValid b ch = false → Does .conditionEvent s (detect e.toNat 0x22 (ch.setWidth 24 ||| i.setWidth 24 <<< 16) b)) ∧
    (csbValid b ch = true → ∀ n, residentIn b ch = some n → (b.ctx n).act = .idle →
      Does .conditionEvent s (
        if Map.get none (b.ctx n).took i.toNat = some (x.stamp, x.era) then b
        else trigger (cluOf (engOf n)) (b.setCtx n { b.ctx n with
          latch := (b.ctx n).latch.set b.now (BitVec.ofNat 24 (2 ^ i.toNat))
          took := Map.set none (b.ctx n).took i.toNat (some (x.stamp, x.era)) }))) ∧
    (csbValid b ch = true → residentIn b ch = none →
      let m := trigger (cluOf e) { b with fab := { b.fab with
        chEv := Map.set 0 b.fab.chEv ch.toNat (putBit (chEntry b ch) i.toNat true) } }
      Does .conditionEvent s (if parked b ch && (csbWake b ch).getLsbD i.toNat then joinReady ch m else m))) ∧
  (∀ (s : State) (ch : Chan),
    let b := s.blk
    let e := homeOf ch
    b.mode ≠ .off → b.fenced (secOf e) = false → parked b ch = true → (csbWake b ch).getLsbD 8 = true →
    reached b.tick (csbWakeat b ch) = true →
    Does (.wakeatReached ch) s (trigger (cluOf e) (b.setEng e
      (if csbHigh b ch then { b.eng e with rdyHi := (b.eng e).rdyHi ++ [ch] }
       else { b.eng e with rdyLo := (b.eng e).rdyLo ++ [ch] })))) ∧
  (∀ (s : State) (e : EngId) (k : CtxId) (wakeAt : Tick) (wake : BitVec 9) (ch : Chan),
    let b := s.blk
    let n := ctxNo e k
    let inc := if (b.eng e).ctxEn.getLsbD k.toNat then ((b.eng e).rdyHi ++ (b.eng e).rdyLo).head? else none
    (b.ctx n).act = .park wakeAt wake → (b.ctx n).chan = some ch → parkReady b n = true →
    Gives (.parkSpillStart e k) s (fun t => OnlyParts { b with leases := b.leases.filter (fun l => l.owner != n) } t n
      { b.ctx n with upc := (b.ctx n).upc + 1, act := .swap (some (ch, wakeAt, wake)) inc }
      (if inc.isSome then (b.eng e).popReady else b.eng e))) ∧
  (∀ (s : State) (e : EngId) (k : CtxId) (ch : Chan),
    let b := s.blk
    let n := ctxNo e k
    engineLive b e = true → (b.ctx n).chan = none → (b.ctx n).act = .idle → (b.eng e).dbg.haltReq = false →
    (b.eng e).halted = false → (b.eng e).ctxEn.getLsbD k.toNat = true → ((b.eng e).rdyHi ++ (b.eng e).rdyLo).head? = some ch →
    Gives (.channelFillStart e k) s (fun t => OnlyParts b t n
      { b.ctx n with act := .swap none (some ch) } (b.eng e).popReady)) ∧
  (∀ (s : State) (e : EngId) (k : CtxId) (ecc : Ecc) (wakeAt : Tick) (wake : BitVec 9) (ch : Chan) (inc : Option Chan),
    let n := ctxNo e k
    let a := csbAddr s.blk ch
    let b := csbRead a (a + 8) 8 ecc s.blk
    let c := b.ctx n
    (s.blk.ctx n).act = .swap (some (ch, wakeAt, wake)) inc →
    (csbFails b a (a + 8) 8 = true → Does (.channelSpillEnd e k ecc) s ((resetCtx 1 n b).cut (partCtx n))) ∧
    (csbFails b a (a + 8) 8 = false →
    let m := bankWrite n a (csbBytes ch c wake wakeAt true (readByte b (a + 0x0B) + 1)) b
    let g := m.eng e
    let m1 := { m with fab := { m.fab with chEv := Map.set 0 m.fab.chEv ch.toNat (c.latch.on.extractLsb' 0 8 ||| chEntry b ch) } }
    let m2 := match inc with
      | some i => m1.setCtx n { act := .swap none (some i), halt := c.halt, inj := c.inj }
      | none => (m1.setCtx n {}).setEng e { g with
          swapCnt := g.swapCnt.count b.now 1, injErr := g.injErr.setIf b.now c.inj.isSome }
    Gives (.channelSpillEnd e k ecc) s (fun t => Agree t (if wakes m2 ch then joinReady ch m2 else m2)))) ∧
  (∀ (s : State) (e : EngId) (k : CtxId) (ecc : Ecc) (ch : Chan),
    let n := ctxNo e k
    let a := csbAddr s.blk ch
    let b := csbRead a a 256 ecc s.blk
    (s.blk.ctx n).act = .swap none (some ch) →
    (csbFails b a a 256 = true → Does (.channelFillEnd e k ecc) s ((resetCtx 1 n b).cut (partCtx n))) ∧
    (csbFails b a a 256 = false → Gives (.channelFillEnd e k ecc) s (fun t => OnlyParts
      { b with fab := { b.fab with chEv := Map.set 0 b.fab.chEv ch.toNat 0 } } t n
      { csbCtx (readBytes b a 256) (b.ctx n) with chan := some ch, latch := { old := (chEntry b ch).setWidth 24 } }
      { b.eng e with swapCnt := (b.eng e).swapCnt.count b.now 1 }))) ∧
  (∀ (c c0 : Ctx) (ch : Chan) (wake : BitVec 9) (wakeat : Tick) (gen : Byte),
    csbCtx (csbBytes ch c wake wakeat true gen) c0 =
      { upc := c.upc, lc := c.lc, tenant := c.tenant, evMask := c.evMask, stat := c.stat &&& statMask
        cmap := c.cmap &&& ~~~0x3F
        stkBase := c.stkBase, d := c.d, a := c.a, acc := (Vector.replicate 4 0).set 0 c.acc[0], halt := c0.halt, inj := c0.inj })

/-- A word that fails parity stops its context and is repaired from its golden copy; a patch generation activates
engine by engine (R68, R169, R178, R180, R183, R184, R187, R188, R189, R190, R191). -/
def Obligations.ControlStoreChecksRepairsAndPatches : Prop :=
  (∀ (s : State) (e : EngId) (k : CtxId) (flip : PWord) (stored : Bool),
    let b := s.blk
    let n := ctxNo e k
    let c := cluOf e
    let upc := (b.ctx n).upc
    let fa := fetchAddr b e upc
    let bad := (fetchP b e upc ^^^ flip).bad
    canIssue b n = true → upc.toNat ≤ 0x21FF → bad ≠ 0 →
    let lbuf := inLoop (b.eng e) upc
    let l := lvlOf b n
    let info : Mchk :=
      { addr := fa, einfo := fa.setWidth 48 ||| bad.setWidth 48 <<< 14 ||| (if lbuf then 0x1000000 else 0)
        ecause := ecauseOf { code := 1, kind := 0, sub := 0, fupc := upc, lvl := l } 1 0 (b.ctx n).act.midLong (l == .bank2) }
    let m0 := if stored = false then b
      else if lbuf then b.setEng e { b.eng e with
        lbBuf := Map.set none (b.eng e).lbBuf (upc.toNat - (b.eng e).lbBase.toNat) (some (fetchP b e upc ^^^ flip)) }
      else { b with cs := Map.set 0 b.cs (csKey c fa) (csWord b c fa ^^^ flip) }
    let m1 := if (b.eng e).inRange upc = true ∧ lbuf = false then m0.modEng e (fun g => { g with lbBuf := [] }) else m0
    let a := abandon n (select n m1)
    let shown (k : Bank) : Bank := { k with ecause := info.ecause, einfo := info.einfo }
    let held := holdLeases n (a.setCtx n { a.ctx n with mchk := some info })
    let m := match l with
      | .prog => held
      | .bank1 => held.setEng e { a.eng e with xb1 := shown (a.eng e).xb1 }
      | .bank2 => held.setEng e { a.eng e with xb2 := shown (a.eng e).xb2 }
    let v := m.clu c
    let m2 := m.setClu c { v with
      perr := v.perr.count b.now 1
      mchk := fa.setWidth 32 ||| fld 14 bad ||| bit 24 lbuf ||| fld 25 (engIn e) ||| fld 28 k
      repairs := if v.repairs.any (fun r => r.addr == fa && !r.ended) then v.repairs else v.repairs ++ [{ addr := fa }] }
    Does (.machineCheck e k flip stored) s
      (detect (0x400 + c.toNat) 1 (fa.setWidth 24 ||| (engIn e).setWidth 24 <<< 14 ||| k.setWidth 24 <<< 17)
        (detect e.toNat 1 (upc.setWidth 24 ||| k.setWidth 24 <<< 14) m2))) ∧
  (∀ (s : State) (c : CluId) (readback bad0 bad1 : Bool) (r : Repair),
    let b := s.blk
    let v := b.clu c
    let a := r.addr
    let info : BitVec 24 := a.setWidth 24
    let again := v.lastRepair.any (fun x => x.1 == a.toNat && decide (b.now < x.2 + 1000000))
    let fails := detect (0x400 + c.toNat) 3 info (requestOut c false b)
    v.repairs.find? (fun r => !r.ended) = some r → v.runs = true → v.pmRepair = false → v.outAt = none → Map.wf (fun _ => b.now + 1) v.lastRepair = true →
    let golden := goldenFor b v (repairSource v a) bad0 bad1
    (golden = none → Does (.csRepair c readback bad0 bad1) s fails) ∧
    (∀ g, golden = some g →
      ((csWord b c a).bad = 0 → csWord b c a = g →
        Does (.csRepair c readback bad0 bad1) s (b.setClu c { v with repairs := endFirst v.repairs })) ∧
      ((csWord b c a).bad ≠ 0 ∨ csWord b c a ≠ g →
        (readback = true → again = false →
          let m := csWrite c a g b
          Does (.csRepair c readback bad0 bad1) s ((detect (0x400 + c.toNat) 2 info (m.setClu c { m.clu c with
            lastRepair := Map.insert (Map.erase v.lastRepair a.toNat) a.toNat b.now })).modClu c
              (fun v => { v with repairs := endFirst v.repairs }))) ∧
        (readback = false ∨ again = true → v.state ≠ .loaded → Does (.csRepair c readback bad0 bad1) s b) ∧
        (readback = false ∨ again = true → v.state = .loaded →
          (∀ i p, freeEntry v (repairOrig v a).2 = some i → freePatchWord b c = some p →
            let m := csWrite c (0x2000 + p.setWidth 14) g b
            let entry := (repairOrig v a).1.setWidth 32 ||| fld 14 p ||| 0xC0000000
            Does (.csRepair c readback bad0 bad1) s
              (detect (0x400 + c.toNat) 2 (info ||| 0x4000) (commitGen c (Map.set 0 v.pm i entry) true m))) ∧
          (freeEntry v (repairOrig v a).2 = none ∨ freePatchWord b c = none →
            Does (.csRepair c readback bad0 bad1) s fails))))) ∧
  (∀ (b : Block) (c : CluId) (t : Map Reg32), (∀ i, b.isGone (partEng (mkEng c i)) = false) →
    commitGen c t true b = b.setClu c { b.clu c with
      pmOld := (b.clu c).pm, pm := t, pmActive := 0, pmWait := 0xFF, trigAt := some b.now, pmRepair := true, state := .repair }) ∧
  (∀ (b : Block) (body : BitVec 4) (a : CsAddr) (bad0 bad1 : Bool),
    let ok (second bad : Bool) := !bad && goldenOk b (goldenSec body second) && !(poisoned b (goldenAt body second a.toNat) 24)
    goldenWord b body a bad0 bad1 =
      if ok false bad0 then some (recWord (readBytes b (goldenAt body false a.toNat) 24))
      else if ok true bad1 then some (recWord (readBytes b (goldenAt body true a.toNat) 24)) else none) ∧
  (∀ (b : Block) (v : Clu) (a : CsAddr) (bad0 bad1 : Bool),
    (v.stagedPm.all (fun x => 0x2000 + x.1.toNat != a.toNat) = true → goldenFor b v a bad0 bad1 = goldenWord b v.body a bad0 bad1) ∧
    ∀ x l, v.stagedPm = x :: l → 0x2000 + x.1.toNat = a.toNat →
      goldenFor b v a bad0 bad1 = if bad0 = true ∧ bad1 = true then none else some x.2) ∧
  (∀ (s : State) (c : CluId) (r : Repair),
    let b := s.blk
    let v := b.clu c
    let m := b.setClu c { v with repairs := v.repairs.erase r }
    let on (e : EngId) : BitVec 16 := if cluOf e = c then
      (List.range 16).foldl (fun a k => putBit a k ((b.ctx (ctxNo e (BitVec.ofNat 4 k))).mchk.map (·.addr) == some r.addr)) 0 else 0
    v.repairs.find? (fun r => r.ended) = some r →
    (v.policy = 0 → Gives (.csRepairEnd c) s (fun t =>
      t = { m with ctxs := t.ctxs, leases := b.leases.map (fun l =>
        if cluOf (engOf l.owner) = c ∧ (b.ctx l.owner).mchk.map (·.addr) = some r.addr then l.unhold (b.now - 1) else l) } ∧
      ∀ n, t.ctx n = if cluOf (engOf n) = c ∧ (b.ctx n).mchk.map (·.addr) = some r.addr then { b.ctx n with mchk := none } else b.ctx n)) ∧
    (v.policy = 1 → Gives (.csRepairEnd c) s (fun t => t = { m with engs := t.engs } ∧
      ∀ e, t.eng e = if on e = 0 then b.eng e else { b.eng e with
        ctxResetAt := some (b.now + 1, on e ||| (((b.eng e).ctxResetAt.map (fun x => x.2)).getD 0)) })) ∧
    (v.policy = 2 ∨ v.policy = 3 → Gives (.csRepairEnd c) s (fun t => t = { m with engs := t.engs } ∧
      ∀ e, t.eng e = if on e = 0 then b.eng e else { b.eng e with resetAt := some (b.now + 1) }))) ∧
  (∀ (s : State) (e : EngId),
    let b := s.blk
    let c := cluOf e
    let i := (engIn e).toNat
    let v := b.clu c
    let m := (b.setEng e { b.eng e with lbBuf := [] }).setClu c { v with
      pmWait := putBit v.pmWait i false, pmActive := putBit v.pmActive i true }
    (b.eng e).halted = false → b.fenced (secOf e) = false → v.pmWait.getLsbD i = true →
    (putBit v.pmWait i false ≠ 0 → Does (.patchActivate e) s m) ∧
    (putBit v.pmWait i false = 0 → v.pmRepair = true → Does (.patchActivate e) s (m.modClu c (fun v => { v with
      state := .loaded, pmRepair := false, repairs := endFirst v.repairs }))) ∧
    (putBit v.pmWait i false = 0 → v.pmRepair = false →
      let m1 := goldenCommit c (m.modClu c (fun v => { v with state := .loaded, patch := v.patch + 1, pmLate := false }))
      Does (.patchActivate e) s (if v.pmLate then queueEvent 5 ([c.setWidth 8] ++ bytesOf 2 (v.patch + 1)) m1 else m1))) ∧
  (∀ (c : CluId) (a : CsAddr), PortWrite (fun o => .cluCsRaddrWrite o c a) (.clu c 0x40C) (a.setWidth 32)
    (fun _ b => b.modClu c (fun v => { v with raddr := a, rbusy := true }))) ∧
  (∀ (s : State) (c : CluId),
    let b := s.blk
    (b.clu c).rbusy = true → Does (.csReadDone c) s (b.modClu c (fun v => { v with
      rbusy := false, rdata := if 0x21FF < v.raddr.toNat then 0 else csWord b c v.raddr }))) ∧
  (∀ (e : EngId), PortWrite (fun o => .engLbufInval o e) (.eng e 0x20) 0x80000000
    (fun _ b => b.modEng e (fun g => { g with lbBuf := [] }))) ∧
  (∀ (b : Block) (c : CluId) (a : CsAddr) (w : PWord),
    let t := csWrite c a w b
    t = { b with cs := Map.set 0 b.cs (csKey c a) w, engs := t.engs } ∧
    ∀ e, t.eng e = if cluOf e = c ∧ (b.eng e).lbOn = true ∧ (b.eng e).lbBase.toNat ≤ a.toNat ∧
        a.toNat ≤ (b.eng e).lbBase.toNat + (b.eng e).lbLast.toNat then { b.eng e with lbBuf := [] } else b.eng e)

/-- Starvation events count, the patrol scrub reads row after row, ECC events count and poison, corrected lines are
written back (R227, R228, R229, R231, R238, R239, R240, R241, R242, R244, R256). -/
def Obligations.BanksCountScrubAndWriteBack : Prop :=
  (∀ (s : State) (bank : BitVec 7),
    let b := s.blk
    let u := (bank.extractLsb' 4 3).toNat
    let k := (bank.extractLsb' 0 4).toNat
    let v := (Map.get {} (b.unit u).starv k).count b.now 1
    b.mode ≠ .off → b.fenced (bank.extractLsb' 4 3) = false →
    Does (.starvationEvent bank) s (detect (0x480 + bank.toNat) 3 (v.val.setWidth 24)
      (b.modUnit u (fun m => { m with starv := Map.set {} m.starv k v })))) ∧
  (∀ (s : State) (bank : BitVec 8) (l : Nat),
    let b := s.blk
    bankLive b bank.toNat = true → b.wbs.find? (fun l => bankOf b (8 * l) == bank.toNat) = some l →
    Does (.eccWriteback bank) s { b with wbs := b.wbs.filter (fun x => x != l) }) ∧
  (∀ (s : State) (bank : BitVec 8) (ecc : Ecc),
    let b := s.blk
    let i := bank.toNat
    let u := if i < 128 then i / 16 else 8
    let k := if i < 128 then i % 16 else i - 128
    let rows := if i < 128 then 16384 else 4096
    let row := Map.get 0 (b.unit u).scrubRow k
    let a := if 128 ≤ i then 0x4000000 + (i - 128) * 0x20000 + row * 32
      else if (b.unit u).act then u * 0x800000 + k * 0x80000 + row * 32 else u * 0x800000 + row * 512 + k * 32
    let m := b.modUnit u (fun m => { m with scrubRow := Map.set 0 m.scrubRow k ((row + 1) % rows) })
    bankLive b i = true → (b.unit u).scrubEn = true →
    let found := eccAt (linesOf a 32) ecc m
    Does (.patrolScrub bank ecc) s (if i < 128 then found else healCopy (a + 16) (healCopy a found))) ∧
  (∀ (b : Block) (l : Nat) (ls : List Nat) (ecc : Ecc),
    eccAt [] ecc b = b ∧
    eccAt (l :: ls) ecc b = eccAt ls (ecc.from 1)
      (match (if l ∈ b.poison then some .ue else (ecc.errs.find? (fun x => x.1 == 0)).map (fun x => x.2)) with
        | some k => eccEvent (8 * l) k b
        | none => b)) ∧
  (∀ (b : Block) (n : CtxNo) (a x : Nat) (l : List Byte),
    readByte (bankWrite n a l b) x = if a ≤ x ∧ x < a + l.length then nth 0 l (x - a) else readByte b x) ∧
  (∀ (b : Block) (a n : Nat),
    (portARead a n b).1.mem = b.mem ∧ (portARead a n b).2.length = n ∧
    ((∀ t ∈ b.touched, t.spine = true → t.write = true → t.line ∉ dprLines a n) → (portARead a n b).2 = readBytes b a n)) ∧
  (∀ (b : Block) (spine wr : Bool) (l : Nat) (t : Touch),
    b.touched.find? (fun t => t.line == l && t.spine != spine && (t.write || wr) && (spine || !wr)) = some t →
    let d := { b with free := b.free + 1 }
    let info := lineInfo (8 * l) ||| (if spine = false ∨ wr = true then 0x40000 else 0)
    meet spine wr l b = (d, none) ∨
    meet spine wr l b = (detect (bankSrc (bankOf b (8 * l))) 3 info ({ d with touched := b.touched.erase t }.modUnit 8
      (fun m => { m with susp := m.susp.count b.now 1, suspLast := info.extractLsb' 0 19 })), some t)) ∧
  (∀ (b : Block) (a : Nat), a < 0x4200000 →
    let u := if a < 0x4000000 then a / 0x800000 else 8
    let main : Bool := decide (a < 0x4000000)
    let line : BitVec 24 := if main then BitVec.ofNat 24 (a / 8) &&& 0x7FFFFF else BitVec.ofNat 24 ((a - 0x4000000) / 8) &&& 0x3FFFF
    eccEvent a .ce b = detect (bankSrc (bankOf b a)) 1 line
      { b.modUnit u (fun m => { m with eccCe := m.eccCe.count b.now 1, eccLast := line }) with wbs := insertNat (a / 8) b.wbs } ∧
    eccEvent a .ue b = detect (bankSrc (bankOf b a)) 2 line
      { b.modUnit u (fun m => { m with eccUe := m.eccUe.count b.now 1, eccLast := line ||| (if main then 0x800000 else 0x40000) }) with
        poison := insertNat (a / 8) b.poison })

/-- A pin group is granted, shifts bit by bit, ends its word and is released; lane edges are sampled and captured;
queue registers (R213, R261, R262, R263, R265, R266, R269, R270, R271, R273, R279, R281). -/
def Obligations.PinGroupsShiftAndCapture : Prop :=
  (∀ (s : State) (c : CluId) (g : BitVec 4) (r : ShiftReq),
    let b := s.blk
    let l := b.lanes c
    (grantable l b.now).find? (fun r => r.g == g) = some r →
    Gives (.pinGroupGrant c g) s (fun t =>
      let p := (t.lanes c).pg g
      let m := { l with reqs := l.reqs.erase r }
      t = { b.modLanes c (fun _ => m.modPg g (fun q => { q with
              owner := some r.n, lvl := r.lvl, op := r.op, lq := r.lq, bits := r.bits, done := r.done, dA := q.pga, dB := q.pgb, dC := q.pgc
              began := none, sample := none, stopped := false, notBefore := r.at_ + 1, outPrev := p.outPrev }))
            with free := t.free })) ∧
  (∀ (l : Lanes) (now : Nat) (r : ShiftReq) (rest : List ShiftReq), l.reqs = r :: rest →
    blocked l now r = false → (grantable l now).head? = some r) ∧
  (∀ (s : State) (c : CluId) (g : BitVec 4) (n : CtxNo),
    let b := s.blk
    let l := b.lanes c
    let p := l.pg g
    let q := l.queue (p.lq &&& 7)
    p.owner = some n → shifting b c g n = true → p.stopped = false → p.began = none → p.done < p.bits → p.notBefore ≤ b.now →
    (p.op = 5 ∨ (q.entries ≠ [] ∧ q.pos.toNat + pgW p.dA ≤ 48)) → (p.op = 4 ∨ (l.queue ((p.lq &&& 7) ||| 8)).back = none) →
    takeable b n = none → (b.ctx n).inj = none → haltPending b n = false → b.paused_ c = false →
    let x := perturbHit (b.dbg.pQueue.extractLsb' 7 8) b
    let cur := if p.op = 5 then 0 else bitOut p.dA p.op (q.entries.head?.getD 0) q.pos.toNat
    let on (b : Block) := b.modPg c g (fun p => { p with began := some b.now, sample := none, outCur := cur })
    (queueSel c b = false → Does (.shiftBitStart c g) s (on b)) ∧
    (queueSel c b = true → Does (.shiftBitStart c g) s (if x.2 then x.1 else on x.1))) ∧
  (∀ (a : Reg32) (op : BitVec 5) (e : Word) (pos i : Nat), op ≠ 5 → i < 2 ^ (a.extractLsb' 4 3).toNat →
    (a.extractLsb' 0 4).toNat + i < 16 →
    (bitOut a op e pos).getLsbD ((a.extractLsb' 0 4).toNat + i) =
      e.getLsbD (if a.getLsbD 7 then 47 - (pos + i) else pos + i)) ∧
  (∀ (s : State) (c : CluId) (g : BitVec 4) (n : CtxNo) (t0 : Nat) (sn : Snap),
    let b := s.blk
    let l := b.lanes c
    let p := l.pg g
    let w := pgW p.dA
    let tx := p.lq &&& 7
    let rx := (p.lq &&& 7) ||| 8
    p.owner = some n → p.began = some t0 → t0 + pgPer p.dA p.dB ≤ b.now → (b.ctx n).act = .shift sn →
    cluOf (engOf n) = c →
    let q := l.queue tx
    let l1 := if p.op = 5 then l
      else if 48 ≤ q.pos.toNat + w then l.setQueue tx { q with pos := 0, entries := q.entries.tail }
      else l.setQueue tx { q with pos := q.pos + BitVec.ofNat 6 w }
    let r := l1.queue rx
    let part := bitIn p.dA p.op r.part (p.sample.getD l.levels) r.pos.toNat
    let l2 := if p.op = 4 then l1
      else if r.pos.toNat + w < 48 then l1.setQueue rx { r with part := part, pos := r.pos + BitVec.ofNat 6 w }
      else if l1.full rx then l1.setQueue rx { r with part := 0, pos := 0, back := some part }
      else l1.setQueue rx { r with part := 0, pos := 0, entries := r.entries ++ [part] }
    let l3 := l2.modPg g (fun p => { p with
      began := none, sample := none, done := p.done + 1, outPrev := p.outCur, notBefore := t0 + pgPer p.dA p.dB })
    Does (.shiftBitEnd c g) s (settleClu c ((b.modLanes c (fun _ => l3)).modFile n sn.lvl
      (fun x => setProgress sn.lvl x (mkProg sn.w.longOp (p.done + 1)))))) ∧
  (∀ (s : State) (c : CluId) (g : BitVec 4) (n : CtxNo) (sn : Snap),
    let b := s.blk
    let p := (b.lanes c).pg g
    p.owner = some n → (b.ctx n).act = .shift sn → shifting b c g n = true → p.stopped = false → p.began = none →
    p.bits ≤ p.done →
    let m := b.modLanes c (closeQueues p)
    (p.op ≠ 4 ∧ ((m.lanes c).queue ((p.lq &&& 7) ||| 8)).back ≠ none → Does (.shiftWordEnd c g) s (settleClu c m)) ∧
    (p.op = 4 ∨ ((m.lanes c).queue ((p.lq &&& 7) ||| 8)).back = none →
      Does (.shiftWordEnd c g) s (settleClu c (longEnd n sn (m.modPg c g (fun p => { p with
        owner := none, lvl := .prog, op := 0, lq := 0, bits := 0, done := 0, began := none, notBefore := 0, sample := none
        stopped := false, outPrev := 0, outCur := 0, dA := 0, dB := 0, dC := 0, rel := some (b.now, p.dA, p.op, p.lq) })))))) ∧
  (∀ (s : State) (c : CluId) (levels : BitVec 16),
    let b := s.blk
    let l := b.lanes c
    let old := l.levels
    let kept (i : Nat) := keepSample b.now l (l.pg (BitVec.ofNat 4 i))
    let desc (i : Nat) : Reg32 := if (kept i).owner.isSome then (kept i).dA else (kept i).pga
    let edges (i : Nat) : BitVec 16 := (dataLanes (desc i)).foldl (fun v j => putBit v j true) 0
    let fires (i : Nat) : Bool := (kept i).armed &&
      (((desc i).getLsbD 17 && (~~~old &&& levels &&& edges i) != 0) ||
       ((desc i).getLsbD 18 && (old &&& ~~~levels &&& edges i) != 0))
    b.mode ≠ .off → levels ≠ old →
    Gives (.laneEdge c levels) s (fun t =>
      t = { b with
        fab := { b.fab with queue := b.fab.queue ++ ((List.range 16).filter fires).map (fun i =>
          { stamp := b.tick, at_ := b.now, era := b.fab.era, ev := .chan 6 (kept i).capOwner }) }
        clus := t.clus } ∧
      (∀ d, d ≠ c → t.clu d = b.clu d) ∧
      t.clu c = { b.clu c with
        timers := (t.clu c).timers, lanes := { l with levels := levels, pgs := (t.lanes c).pgs }
        trigAt := if (List.range 16).any (fun i => (kept i).armed && (old ^^^ levels) &&& edges i != 0) then some b.now else (b.clu c).trigAt } ∧
      (∀ i : BitVec 4, (t.lanes c).pg i = if fires i.toNat then { kept i.toNat with
        armed := false, capf := (kept i.toNat).capf.set b.now
        ovr := if (kept i.toNat).capf.on then (kept i.toNat).ovr.set b.now else (kept i.toNat).ovr, capTick := b.tick
        capLevel := levels, capEdges := old ^^^ levels } else kept i.toNat) ∧
      ∀ x, t.timer c x =
        let r := b.timer c x
        if 40 ≤ x ∨ (b.clu c).asleep = true ∨ 16 ≤ r.capsel.toNat ∨ old.getLsbD r.capsel.toNat = levels.getLsbD r.capsel.toNat
        then r else captured b.now r r.capsel (levels.getLsbD r.capsel.toNat))) ∧
  (∀ (c : CluId) (d : Reg32), PortWrite (fun o => .laneQcfgWrite o c d) (.clu c 0xC10) d (fun _ b =>
    let l := b.lanes c
    let new : BitVec 15 := d.extractLsb' 0 15 &&& 0x7F7F
    if (List.range 16).all (fun i => let q := BitVec.ofNat 4 i
        lqJoin l.qcfg q == lqJoin new q || queueFree l q) then settleClu c (b.modLanes c (fun l => { l with qcfg := new }))
    else b.modLanes c (fun l => { l with qerr := l.qerr.set b.now }))) ∧
  (∀ (c : CluId) (q : BitVec 3) (d : BitVec 16),
    PortWrite (fun o => .laneTxpush o c q d) (.clu c (0xC84 + 8 * q.toNat)) (d.setWidth 32) (fun o b =>
      let l := b.lanes c
      let lq : BitVec 4 := q.setWidth 4
      let v : Word := d ++ Map.get 0 l.staged (8 * orgKey o + q.toNat)
      settleClu c (if l.full lq then detect (0x440 + c.toNat) 1 (lq.setWidth 24) (b.modLanes c (fun l => { l with qfault := l.qfault.set b.now }))
        else b.modLanes c (fun l => l.setQueue lq { l.queue lq with entries := (l.queue lq).entries ++ [v] })))) ∧
  (∀ (c : CluId) (q : BitVec 3), PortWrite (fun o => .laneRxqPop o c q) (.clu c (0xC20 + 4 * (8 + q.setWidth 4 : BitVec 4).toNat))
    0x80000000 (fun _ b =>
      let lq : BitVec 4 := 8 + q.setWidth 4
      settleClu c (if (b.lanes c).empty lq then
          detect (0x440 + c.toNat) 1 (lq.setWidth 24) (b.modLanes c (fun l => { l with qfault := l.qfault.set b.now }))
        else b.modLanes c (fun l =>
          let r := l.queue lq
          let m := r.entries.tail ++ r.back.toList
          l.setQueue lq { r with
            entries := if r.entries.length ≤ l.depth lq then m else r.entries.tail
            back := if r.entries.length ≤ l.depth lq then none else r.back })))) ∧
  (∀ (c : CluId) (lq : BitVec 4), PortWrite (fun o => .laneQueueFlush o c lq) (.clu c (0xC20 + 4 * lq.toNat)) 0x40000000
    (fun _ b => settleClu c (b.modLanes c (fun l => l.setQueue lq {})))) ∧
  (∀ (c : CluId) (g : BitVec 4), PortRead (fun o => .laneCaptLoRead o c g) (.clu c (0xE00 + 16 * g.toNat))
    (fun _ b => lo32 ((b.lanes c).pg g).capTick)
    (fun _ b => b.modPg c g (fun p => { p with capf := p.capf.clear b.now })))

/-- INJECT_GO and CANCEL act on the context's slot; an injected word is no fetch; restricted context, bank and reset
registers (R30, R76, R160, R275, R276, R418, R471, R482). -/
def Obligations.InjectedWordsAndContextRegisters : Prop :=
  (∀ (e : EngId) (k : CtxId) (sys : Bool),
    PortWrite (fun o => .injectGo o e k sys) (.eng e 0x3C) (k.setWidth 32 ||| bit 4 sys ||| 0x20) (fun o b =>
      let n := ctxNo e k
      let c := b.ctx n
      let g := { b.eng e with injCtx := k, injSys := sys }
      let moving := match c.act with
        | .swap .. => true
        | _ => false
      if o ≠ .synCore ∧ o ≠ .dap then b
      else if c.inj.isSome then b.setEng e { g with werr := g.werr.set b.now }
      else if c.chan.isNone && !moving then b.setEng e { g with injErr := g.injErr.set b.now }
      else trigger (cluOf e) ((b.setEng e g).setCtx n { c with
        inj := some { w := Map.get 0 g.injD (orgKey o), sys := sys, src := o } }))) ∧
  (∀ (e : EngId) (k : CtxId), PortWrite (fun o => .injectCancel o e k) (.eng e 0x3C) (k.setWidth 32 ||| 0x40) (fun o b =>
    if o ≠ .synCore ∧ o ≠ .dap then b
    else (b.setEng e { b.eng e with injCtx := k, injSys := false }).setCtx (ctxNo e k) { b.ctx (ctxNo e k) with inj := none })) ∧
  (∀ (s : State) (e : EngId) (k : CtxId) (i : Inj),
    let b := s.blk
    let n := ctxNo e k
    let r := snapOf b n i.w (some (injSlot i.src)) i.sys
    let m0 := b.setCtx n { b.ctx n with inj := none }
    let m1 := if (b.ctx n).act.midLong then abandon n m0 else m0
    let m := m1.setEng e { m1.eng e with issue := (m1.eng e).issue.count b.now 1 }
    let done (t : Block) := t.modEng e (fun g => { g with injDone := g.injDone.set t.now })
    let erred (t : Block) := t.modEng e (fun g => { g with injErr := g.injErr.set t.now })
    let halted := (b.ctx n).halt.halted
    let u := if (newExc (m.ctx n) ((injEffects n r m).ctx n)).isSome then injEffects n r m else injSeq n r (injEffects n r m)
    (b.ctx n).inj = some i → injReady b n i.w = true →
    (cond m n (m.file n r.lvl) i.w = false → Does (.injectedWord e k) s (done m)) ∧
    (∀ code sub info, cond m n (m.file n r.lvl) i.w = true → wordFault m n r = some (code, sub, info) →
      (halted = true → Does (.injectedWord e k) s
        (injHeld n { code := code, kind := 0, sub := sub, fupc := r.upc, einfo := info, lvl := r.lvl } m)) ∧
      (halted = false → Does (.injectedWord e k) s
        (erred (preciseFault n r code sub info false (abandon n m))))) ∧
    (cond m n (m.file n r.lvl) i.w = true → wordFault m n r = none → newExc (m.ctx n) (u.ctx n) = none →
      Does (.injectedWord e k) s (settle n (done u))) ∧
    (∀ x, cond m n (m.file n r.lvl) i.w = true → wordFault m n r = none →
      newExc (m.ctx n) (u.ctx n) = some x →
      Does (.injectedWord e k) s (if halted then injHeld n x m else done (erred u))) ∧
    (i.w = 0 → (b.ctx n).act = .idle → cond m n (m.file n r.lvl) 0 = true → wordFault m n r = none →
      Gives (.injectedWord e k) s (fun t => Agree t (done m)))) ∧
  (∀ (b : Block) (n : CtxNo) (r : Snap), (b.ctx n).act = .idle → r.w.seq = 1 →
    let c := { setProgress r.lvl (b.file n r.lvl) 0 with upc := r.w.target }
    OnlyParts (releaseOwn (fun l => l == r.lvl) n b) (injSeq n r b) n
      { unviewCtx (b.ctx n) c r.lvl with halt := { (b.ctx n).halt with skipCmp := false } }
      (unviewEng (b.eng (engOf n)) c r.lvl)) ∧
  (∀ (s : State) (e : EngId) (k : CtxId) (sys : Bool), s.blk.mode ≠ .off → s.blk.dbg.bus = none → s.blk.dbg.fuseEn = true →
    (∀ x ∈ s.blk.held, x.org ≠ .dap) → s.blk.isGone (partEng e) = true → s.blk.fenced (secOf e) = false →
    Does (.injectGo .dap e k sys) s (answerPort .dap 0 false
      (s.blk.modEng e (fun g => { g with injErr := g.injErr.set s.blk.now })))) ∧
  (∀ (e : EngId) (k : CtxId) (reg : CtxReg) (d : Reg32),
    PortWrite (fun o => .ctxRegisterWrite o e k reg d) (.eng e (0x100 + 0x30 * k.toNat + ctxRegOff reg)) d (fun _ b =>
      let n := ctxNo e k
      let c := b.ctx n
      if ctxState c = 0 ∨ ctxState c = 6 then
        match reg with
        | .upc => b.setCtx n { c with upc := d.extractLsb' 0 14 }
        | .stat => b.modFile n c.lvl (fun x => { x with stat := d.setWidth 48 &&& 0x1F03FF })
        | .tenant => b.setCtx n { c with tenant := d.extractLsb' 0 12 }
        | .stkLo => b.setCtx n { c with stkBase := c.stkBase.extractLsb' 32 16 ++ d }
        | .stkHi => b.setCtx n { c with stkBase := d.extractLsb' 0 16 ++ c.stkBase.extractLsb' 0 32 }
      else b.setEng e { b.eng e with werr := (b.eng e).werr.set b.now })) ∧
  (∀ (e : EngId) (two : Bool) (d : Reg32),
    PortWrite (fun o => .engXbEstatWrite o e two d) (.eng e (if two then 0xE0 else 0xB0)) d (fun o b =>
      let g := b.eng e
      let x := if two then g.xb2 else g.xb1
      let v := { x with estat := d.setWidth 48 &&& 0x1F03FF }
      if x.held = true ∧ (o = .ctx e x.owner ∨
          ((o = .hreg ∨ o = .dap) ∧ ctxState (b.ctx (ctxNo e x.owner)) = 6))
      then b.setEng e (if two then { g with xb2 := v } else { g with xb1 := v })
      else b.setEng e { g with werr := g.werr.set b.now })) ∧
  (∀ (e : EngId) (mask : BitVec 16),
    PortWrite (fun o => .ctxResetRequest o e mask) (.eng e 0x08) (mask.setWidth 32) (fun _ b =>
      if mask = 0 then b
      else b.modEng e (fun g => { g with ctxResetAt := some (b.now + 1, mask ||| ((g.ctxResetAt.map (fun x => x.2)).getD 0)) }))) ∧
  (∀ (e : EngId), PortWrite (fun o => .engineResetRequest o e) (.eng e 0x08) 0x10000 (fun _ b =>
    b.modEng e (fun g => { g with resetAt := some (b.now + 1) })))

/-- A DMA beat is issued under a credit, reads its rows, writes its bytes, and its completion or failure ends the
transfer (R248, R288, R291, R294, R296, R304, R309, R334, R481). -/
def Obligations.DmaBeatsMoveTheirBytes : Prop :=
  (∀ (s : State) (n : BitVec 8),
    let b := healBeat n s.blk
    let d := b.chan n
    let i := d.aBeat.toNat
    let adv (d : Dma) : Dma := { d with aBeat := d.aBeat + 1, released := d.released - 1, act := { d.act with count := d.act.count - 1 } }
    let out (t : BeatStage) (m : Block) := m.modChan n (fun d =>
      let d := dmaSpend d
      adv { d with out := d.out ++ [{ idx := d.aBeat.toNat, stage := t }] })
    let h := hostIssue d.act.port false
      { user := .dma n i, addr := BitVec.ofNat 52 (d.act.src.toNat + 64 * i), tenant := d.act.tenant, data := [], at_ := b.now } b
    dmaMayIssue b n = true →
    (ledgered b n = .append ∨ ledgered b n = .wait → Does (.dmaBeatIssue n) s b) ∧
    (ledgered b n = .skip → Does (.dmaBeatIssue n) s (dmaSettle n (b.modChan n (fun d =>
      adv { dmaSpend d with aDone := d.aDone + 1, beats := d.beats.count b.now 1, skips := d.skips.count b.now 1 })))) ∧
    (ledgered b n = .mismatch → Does (.dmaBeatIssue n) s (dmaSettle n (b.modChan n (fun d =>
      { dmaSpend d with failed := d.failed ++ [(i, 7)] })))) ∧
    (ledgered b n = .issue → dmaThrottled n b = true →
      Does (.dmaBeatIssue n) s { b with dbg := { b.dbg with pCnt := b.dbg.pCnt.count b.now 1 } }) ∧
    (ledgered b n = .issue → dmaThrottled n b = false → d.act.cfg.extractLsb' 0 2 ≠ 0 →
      Does (.dmaBeatIssue n) s (dmaNote n (out .localRead b))) ∧
    (ledgered b n = .issue → dmaThrottled n b = false → d.act.cfg.extractLsb' 0 2 = 0 →
      Does (.dmaBeatIssue n) s (if h.2 then dmaNote n (out .hostRead h.1) else { b with dbg := h.1.dbg }))) ∧
  (∀ (d : Dma), d.released = 0 → d.credits ≠ 0 → dmaSpend d = { d with
    credits := d.credits - 1, started := true
    released := if d.act.cfg.extractLsb' 2 2 = 2 then
        min (if d.act.cfg.extractLsb' 12 8 = 0 then 256 else (d.act.cfg.extractLsb' 12 8).toNat) d.act.count.toNat
      else d.act.count.toNat }) ∧
  (∀ (s : State) (n : BitVec 8) (beat : BitVec 20) (ecc : Ecc),
    let d := s.blk.chan n
    let i := beat.toNat
    let a := d.act.src.toNat + 64 * i
    let len := if i + 1 = d.aBeat.toNat + d.act.count.toNat then d.act.lastb else 64
    let b := arrive s.blk d.act.tenant true false a len (rowLines a len) ecc
    let m := memPerturb a (touch true false a len b)
    let l := readBytes m a len
    let h := hostIssue d.act.port true
      { user := .dma n i, addr := BitVec.ofNat 52 (d.act.dst.toNat + 64 * i), tenant := d.act.tenant, data := l, at_ := b.now } m
    beatStage d i = some .localRead →
    (bankCheck b d.act.tenant true false a len = .pass →
      (d.act.cfg.extractLsb' 0 2 = 1 →
        Does (.dmaLocalReadDone n beat ecc) s (if h.2 then setStage n i .hostWrite h.1 else { b with dbg := h.1.dbg })) ∧
      (d.act.cfg.extractLsb' 0 2 ≠ 1 →
        Does (.dmaLocalReadDone n beat ecc) s (setStage n i (.localWrite l) m))) ∧
    (bankCheck b d.act.tenant true false a len = .bus → Does (.dmaLocalReadDone n beat ecc) s (beatDone n i 6 b)) ∧
    (bankCheck b d.act.tenant true false a len = .memue → Does (.dmaLocalReadDone n beat ecc) s (beatDone n i 4 b)) ∧
    (bankCheck b d.act.tenant true false a len = .region → Does (.dmaLocalReadDone n beat ecc) s (beatDone n i 5 b))) ∧
  (∀ (s : State) (n : BitVec 8) (beat : BitVec 20) (ecc : Ecc) (l : List Byte),
    let d := s.blk.chan n
    let i := beat.toNat
    let a := d.act.dst.toNat + 64 * i
    let b := arrive s.blk d.act.tenant false true a l.length (mergeLines true a l.length) ecc
    beatStage d i = some (.localWrite l) →
    (bankCheck b d.act.tenant false true a l.length = .pass →
      Does (.dmaBeatComplete n ⟨beat, ecc⟩) s
        (beatDone n i 0 (memPerturb a (spineWrite a l b)))) ∧
    (bankCheck b d.act.tenant false true a l.length = .bus → Does (.dmaBeatComplete n ⟨beat, ecc⟩) s (beatDone n i 6 b)) ∧
    (bankCheck b d.act.tenant false true a l.length = .memue → Does (.dmaBeatComplete n ⟨beat, ecc⟩) s (beatDone n i 4 b)) ∧
    (bankCheck b d.act.tenant false true a l.length = .region → Does (.dmaBeatComplete n ⟨beat, ecc⟩) s (beatDone n i 5 b))) ∧
  (∀ (b : Block) (a x : Nat) (l : List Byte),
    let t := spineWrite a l b
    readByte t x = (if a ≤ x ∧ x < a + l.length then nth 0 l (x - a) else readByte b x) ∧
    ∀ r ∈ t.leases, ¬ (r.addr < a + l.length ∧ a < r.addr + 6)) ∧
  (∀ (b : Block) (n : BitVec 8) (i : Nat) (code : BitVec 3),
    let m := b.modChan n (fun d =>
      let d := { d with out := d.out.filter (fun x => x.idx != i) }
      if code = 0 then { d with aDone := d.aDone + 1, beats := d.beats.count b.now 1 } else { d with failed := d.failed ++ [(i, code)] })
    beatDone n i code b = dmaSettle n m) ∧
  (∀ (b : Block) (n : BitVec 8),
    let d := b.chan n
    (d.out ≠ [] → dmaSettle n b = b) ∧
    (∀ x, d.out = [] → (d.st = .run ∨ d.st = .pausing) → d.aborting = false → lowestFailed d.failed = some x → d.item = none →
      dmaSettle n b = detect (0x600 + n.toNat) x.2.toNat ((BitVec.ofNat 20 x.1).setWidth 24)
        (b.modChan n (fun d => { d with
          st := .error, errCode := x.2, errBeat := BitVec.ofNat 20 x.1, failed := [], released := 0 }))) ∧
    (d.out = [] → (d.st = .run ∨ d.st = .pausing) → d.aborting = false → d.failed = [] → d.started = true → d.act.count = 0 →
      d.item = none →
      let m := raiseN n.toNat b
      dmaSettle n b = handover n (if d.act.ownv then raise (.chan 1 d.act.owner) m else m)))

/-- START, PAUSE, RESUME, ABORT and CLRERR act on the channel's state; a shadow write; a hand-over checks and starts
the set (R286, R289, R294, R298, R299, R301, R302, R303, R306, R307, R333). -/
def Obligations.DmaChannelsAreControlledAndHandedOver : Prop :=
  (∀ (n : BitVec 8), PortWrite (fun o => .dmaStart o n) (.dma n 0) 1 (fun _ b => b.modChan n (fun d =>
    if d.st = .idle ∨ d.aborting = true then d
    else if d.act.cfg.extractLsb' 2 2 ≠ 2 ∧ (d.started = true ∨ d.credits ≠ 0) then d
    else if d.credits = 255 then { d with povr := d.povr.set b.now }
    else
      let c := d.credits + 1
      if d.st = .armed ∨ d.st = .waitc then { d with credits := c, st := if d.pauseReq then .paused else .run }
      else { d with credits := c }))) ∧
  (∀ (n : BitVec 8), PortWrite (fun o => .dmaPause o n) (.dma n 0) 2 (fun _ b => dmaSettle n (b.modChan n (fun d =>
    { d with pauseReq := true, st := if d.st = .run ∨ d.st = .waitc then .pausing else d.st })))) ∧
  (∀ (n : BitVec 8), PortWrite (fun o => .dmaResume o n) (.dma n 0) 4 (fun _ b => b.modChan n (fun d =>
    let d' := { d with pauseReq := false }
    let back : DmaState := if d.started = false ∧ d.credits = 0 then .armed
      else if d.act.cfg.extractLsb' 2 2 = 2 ∧ d.released = 0 ∧ d.credits = 0 ∧ d.out = [] then .waitc else .run
    if d.st = .paused then { d' with st := back }
    else if d.st = .pausing ∧ d.aborting = false then { d' with st := .run } else d'))) ∧
  (∀ (n : BitVec 8), PortWrite (fun o => .dmaAbort o n) (.dma n 0) 8 (fun _ b =>
    let d := b.chan n
    if d.st = .idle ∨ d.st = .error then b
    else if d.st = .armed then
      (dmaEndSet n (b.modChan n (fun d => { d with aborted := d.aborted.set b.now }))).modChan n (fun d =>
        { d with st := .idle, aborting := false, failed := [], released := 0, armAt := b.now })
    else dmaSettle n (b.modChan n (fun d => { d with aborted := d.aborted.set b.now, aborting := true, st := .pausing })))) ∧
  (∀ (n : BitVec 8), PortWrite (fun o => .dmaClrerr o n) (.dma n 0) 16 (fun _ b =>
    if (b.chan n).st = .error then b.modChan n (fun d =>
      { d with st := .idle, errCode := 0, aborting := false, failed := [], released := 0, armAt := b.now }) else b)) ∧
  (∀ (n : BitVec 8) (reg : DmaReg) (v : Reg32),
    PortWrite (fun o => .dmaShadowWrite o n reg v) (.dma n (dmaRegOff reg)) v (fun o b => b.modChan n (fun d =>
      let s := d.sh
      let d1 : Dma := match reg with
        | .srcLo => { d with sh := { s with src := s.src.extractLsb' 32 20 ++ v } }
        | .srcHi => { d with sh := { s with src := v.extractLsb' 0 20 ++ s.src.extractLsb' 0 32 } }
        | .dstLo => { d with sh := { s with dst := s.dst.extractLsb' 32 20 ++ v } }
        | .dstHi => { d with sh := { s with dst := v.extractLsb' 0 20 ++ s.dst.extractLsb' 0 32 } }
        | .count => { d with sh := { s with count := v.extractLsb' 0 20 } }
        | .cfg => { d with sh := { s with cfg := v &&& 0x3FFFFFFF } }
        | .tag =>
          let sh := { s with tenant := v.extractLsb' 0 12, owner := v.extractLsb' 12 16, ownv := v.getLsbD 28 }
          { d with sh := sh, arm := v.getLsbD 31, armAt := b.now }
        | .jrefLo => { d with sh := { s with csn := s.csn.extractLsb' 32 16 ++ v } }
        | .jrefHi => { d with sh := { s with csn := v.extractLsb' 0 16 ++ s.csn.extractLsb' 0 32, ring := v.extractLsb' 16 12 } }
      match o with
      | .ctx e k =>
        let c := b.ctx (ctxNo e k)
        { d1 with sh := { d1.sh with tenant := ((firstWindow (b.eng e) k).map (fun x => x.2.tenant)).getD (reqTenant c c.lvl), owner := c.chan.getD 0, ownv := true } }
      | _ => d1))) ∧
  (∀ (s : State) (n : BitVec 8),
    let b := s.blk
    let d := b.chan n
    dmaLive b n = true → d.st = .idle → d.arm = true → d.armAt < b.now → partnerGone b d.sh = false →
    Does (.dmaIdleHandover n) s (handover n b)) ∧
  (∀ (b : Block) (n : BitVec 8),
    let d := b.chan n
    let d0 := { d with
      act := d.sh, arm := false, aBeat := 0, aDone := 0, credits := 0, creditAt := none, started := false, released := 0
      out := [], failed := [], aborting := false, item := none }
    let m0 := b.modChan n (fun _ => d0)
    let m := if d.sh.cfg.getLsbD 5 then healNamed d.sh.ring d.sh.csn m0 else m0
    let immed := d.sh.cfg.extractLsb' 2 2 == 0
    let start (d : Dma) : DmaState := if !immed then .armed else if d.pauseReq then .paused else .run
    let go (d : Dma) : Dma := { d with credits := if immed then 1 else 0, st := start d }
    (d.arm = false ∨ partnerGone b d.sh = true → handover n b = b.modChan n (fun d =>
      { d with st := .idle, aborting := false, failed := [], released := 0, armAt := b.now })) ∧
    (d.arm = true → partnerGone b d.sh = false → badSet m d.sh = true →
      handover n b = detect (0x600 + n.toNat) 7 0 (m.modChan n (fun d =>
        { d with st := .error, errCode := 7, errBeat := 0, failed := [], aborting := false, released := 0 }))) ∧
    (d.arm = true → partnerGone b d.sh = false → badSet m d.sh = false → d.sh.cfg.getLsbD 5 = false → handover n b = m.modChan n go) ∧
    (∀ e, d.arm = true → partnerGone b d.sh = false → badSet m d.sh = false → d.sh.cfg.getLsbD 5 = true → itemOf m d.sh.ring d.sh.csn = some e →
      handover n b = (modEntry e (fun v => { v with nset := v.nset + 1, actsets := v.actsets + 1 })
        (m.modChan n (fun d => { d with item := some (e, (entryOf m e).nset) }))).modChan n go)) ∧
  (∀ (b : Block) (s : DmaSet),
    let local_ (a : BitVec 52) (len : Nat) := a.toNat % 32 = 0 ∧
      (a.toNat + len ≤ 0x4000000 ∨ (0x4000000 ≤ a.toNat ∧ a.toNat + len ≤ 0x4200000))
    let host (a : BitVec 52) (len : Nat) := a.toNat % 64 = 0 ∧ a.toNat + len ≤ 2 ^ 52
    let len := 64 * (s.count.toNat - 1) + (if s.cfg.extractLsb' 6 6 = 0 then 64 else (s.cfg.extractLsb' 6 6).toNat)
    s.cfg.getLsbD 5 = false →
    (badSet b s = false ↔ s.cfg.extractLsb' 0 2 ≠ 3 ∧ s.cfg.extractLsb' 2 2 ≠ 3 ∧ s.count ≠ 0 ∧
      (s.cfg.extractLsb' 0 2 = 0 → host s.src len) ∧ (s.cfg.extractLsb' 0 2 ≠ 0 → local_ s.src len) ∧
      (s.cfg.extractLsb' 0 2 = 1 → host s.dst len) ∧ (s.cfg.extractLsb' 0 2 ≠ 1 → local_ s.dst len)))

/-- A host request takes the lowest free slot; a response under its generation frees it and answers; others are
LATERSP; timeouts (R291, R293, R304, R310, R334, R514, R515). -/
def Obligations.HostPortsMatchAnswersToRequests : Prop :=
  (∀ (s : State) (p : Bool) (tag : BitVec 12) (status : BitVec 2) (data : Beat),
    let b := s.blk
    let h := b.port p
    let i := (tag.extractLsb' 0 10).toNat
    (∀ q, Map.get none h.reads i = some q → Map.get 0 h.rdGen i = tag.extractLsb' 10 2 →
      Does (.hostReadResponse p tag status data) s
        (hostAnswer q (if status = 0 then 0 else if status = 2 then 2 else 1) data
          (b.modPort p (fun h => { h with reads := Map.set none h.reads i none })))) ∧
    (Map.get none h.reads i = none ∨ Map.get 0 h.rdGen i ≠ tag.extractLsb' 10 2 →
      Does (.hostReadResponse p tag status data) s (detect (0x560 + p.toNat) 1 ((tag.extractLsb' 0 10).setWidth 24) b)) ∧
    (∀ q, Map.get none h.writes i = some q → Map.get 0 h.wrGen i = tag.extractLsb' 10 2 →
      Does (.hostWriteResponse p tag status) s (hostAnswer q (if status = 0 then 0 else 1) 0
        (b.modPort p (fun h => { h with writes := Map.set none h.writes i none })))) ∧
    (Map.get none h.writes i = none ∨ Map.get 0 h.wrGen i ≠ tag.extractLsb' 10 2 →
      Does (.hostWriteResponse p tag status) s (detect (0x560 + p.toNat) 1 ((tag.extractLsb' 0 10).setWidth 24) b))) ∧
  (∀ (s : State) (p : Bool) (slot : BitVec 10) (q : HostReq),
    let b := s.blk
    let i := slot.toNat
    (Map.get none (b.port p).reads i = some q → q.at_ + 1048576 ≤ b.now →
      Does (.hostTimeout p false slot) s (hostAnswer q 3 0 (b.modPort p (fun h => { h with
        reads := Map.set none h.reads i none, rdGen := Map.mod 0 h.rdGen i (· + 1) })))) ∧
    (Map.get none (b.port p).writes i = some q → q.at_ + 1048576 ≤ b.now →
      Does (.hostTimeout p true slot) s (hostAnswer q 3 0 (b.modPort p (fun h => { h with
        writes := Map.set none h.writes i none, wrGen := Map.mod 0 h.wrGen i (· + 1) }))))) ∧
  (∀ (b : Block) (p write : Bool) (q : HostReq), b.dbg.pActive = false →
    let m (b : Block) := if write then (b.port p).writes else (b.port p).reads
    let t := hostIssue p write q b
    (t.2 = true → ∃ i, i < 1024 ∧ Map.get none (m b) i = none ∧ (∀ j, j < i → Map.get none (m b) j ≠ none) ∧
      t.1 = b.modPort p (fun h => if write then { h with writes := Map.set none h.writes i (some q) }
        else { h with reads := Map.set none h.reads i (some q) })) ∧
    (t.2 = false → t.1 = b ∧ ∀ j, j < 1024 → Map.get none (m b) j ≠ none)) ∧
  (∀ (b : Block) (q : HostReq) (code : BitVec 3) (data : Beat) (n : BitVec 8) (i : Nat),
    let d := b.chan n
    let len := if i + 1 = d.aBeat.toNat + d.act.count.toNat then d.act.lastb else 64
    (q.user = .orphan → hostAnswer q code data b = b) ∧
    (q.user = .dma n i →
      (beatStage d i = some .hostRead → code = 0 →
        hostAnswer q code data b = setStage n i (.localWrite (bytesOf len data)) b) ∧
      (beatStage d i = some .hostRead → code ≠ 0 → hostAnswer q code data b = beatDone n i code b) ∧
      (beatStage d i = some .hostWrite → code ≠ 0 ∨ d.item = none → hostAnswer q code data b = beatDone n i code b) ∧
      (∀ e setno, beatStage d i = some .hostWrite → code = 0 → d.item = some (e, setno) →
        hostAnswer q code data b = beatDone n i 0 (confirmJrn e setno i b))))

/-- A ring fetches up to four descriptors, consumes them in order as entries, and writes its accept head; both ledger
copies (R311, R315, R316, R319, R320, R322, R323, R324, R325, R346). -/
def Obligations.RingsFetchAcceptAndReportTheirHead : Prop :=
  (∀ (s : State) (r : BitVec 12),
    let b := healRing r s.blk
    let v := ringRec b r
    let q := b.ring r
    let c := v.next + BitVec.ofNat 48 ((q.fetches.map (fun f => f.n)).foldl (· + ·) 0)
    let ahead := (q.tail - c.extractLsb' 0 32).toNat
    let n := min (min 4 (if ahead < 2 ^ 31 then ahead else 0))
      (min (2 ^ v.win.toNat - (c - winBase b r).toNat) (2 ^ v.size.toNat - c.toNat % 2 ^ v.size.toNat))
    let x := issueFetch r c n b
    (b.mode = .service ∨ b.mode = .recover ∨ (b.mode = .quiesce ∧ b.sup.secMask ≠ 0)) → ringState b r = 1 →
    q.quiet = false → q.hosterr.on = false → n ≠ 0 →
    (x.2 = true → Does (.descriptorFetch r) s
      (x.1.modRing r (fun q => { q with fetches := q.fetches ++ [{ first := c, n := n, left := n }] }))) ∧
    (x.2 = false → Does (.descriptorFetch r) s x.1) ∧
    (b.dbg.pActive = false → (ringRec b r).ctl.getLsbD 0 = false → (b.port false).reads = [] →
      Does (.descriptorFetch r) s ((b.modPort false (fun h => { h with reads := (List.range n).foldl (fun l i =>
        let c' := c + BitVec.ofNat 48 i
        let x := BitVec.ofNat 52 (v.dbase.toNat + 64 * (c'.toNat % 2 ^ v.size.toNat))
        Map.set none l i (some { user := .desc r c c', addr := x, tenant := 0, data := [], at_ := b.now })) [] })).modRing r (fun q => { q with
          fetches := q.fetches ++ [{ first := c, n := n, left := n }] })))) ∧
  (∀ (b : Block) (r : BitVec 12) (first : Word), b.dbg.pActive = false → (ringRec b r).ctl.getLsbD 0 = false →
    (b.port false).reads = [] →
    let v := ringRec b r
    let x := issueFetch r first 1 b
    x.2 = true ∧ x.1 = b.modPort false (fun h => { h with reads := Map.set none h.reads 0 (some
      { user := .desc r first first, addr := BitVec.ofNat 52 (v.dbase.toNat + 64 * (first.toNat % 2 ^ v.size.toNat))
        tenant := 0, data := [], at_ := b.now }) })) ∧
  (∀ (s : State) (r : BitVec 12) (f : DescFetch) (rest : List DescFetch),
    let b := s.blk
    let m0 := healRing r b
    let v := ringRec m0 r
    let d := bytesOf 64 (Map.get 0 f.data f.first.toNat)
    let wsn : Reg32 := ofBytes 32 (d.take 4)
    let dup := decide ((v.last - wsn).toNat < 2 ^ 31)
    let e := BitVec.ofNat 13 (v.ebase.toNat + v.next.toNat % 2 ^ v.win.toNat)
    let x : Entry := {
      csn := v.next, ring := r, wsn := wsn
      chan := v.chbase + ((nth 0 d 4).setWidth 16 &&& BitVec.ofNat 16 (2 ^ v.chcnt.toNat - 1))
      st := if dup then 4 else 1
      replay := false, tries := 0, actsets := 0, nset := 0, notify := (nth 0 d 5).getLsbD 0, jhead := 0x1FFF, jcount := 0
      epoch := v.epoch, status := if dup then 0xFFFF else 0, rval := 0 }
    let m1 := if dup then m0 else spineWrite (payAddr e) d m0
    let m2 := writeRow0 r { v with next := v.next + 1, last := if dup then v.last else wsn } (writeEntry e x m1)
    let m3 := m2.modRing r (fun q => { q with fetches := if f.n ≤ 1 then rest
      else { f with first := f.first + 1, n := f.n - 1, data := Map.erase f.data f.first.toNat } :: rest })
    (b.ring r).fetches = f :: rest → f.left = 0 → f.bad = false → b.mode.retires = true → ringState b r = 1 →
    (b.ring r).hosterr.on = false →
    (v.ctl.getLsbD 5 = false → dup = false → Does (.descriptorCommit r) s (accepted e m3)) ∧
    (v.ctl.getLsbD 5 = false → dup = true → Does (.descriptorCommit r) s (accepted e m3)) ∧
    (v.ctl.getLsbD 5 = true → Does (.descriptorCommit r) s (mirrorSend r 0x01 x.enc true (.commit e) m3))) ∧
  (∀ (b : Block) (e : BitVec 13),
    let v := entryOf b e
    let m := b.modRing v.ring (fun q => { q with acc := v.csn + 1, headDirty := true })
    let m' := { m with con := { m.con with accepts := m.con.accepts.count b.now 1 } }
    (v.st = 4 → accepted e b = { m with con := { m.con with rejects := m.con.rejects.count b.now 1 } }) ∧
    (v.st = 1 →
      accepted e b = raise (.chan 0 v.chan) { m' with con := { m'.con with
        queues := Map.set [] m'.con.queues v.chan.toNat (Map.get [] m'.con.queues v.chan.toNat ++ [e]) } })) ∧
  (∀ (s : State) (r : BitVec 12),
    let b := healRing r s.blk
    let q := b.ring r
    let v := ringRec b r
    let x := hostIssue (v.ctl.getLsbD 0) true
      { user := .head r 0, addr := v.awb.setWidth 52, tenant := 0
        data := bytesOf 4 q.acc ++ bytesOf 2 v.epoch ++ [0, 0], at_ := b.now } b
    q.headDirty = true → q.headOut = false → b.mode.retires = true → q.hosterr.on = false →
    (x.2 = true → Does (.acceptHeadWrite r) s (x.1.modRing r (fun q => { q with headDirty := false, headOut := true }))) ∧
    (x.2 = false → Does (.acceptHeadWrite r) s x.1) ∧
    (b.dbg.pActive = false → v.ctl.getLsbD 0 = false → (b.port false).writes = [] →
      Does (.acceptHeadWrite r) s ((b.modPort false (fun h => { h with writes := [(0, some
        { user := .head r 0, addr := v.awb.setWidth 52, tenant := 0
          data := bytesOf 4 q.acc ++ bytesOf 2 v.epoch ++ [0, 0], at_ := b.now })] })).modRing r (fun q => { q with
            headDirty := false, headOut := true })))) ∧
  (∀ (s : State) (o : Origin) (r : BitVec 12) (tail : Reg32), CanLand s.blk o (.ring r 0) (.write tail) →
    let b := healRing r s.blk
    let v := ringRec b r
    let q := b.ring r
    let wrong := ringState b r = 0 ∨ ringState b r = 3 ∨ 2 ^ 31 ≤ (tail - q.tail).toNat ∨
      2 ^ v.size.toNat < (tail - v.ret.extractLsb' 0 32).toNat
    (¬ wrong → Does (.ringDb o r tail) s (portEnd s.blk o (.write tail) 0 (b.modRing r (fun q => { q with tail := tail })))) ∧
    (wrong → Does (.ringDb o r tail) s (portEnd s.blk o (.write tail) 0
      (b.modRing r (fun q => { q with dberr := q.dberr.set b.now }))))) ∧
  (∀ (x : Entry), Entry.dec x.enc = x) ∧ (∀ (j : Jrn), Jrn.dec j.enc = j) ∧
  (∀ (b : Block) (off x : Nat) (l : List Byte), off + l.length ≤ 0x100000 →
    readByte (mwrite off l b) x =
      if 0x4000000 + off ≤ x ∧ x < 0x4000000 + off + l.length then nth 0 l (x - (0x4000000 + off))
      else if 0x4100000 + off ≤ x ∧ x < 0x4100000 + off + l.length then nth 0 l (x - (0x4100000 + off)) else readByte b x)

/-- An item is taken and completed by its channel, its completion record is written, it retires in order; replay,
retries, journal (R314, R326, R327, R329, R331, R334, R335, R337, R342, R350). -/
def Obligations.ItemsAreTakenCompletedRetiredAndReplayed : Prop :=
  PortRead .instConcTake (.inst 0x800)
    (fun o b => match o with
      | .ctx e k => (match (b.ctx (ctxNo e k)).chan with
        | some ch =>
          let h := healQueue ch b
          (match (h.queue ch).find? (fun e => ringState h (entryOf h e).ring != 2) with
          | some x =>
            let m := h.setQueue ch ((h.queue ch).filter (fun y => y != x))
            0x80000000 ||| (if (entryOf m x).replay then 0x2000 else 0) ||| x.setWidth 32
          | none => 0)
        | none => 0)
      | _ => 0)
    (fun o b => match o with
      | .ctx e k => (match (b.ctx (ctxNo e k)).chan with
        | some ch =>
          let h := healQueue ch b
          (match (h.queue ch).find? (fun e => ringState h (entryOf h e).ring != 2) with
          | some x =>
            let m := h.setQueue ch ((h.queue ch).filter (fun y => y != x))
            let v := entryOf m x
            (writeEntry x { v with st := 2 } m).modOrg (16 + (ctxNo e k).toNat) (fun r =>
              { r with icsn := v.csn, iring := v.ring })
          | none => h)
        | none => b)
      | _ => b) ∧
  (∀ (d : Reg32), PortWrite (fun o => .instConcDone o d) (.inst 0x810) d (fun o b => match o with
    | .ctx e k =>
      let n := ctxNo e k
      let x : BitVec 13 := d.extractLsb' 0 13
      let m := healEntry x b
      let v := entryOf m x
      if v.st = 2 ∧ some v.chan = (b.ctx n).chan ∧ (d.extractLsb' 16 16).toNat ≤ 0xFEFF then
        (itemDone x (d.extractLsb' 16 16) (m.orgRegs (16 + n.toNat)).rval m).modOrg (16 + n.toNat) (fun r => { r with dstat := 1 })
      else detect 0x562 1 (x.setWidth 24) (m.modOrg (16 + n.toNat) (fun r => { r with dstat := 2 }))
    | _ => b)) ∧
  (∀ (b : Block) (e : BitVec 13) (status : BitVec 16) (rval : Reg32),
    let m0 := healEntry e b
    let m := writeEntry e { entryOf m0 e with st := 3, status := status, rval := rval } m0
    itemDone e status rval b = if (ringRec m (entryOf m e).ring).ctl.getLsbD 5
      then mirrorSend (entryOf m e).ring 0x04 (entryOf m e).enc false (.done e) m else m) ∧
  (∀ (s : State) (r : BitVec 12),
    let m := healRing r s.blk
    let q := m.ring r
    let v := ringRec m r
    let i := q.sent.length + q.okd.length
    let c := v.ret + BitVec.ofNat 48 i
    let e := v.entry c
    let m' := healEntry e m
    let x := entryOf m' e
    let phase : BitVec 16 := if (x.csn.toNat / 2 ^ v.size.toNat + 1) % 2 = 1 then 1 else 0
    let data := bytesOf 4 x.wsn ++ bytesOf 2 x.status ++
      bytesOf 2 (phase ||| (if x.replay then (2 : BitVec 16) else 0) ||| (x.tries.setWidth 16 <<< 2)) ++ bytesOf 6 x.csn ++
      bytesOf 2 x.epoch ++ bytesOf 4 x.rval ++ bytesOf 2 (if x.st = 4 then 0 else x.chan) ++ List.replicate 10 0
    let y := hostIssue (v.ctl.getLsbD 0) true { user := .compl r c 0
                                                addr := BitVec.ofNat 52 (v.cbase.toNat + c.toNat % 2 ^ v.size.toNat * 32)
                                                tenant := 0, data := data, at_ := m'.now } m'
    s.blk.mode.retires = true → v.st ≠ 0 → v.ctl.getLsbD 6 = false → q.hosterr.on = false → i < (v.next - v.ret).toNat → i ≤ 64 →
    (x.st = 3 ∨ x.st = 4) → x.actsets = 0 →
    (v.ctl.getLsbD 5 = false ∨ ((m.fed.pair (v.partner.extractLsb' 0 9)).lost = false ∧ (x.st = 4 ∨ e ∈ q.doneAck))) →
    ringRec m' r = v →
    Does (.completionRecordWrite r) s (if y.2 then y.1.modRing r (fun q => { q with sent := q.sent ++ [c] }) else y.1)) ∧
  (∀ (b : Block) (r : BitVec 12),
    let b1 := healRing r b
    let v := ringRec b1 r
    let e := v.entry v.ret
    let b2 := healItem e b1
    let x := entryOf b2 e
    x.jcount = 0 → v.ctl.getLsbD 5 = false →
    let m := writeRow0 r { v with ret := v.ret + 1 } (writeEntry e { x with st := 0, jhead := 0x1FFF, jcount := 0 } b2)
    let m := m.modRing r (fun q => { q with
      okd := q.okd.filter (fun c => c != v.ret), doneAck := q.doneAck.filter (fun y => y != e)
      limit := if x.st = 3 ∧ x.status = 0xFFFE then q.limit.set b.now else q.limit })
    let m := m.modCon (fun c => { c with
      retires := c.retires.count b.now 1, refetch := c.refetch.filter (fun y => y != e)
      missing := c.missing.filter (fun y => y != e) })
    let m := if x.st = 3 then raise (.chan 7 x.chan) m else m
    retireOne r b = drained r (if x.notify then raiseIrq (v.ctl.extractLsb' 2 3) m else m)) ∧
  (∀ (b : Block) (q : HostReq) (r : BitVec 12) (c : Word) (tries : Nat) (data : Beat) (code : BitVec 3),
    q.user = .compl r c tries →
    (code = 0 → hostAnswer q code data b = retireAll r 4096 (b.modRing r (fun q =>
      { q with sent := q.sent.filter (fun x => x != c), okd := q.okd ++ [c] }))) ∧
    (code ≠ 0 → tries < 3 → hostAnswer q code data b = b.modRing r (fun z => { z with retries := z.retries ++
      [{ acc := .compl c, tries := tries + 1, data := q.data, due := some (b.now + 1000) }] })) ∧
    (code ≠ 0 → 3 ≤ tries → hostAnswer q code data b = detect 0x562 5 (r.setWidth 24) (b.modRing r (fun z => { z with
      hosterr := z.hosterr.set b.now, retries := z.retries ++ [{ acc := .compl c, tries := 0, data := q.data, due := none }] })))) ∧
  (∀ (s : State) (r : BitVec 12) (t : RingRetry) (d : Nat),
    let b := healRing r s.blk
    (b.ring r).retries.find? (fun t => match t.due with
      | some d => decide (d ≤ b.now)
      | none => false) = some t → t.due = some d →
    (∀ first n, t.acc = .fetch first n →
      let x := issueFetch r first n b
      Does (.hostRetry r) s (if x.2 then x.1.modRing r (fun q => { q with
        retries := q.retries.erase t
        fetches := q.fetches.map (fun f =>
          if f.first = first then { f with left := f.n, bad := false, tries := t.tries, data := [] } else f) }) else x.1)) ∧
    ((∀ first n, t.acc ≠ .fetch first n) →
      let x := ringWrite r t.acc t.tries t.data b
      Does (.hostRetry r) s (if x.2 then x.1.modRing r (fun q => { q with retries := q.retries.erase t }) else x.1))) ∧
  (∀ (r : BitVec 12), PortWrite (fun o => .ringHosterrClear o r) (.ring r 0xC) 0x10 (fun _ b =>
    let f := (b.ring r).hosterr
    if f.on ∧ f.at_ ≠ some b.now then retireAll r 4096 (b.modRing r (fun q => { q with
      hosterr := {}, retries := q.retries.map (fun t => if t.due.isNone then { t with due := some b.now } else t) })) else b)) ∧
  (∀ (s : State) (e : BitVec 13),
    let b := healEntry e s.blk
    let x := { entryOf b e with st := 1, nset := 0, status := 0, rval := 0 }
    let m := writeEntry e x b
    let m := { m with con := { m.con with held := m.con.held.filter (fun x => x != e), replays := m.con.replays.count b.now 1 } }
    e ∈ b.con.held → (entryOf b e).st = 5 → (entryOf b e).actsets = 0 →
    Does (.replay e) s (raise (.chan 0 x.chan) (m.setQueue x.chan (insertReplay m x e (m.queue x.chan))))) ∧
  (∀ (s : State) (e : BitVec 13),
    let b := healEntry e s.blk
    let x := entryOf b e
    let v := ringRec b x.ring
    let bad := poisoned b (payAddr e) 64
    let y := hostIssue (v.ctl.getLsbD 0) false
      { user := .refetch e x.csn, addr := BitVec.ofNat 52 (v.dbase.toNat + 64 * (x.csn.toNat % 2 ^ v.size.toNat))
        tenant := 0, data := [], at_ := b.now } b
    let m := { y.1 with con := { y.1.con with refetch := y.1.con.refetch ++ [e] } }
    (bad = true ∨ e ∈ b.con.missing) → e ∉ b.con.refetch → (x.st = 1 ∨ x.st = 2 ∨ x.st = 5 ∨ x.st = 3) →
    Does (.payloadRefetch e) s (if !y.2 then y.1 else if bad then detect 0x562 6 (e.setWidth 24) m else m)) ∧
  (∀ (s : State) (n : BitVec 8) (e : BitVec 13) (setno : Byte),
    let b := healBeat n s.blk
    let d := b.chan n
    let haddr : BitVec 52 := BitVec.ofNat 52 (d.act.dst.toNat + 64 * d.aBeat.toNat)
    d.item = some (e, setno) → dmaMayIssue b n = true → ledgered b n = .append →
    (∀ j, freeRecord b = some j →
      let m := healItem e b
      let x := entryOf m e
      let rec_ : Jrn := { entry := e, st := 1, nxt := x.jhead, beat := BitVec.ofNat 20 d.aBeat.toNat, chan := n
                          haddr := haddr.extractLsb' 6 46, setno := setno }
      let t := writeEntry e { x with jhead := j, jcount := x.jcount + 1 } (writeJrn j rec_ m)
      let t := { t with con := { t.con with jfree := t.con.jfree - 1, jWaiting := false } }
      let r := (entryOf t e).ring
      Does (.journalAppend n) s (if (ringRec t r).ctl.getLsbD 5 then mirrorSend r 0x02 (jrnOf t j).enc false (.append n) t else t)) ∧
    (freeRecord b = none →
      let m := { b with con := { b.con with jfull := b.con.jfull.set b.now, jWaiting := true } }
      Does (.journalAppend n) s (if b.con.jWaiting then m else detect 0x562 2 0 m)))

/-- Routed flits are forwarded or taken with their ACK; sequenced ones are accepted in order only; what is
unacknowledged is sent again (R353, R354, R356, R357, R358, R359, R361, R362). -/
def Obligations.FlitsAreForwardedAcceptedInOrderAndResent : Prop :=
  (∀ (s : State) (p : BitVec 2) (f : Flit),
    let b := s.blk
    b.mode ≠ .off → ((b.fed.port p).st = .up ∨ (b.fed.port p).st = .loopback) → flitGood f = false →
    Does (.flitCrcDrop p f) s (detect (0x566 + p.toNat) 1 ((b.fed.port p).peer.setWidth 24)
      (b.modFed (fun d => { d with crcerr := d.crcerr.count b.now 1 })))) ∧
  (∀ (s : State) (p : BitVec 2) (f : Flit),
    let b := s.blk
    let r := b.fed.route (fDst f)
    b.mode ≠ .off → ((b.fed.port p).st = .up ∨ (b.fed.port p).st = .loopback) → flitGood f = true → fDst f ≠ b.fed.instId →
    ∀ x ∈ [(1, Instr.data p f), (2, .mirror p f), (3, .ack p f), (4, .nak p f), (5, .busy p f), (7, .heartbeat p f),
      (9, .leave p f)], fType f = x.1 →
    ((fHops f = 0 ∨ rtValid r = false) → Does x.2 s b) ∧
    (fHops f ≠ 0 → rtValid r = true → (b.fed.port (rtPort r)).carries = true →
      Does x.2 s (b.modFed (putWire (rtPort r) (withHops f (fHops f - 1)))))) ∧
  (∀ (f : Flit) (h : Nat), h < 16 → flitGood f = true →
    let g := withHops f h
    flitGood g = true ∧ fHops g = h ∧ fType g = fType f ∧ fDst g = fDst f ∧ fSrc g = fSrc f ∧ fSeq g = fSeq f ∧
    fAck g = fAck f ∧ fPayBytes g = fPayBytes f) ∧
  (∀ (s : State) (p : BitVec 2) (f : Flit),
    let b := s.blk
    let i := fSrc f
    let m := ackArrive i (fAck f) b
    let h := heardFrom i m
    let q := m.fed.pair i
    let inOrder := fSeq f = q.rxNext
    let took (b : Block) := b.modFed (fun d => d.modPair i (fun q => { q with
      rxNext := q.rxNext + 1, ackDue := some (q.ackDue.getD b.now) }))
    b.mode ≠ .off → ((b.fed.port p).st = .up ∨ (b.fed.port p).st = .loopback) → flitGood f = true →
    fDst f = b.fed.instId →
    (∀ x ∈ [(1, Instr.data p f), (3, .ack p f), (4, .nak p f), (5, .busy p f), (7, .heartbeat p f)], fType f = x.1 →
      b.fed.joined = false ∨ (b.fed.pair i).taken = true → Does x.2 s b) ∧
    (b.fed.joined = true → (b.fed.pair i).taken = false →
    (fType f = 3 → Does (.ack p f) s h) ∧
    (fType f = 7 → inOrder → Does (.heartbeat p f) s (took h)) ∧
    (fType f = 7 → ¬ inOrder → Does (.heartbeat p f) s (nakSend i m)) ∧
    (fType f = 1 → ¬ inOrder → Does (.data p f) s (nakSend i m)) ∧
    (fType f = 1 → inOrder → freeRxSlot m.fed = none →
      Does (.data p f) s (answer 0x05 i (bytesOf 2 (fSeq f)) m)) ∧
    (∀ k, fType f = 1 → inOrder → freeRxSlot m.fed = some k →
      let due : Tick := fPay 48 f 4 6
      let row := bytesOf 2 (i.setWidth 16) ++ bytesOf 2 (fPay 16 f 2 2) ++ [if fTimed f then 1 else 0, 0] ++
        List.replicate 6 0 ++ ((fPayBytes f).drop 10).take 38 ++ List.replicate 14 0
      let m' := (spineWrite (dpr (0x1E0000 + 64 * k.toNat)) row h).modFed (fun d =>
        { d with slots := Map.set false d.slots k.toNat true })
      let waits := m'.modFed (fun d => { d with
        timed := d.timed ++ [{ slot := k, due := due, chan := fPay 16 f 0 2, held := m.fed.alarm }] })
      Does (.data p f) s (took (
        if fTimed f then
          if m.fed.alarm = true ∨ ¬ (m.tick - due).toNat < 2 ^ 47 then waits
          else deliver k (fPay 16 f 0 2) (m.tick != due && (!m.fab.skipped || m.tick != due + 1)) m.tick m'
        else deliver k (fPay 16 f 0 2) false m.tick m'))) ∧
    (∀ n, fType f = 4 → namedNum q f = some n → Does (.nak p f) s (retry i n h)) ∧
    (fType f = 4 → namedNum q f = none → Does (.nak p f) s h) ∧
    (fType f = 5 → namedNum q f = none → Does (.busy p f) s h) ∧
    (∀ n, fType f = 5 → namedNum q f = some n →
      Does (.busy p f) s (h.modFed (fun d => d.modPair i (fun q => { q with busy := some (n, m.now + (b.fed.cfg.extractLsb' 0 16).toNat) })))))) ∧
  (∀ (b : Block) (i : BitVec 9) (a : BitVec 16),
    let q := b.fed.pair i
    let n := q.acked + (a - BitVec.ofNat 16 q.acked).toNat
    let m := b.modFed (fun d => d.modPair i (fun q => { q with
      buf := q.buf.filter (fun t => decide (n ≤ t.num)), acked := n, sentAt := b.now, resends := 0
      busy := q.busy.filter (fun x => decide (n ≤ x.1)) }))
    (n ≤ q.acked ∨ q.acked + q.buf.length < n → ackArrive i a b = b) ∧
    (q.acked < n → n ≤ q.acked + q.buf.length → ackArrive i a b = drainAll (drainWaits i 512 (mirrorAcked i n m)))) ∧
  (∀ (b : Block) (i : BitVec 9),
    let q := b.fed.pair i
    let m := b.modFed (fun d => d.modPair i (fun q => { q with nakAt := some b.now }))
    (∀ t, q.nakAt = some t → b.now < t + b.fed.rto → nakSend i b = b) ∧
    ((∀ t, q.nakAt = some t → t + b.fed.rto ≤ b.now) → nakSend i b = answer 0x04 i (bytesOf 2 q.rxNext) m)) ∧
  (∀ (b : Block) (i : BitVec 9) (n : Nat),
    let q := b.fed.pair i
    let r := b.fed.route i
    q.buf ≠ [] → rtLost r = false →
    (b.fed.maxRetx ≤ q.resends → retry i n b =
      detect (0x566 + (rtPort r).toNat) 2 (i.setWidth 24) (b.modFed (fun d => d.setRoute i (r ||| 0x80)))) ∧
    (q.resends < b.fed.maxRetx → retry i n b =
      b.modFed (fun d => (resendFrom i n b.now d).modPair i (fun q => { q with resends := q.resends + 1 })))) ∧
  (∀ (d : Fed) (i : BitVec 9) (n now : Nat),
    let fs := (d.pair i).buf.filter (fun t => decide (n ≤ t.num))
    let p := rtPort (d.route i)
    let t := resendFrom i n now d
    let goes := rtValid (d.route i) && (d.port p).carries
    t.retx = d.retx.count now (if goes then BitVec.ofNat 32 fs.length else 0) ∧ t.routes = d.routes ∧ (t.pair i).buf = (d.pair i).buf ∧ (t.pair i).sentAt = now ∧
    (goes = false → t.port p = d.port p) ∧
    (goes = true → (t.port p).wire = (d.port p).wire ++ fs.map (fun x => withAck x.flit (d.pair i).rxNext)) ∧
    ∀ o, o ≠ p → t.port o = d.port o) ∧
  (∀ (s : State) (i : BitVec 9),
    let b := s.blk
    let q := b.fed.pair i
    q.buf ≠ [] →
    (q.busy = none → b.now < q.sentAt + b.fed.rto → Does (.retransmitTimeout i) s b) ∧
    (q.busy = none → q.sentAt + b.fed.rto ≤ b.now → Does (.retransmitTimeout i) s (retry i q.acked b)) ∧
    (∀ n t, q.busy = some (n, t) → t ≤ b.now →
      Does (.retransmitTimeout i) s (b.modFed (resendFrom i n b.now)))) ∧
  (∀ (s : State) (i : BitVec 9), (s.blk.fed.pair i).ackDue ≠ none →
    Does (.ackSend i) s (answer 0x03 i [] s.blk)) ∧
  (∀ (b : Block) (i : BitVec 9) (ty : Byte) (l : List Byte),
    let r := b.fed.route i
    let t := answer ty i l b
    let goes := rtValid r && (b.fed.port (rtPort r)).carries
    (goes = false → t = b) ∧ (goes = true → (t.fed.pair i).ackDue = none ∧ (t.fed.port (rtPort r)).wire =
      (b.fed.port (rtPort r)).wire ++ [mkFlit ty 0 b.fed.instId i 0 (b.fed.pair i).rxNext l])) ∧
  (∀ (b : Block) (k : BitVec 11) (ch : Chan) (late : Bool) (t : Tick),
    let a := dpr (0x1E0000 + 64 * k.toNat)
    let fl := readByte b (a + 4)
    let m := (spineWrite (a + 4) ([if late then fl ||| 2 else fl, 0] ++ bytesOf 6 t) b).modFed (fun d => { d with
      rxq := Map.mod [] d.rxq ch.toNat (fun l => l ++ [k]), timed := d.timed.filter (fun m => m.slot != k)
      lateAt := if late then d.lateAt.set b.now else d.lateAt })
    deliver k ch late t b = { raise (.chan 3 ch) { m with tick := t } with tick := m.tick })

/-- FED_TX_GO numbers and queues a message or refuses it; timed messages are delivered at DUE; FED_RXTAKE and
FED_RXFREE move slots (R356, R359, R360, R362, R371, R382). -/
def Obligations.MessagesAreSentDeliveredTakenAndFreed : Prop :=
  (∀ (timed : Bool), PortWrite (fun o => .fedTxGo o timed) (.fed 0x74) (if timed then 3 else 1) (fun o b =>
    let q := b.orgRegs (orgKey o)
    let i := q.txDst.extractLsb' 16 9
    let rt := b.fed.route i
    let put (v : BitVec 3) := b.modOrg (orgKey o) (fun r => { r with txStat := v })
    let bytes := ((List.range 10).map (fun j => bytesOf 4 (Map.get 0 q.txD j))).flatten.take 38
    if b.fed.joined = false ∨ rt.getLsbD 2 = false ∨ rt.getLsbD 7 = true then put 2
    else if timed = true ∧ b.fed.alarm = true then put 3
    else sendSeq 0x01 (if timed then 1 else 0) i
      (bytesOf 2 (q.txDst.extractLsb' 0 16) ++ bytesOf 2 (schanOf b o) ++ bytesOf 6 (if timed then q.txDue else 0) ++ bytes)
      (some (orgKey o)) (put 0))) ∧
  (∀ (b : Block) (e : EngId) (k : CtxId) (ch : Chan), (b.ctx (ctxNo e k)).chan = some ch → schanOf b (.ctx e k) = ch) ∧
  (∀ (b : Block) (ty flags : Byte) (i : BitVec 9) (l : List Byte) (o : Nat),
    let d := b.fed
    let q := d.pair i
    let p := rtPort (d.route i)
    let f := mkFlit ty flags d.instId i (BitVec.ofNat 16 q.next) 0 l
    let used := (d.pairs.map (fun x => (x.2.buf.filter (fun t => t.port == p)).length)).foldl (· + ·) 0
    let room := rtValid (d.route i) = true ∧ rtLost (d.route i) = false ∧ q.buf.length < 512 ∧ used < 4096
    let t := sendSeq ty flags i l (some o) b
    (room → q.wait = [] → (t.orgRegs o).txStat = 1 ∧
      t.fed.pair i = { q with
        next := q.next + 1, ackDue := if (d.port p).carries then none else q.ackDue, sentAt := if q.buf = [] then b.now else q.sentAt
        buf := q.buf ++ [{ num := q.next, flit := withAck f q.rxNext, port := p }] } ∧
      ((d.port p).carries = true → (t.fed.port p).wire = (d.port p).wire ++ [withAck f q.rxNext])) ∧
    (¬ room → t = b.modFed (fun d => d.modPair i (fun q => { q with
      next := q.next + 1, wait := q.wait ++ [{ num := q.next, flit := f, org := some o, at_ := b.now }] })))) ∧
  (∀ (s : State) (o : Origin),
    let b := s.blk
    let overdue (x : Nat × Pair) (t : TxWait) := x ∈ b.fed.pairs ∧ t ∈ x.2.wait ∧ t.org = some (orgKey o) ∧ t.at_ + 4096 < b.now
    ((∀ x t, ¬ overdue x t) → Does (.txFull o) s b) ∧
    (∀ y u, overdue y u → ∃ x t, overdue x t ∧
      Does (.txFull o) s ((withdrawSend (BitVec.ofNat 9 x.1) t b).modOrg (orgKey o) (fun r => { r with txStat := 4 })))) ∧
  (∀ (b : Block) (i : BitVec 9) (t : TxWait),
    let q := b.fed.pair i
    let v := (withdrawSend i t b).fed.pair i
    v.next = q.next - 1 ∧ v.buf = q.buf ∧ v.wait.length = (q.wait.filter (fun x => x.num != t.num)).length ∧
    (∀ x ∈ q.wait, x.num < t.num → x ∈ v.wait) ∧
    ∀ j, j ≠ i → (withdrawSend i t b).fed.pair j = b.fed.pair j) ∧
  (∀ (s : State) (slot : BitVec 11),
    let b := s.blk
    (b.fed.timed.find? (fun m => m.slot == slot) = none → Does (.timedDelivery slot) s b) ∧
    (∀ m, b.fed.timed.find? (fun m => m.slot == slot) = some m →
      let due := (b.tick - m.due).toNat < 2 ^ 47
      (b.fed.alarm = true → due → Does (.timedDelivery slot) s (b.modFed (fun d => { d with
        timed := d.timed.map (fun x => if x.slot = slot then { x with held := true } else x) }))) ∧
      (b.fed.alarm = false → ((m.held = true ∧ b.fed.calmAt ≠ some b.now) ∨ (m.held = false ∧ due)) →
        Does (.timedDelivery slot) s (deliver slot m.chan m.held b.tick b)) ∧
      (b.fed.alarm = false → m.held = true → b.fed.calmAt = some b.now → Does (.timedDelivery slot) s b) ∧
      (¬ due → (b.fed.alarm = true ∨ m.held = false) → Does (.timedDelivery slot) s b))) ∧
  PortRead .fedRxtake (.fed 0x80)
    (fun o b => match o with
      | .ctx e k => (match (b.ctx (ctxNo e k)).chan with
        | some ch => (match Map.get [] b.fed.rxq ch.toNat with
          | [] => 0
          | j :: _ => 0x80000000 ||| j.setWidth 32)
        | none => 0)
      | _ => 0)
    (fun o b => match o with
      | .ctx e k => (match (b.ctx (ctxNo e k)).chan with
        | some ch => (match Map.get [] b.fed.rxq ch.toNat with
          | [] => b
          | _ :: l => b.modFed (fun d => { d with rxq := Map.set [] d.rxq ch.toNat l }))
        | none => b)
      | _ => b) ∧
  (∀ (slot : BitVec 11), PortWrite (fun o => .fedRxfree o slot) (.fed 0x84) (slot.setWidth 32) (fun _ b =>
    b.modFed (fun d => { d with slots := Map.set false d.slots slot.toNat false })))

/-- Link state, JOIN and LEAVE flits, ANNOUNCE rounds, routes and the election of the master with its parent port
(R351, R355, R358, R363, R365, R366, R370, R517). -/
def Obligations.InstancesJoinLeaveRouteAndElectTheirMaster : Prop :=
  (∀ (s : State) (p : BitVec 2),
    let b := s.blk
    let q := b.fed.port p
    let m (st : LinkState) := b.modFed (fun d => d.modPort p (fun q => { q with st := st }))
    (b.mode ≠ .off → q.st = .down → Does (.cjLinkUp p) s (m .training)) ∧
    (q.st ≠ .down → Does (.cjLinkUp p) s b) ∧
    (q.st = .training → b.fed.joined = true → q.asked = false → Does (.linkTrained p) s (elect (m .up))) ∧
    (q.st = .training → b.fed.joined = false → q.asked = true → q.accepted = false → Does (.linkTrained p) s
      ((m .up).modFed (fun d => sendLocal 0x08 p ([1, d.prio] ++ bytesOf 2 (d.instId.setWidth 16) ++ bytesOf 4 blockVersion ++
        bytesOf 4 fwVersion ++ [0, 0]) d))) ∧
    (q.st = .training → b.fed.joined = false → q.asked = false → Does (.linkTrained p) s (m .up)) ∧
    (q.st ≠ .training → Does (.linkTrained p) s b)) ∧
  (∀ (s : State) (p : BitVec 2),
    let b := s.blk
    b.mode ≠ .off → (b.fed.port p).st ≠ .down →
    ∃ m, Does (.cjLinkDown p) s (if b.fed.joined then elect m else m) ∧
      m = { b with fed := { b.fed with ports := m.fed.ports, routes := m.fed.routes } } ∧ m.fed.pairs = b.fed.pairs ∧
      (∀ o, m.fed.port o = if o = p then { b.fed.port p with st := .down, cal := { (b.fed.port p).cal with busy := false } } else b.fed.port o) ∧
      ∀ x ∈ m.fed.routes, rtPort x.2 = p → rtValid x.2 = false) ∧
  (∀ (s : State) (p : BitVec 2) (f : Flit),
    let b := s.blk
    let id : BitVec 9 := fPay 9 f 2 2
    let known := (rtValid (b.fed.route id) = true ∧ rtLost (b.fed.route id) = false) ∨ (b.fed.joined = true ∧ b.fed.instId = id)
    let m := if b.fed.instId = id then b else forgetInst id b
    b.mode ≠ .off → ((b.fed.port p).st = .up ∨ (b.fed.port p).st = .loopback) → flitGood f = true → fType f = 8 →
    ((b.fed.pair (fSrc f)).taken = true ∨ (b.fed.pair id).taken = true → Does (.join p f) s b) ∧
    ((b.fed.pair (fSrc f)).taken = false → (b.fed.pair id).taken = false →
    ((fPay 8 f 0 1 : Byte) = 1 → known → Does (.join p f) s (b.modFed (fun d => sendLocal 0x08 p (joinPay d 3 id) d))) ∧
    ((fPay 8 f 0 1 : Byte) = 1 → ¬ known → Does (.join p f) s
      (m.modFed (fun d => sendLocal 0x08 p (joinPay d 2 0) (d.modPort p (fun q => { q with peer := id, known := true }))))) ∧
    ((fPay 8 f 0 1 : Byte) = 2 → Does (.join p f) s
      (b.modFed (fun d => d.modPort p (fun q => { q with accepted := q.asked, peer := id, known := true })))) ∧
    ((fPay 8 f 0 1 : Byte) = 3 → Does (.join p f) s
      (b.modFed (fun d => d.modPort p (fun q => { q with refused := q.asked, peer := id, known := true })))))) ∧
  (∀ (b : Block) (i : BitVec 9),
    let t := forgetInst i b
    t.fed.route i = 0 ∧ t.fed.pair i = {} ∧ (∀ w ∈ t.con.mirWaits, w.peer ≠ i) ∧
    (∀ j, j ≠ i → t.fed.route j = b.fed.route j ∧ t.fed.pair j = b.fed.pair j) ∧
    t = { b with fed := { b.fed with routes := t.fed.routes, pairs := t.fed.pairs }
                 con := { b.con with mirWaits := t.con.mirWaits } }) ∧
  (∀ (s : State) (p : BitVec 2) (f : Flit),
    let b := s.blk
    let id : BitVec 9 := fPay 9 f 0 2
    let from_ (m : TimedMsg) := readBytes b (slotAddr m.slot.toNat) 2 = bytesOf 2 (id.setWidth 16)
    b.mode ≠ .off → ((b.fed.port p).st = .up ∨ (b.fed.port p).st = .loopback) → flitGood f = true → fType f = 9 →
    fDst f = b.fed.instId →
    ((b.fed.pair (fSrc f)).taken = true ∨ (b.fed.pair id).taken = true → Does (.leave p f) s b) ∧
    ((b.fed.pair (fSrc f)).taken = false → (b.fed.pair id).taken = false → ∃ m, Does (.leave p f) s (if b.fed.joined then elect m else m) ∧
      m = { forgetInst id b with fed := { (forgetInst id b).fed with timed := m.fed.timed, slots := m.fed.slots, ports := m.fed.ports } } ∧
      m.fed.timed = b.fed.timed.filter (fun x => !(decide (from_ x))) ∧
      (∀ x ∈ b.fed.timed, from_ x → Map.get false m.fed.slots x.slot.toNat = false) ∧
      ∀ o a, (m.fed.port o).ann = some a → (b.fed.port o).ann = some a ∧ a.id ≠ id ∧ (b.fed.port o).peer ≠ id)) ∧
  (∀ (s : State) (p : BitVec 2) (f : Flit),
    let b := s.blk
    let a : Announced := { prio := fPay 8 f 0 1, id := fPay 9 f 2 2, hops := (fPay 8 f 4 1).toNat % 16, at_ := b.now }
    let part := (fPay 8 f 5 1).toNat % 8
    let kept := b.modFed (fun d => d.modPort p (fun q => { q with ann := some a, peer := fSrc f, known := true }))
    let m := elect ((List.range 64).foldl (fun b i =>
      let hops := ((fPay 8 f (8 + i / 2) 1).toNat >>> (4 * (i % 2))) % 16
      if hops = 15 then b else offerRoute p (BitVec.ofNat 9 (64 * part + i)) (hops + 1) b) kept)
    b.mode ≠ .off → ((b.fed.port p).st = .up ∨ (b.fed.port p).st = .loopback) → flitGood f = true → fType f = 6 →
    (b.fed.joined = true ∨ (b.fed.port p).asked = true) →
    ((b.fed.pair (fSrc f)).taken = true → Does (.announce p f) s b) ∧
    ((b.fed.pair (fSrc f)).taken = false → Does (.announce p f) s (if a.id = m.fed.masterId then m.modFed (fun d => { d with masterAt := b.now }) else m))) ∧
  (∀ (b : Block) (p : BitVec 2) (i : BitVec 9) (h : Nat),
    let r := b.fed.route i
    let better := rtValid r = true ∧ rtLost r = false ∧ rtHops r < h
    let m := b.modFed (fun d => d.setRoute i (p.setWidth 8 ||| 4 ||| BitVec.ofNat 8 (8 * (h % 16))))
    (i = b.fed.instId ∨ 15 < h ∨ (b.fed.pair i).taken = true ∨ better → offerRoute p i h b = b) ∧
    (i ≠ b.fed.instId → h ≤ 15 → (b.fed.pair i).taken = false → ¬ better →
      offerRoute p i h b = (if rtValid r = true ∧ rtLost r = false then m else routeBuilt i m) ∧
      rtValid (m.fed.route i) = true ∧ rtLost (m.fed.route i) = false ∧ rtPort (m.fed.route i) = p ∧ rtHops (m.fed.route i) = h)) ∧
  (∀ (b : Block),
    let d := b.fed
    let key (prio : Byte) (id : BitVec 9) := prio.toNat * 512 + id.toNat
    let own := key d.prio d.instId
    let t := (elect b).fed
    ((∀ p a, (d.port p).ann = some a → own ≤ key a.prio a.id) →
      t.master = true ∧ t.parent = none ∧ t.pflags = 0 ∧ t.masterId = d.instId ∧ t.masterPrio = d.prio ∧ t.hops = 0) ∧
    (∀ p a, (d.port p).ann = some a → (d.port p).st = .up → key a.prio a.id < own → a.hops < 16 →
      (∀ o c, (d.port o).ann = some c → key a.prio a.id ≤ key c.prio c.id) →
      (∀ o c, (d.port o).ann = some c → (d.port o).st = .up → key c.prio c.id = key a.prio a.id →
        a.hops < c.hops ∨ (a.hops = c.hops ∧ p ≤ o)) →
      t.master = false ∧ t.parent = some p ∧ t.pflags = (if d.parent = some p then d.pflags else 0) ∧ t.masterId = a.id ∧ t.masterPrio = a.prio ∧ t.hops = a.hops + 1) ∧
    elect b = { b with fed := { d with
      master := t.master, parent := t.parent, pflags := t.pflags, masterId := t.masterId, masterPrio := t.masterPrio, hops := t.hops
      masterAt := t.masterAt, holdSince := t.holdSince } } ∧
    (t.holdSince ≠ none ↔ holdover t = true)) ∧
  (∀ (d : Fed), holdover d = true ↔ d.joined = true ∧ d.master = false ∧ ∀ p, d.parent = some p → (d.port p).st ≠ .up) ∧
  (∀ (s : State),
    let b := s.blk
    (b.fed.joined = false ∨ b.now < b.fed.annAt + 65536 → Does .announceRound s b) ∧
    (b.fed.joined = true → b.fed.annAt + 65536 ≤ b.now → Does .announceRound s (b.modFed (fun d =>
      let ps := (List.range 8).filter (fun k => (List.range 64).any (fun i => hopsTo d (BitVec.ofNat 9 (64 * k + i)) != 15))
      let t := (([0, 1, 2, 3] : List (BitVec 2)).filter (fun p => (d.port p).st == .up)).foldl (fun d p =>
        ps.foldl (fun d k => sendLocal 0x06 p (announcePay d k) d) d) d
      { t with round := d.round + 1, annAt := b.now })))) ∧
  (∀ (d : Fed) (ty : Byte) (p : BitVec 2) (l : List Byte),
    let q := d.port p
    let i := if q.known = true then q.peer else d.instId
    sendLocal ty p l d = d.modPort p (fun q => { q with wire := q.wire ++ [mkFlit ty 0 d.instId i 0 (d.pair i).rxNext l] })) ∧
  (∀ (s : State),
    let b := s.blk
    let old (p : BitVec 2) := ∃ a, (b.fed.port p).ann = some a ∧ a.at_ + 196608 < b.now
    ((∀ p, ¬ old p) → Does .masterTimeout s b) ∧
    (b.fed.joined = true → (∃ p, old p) →
      ∃ m, Does .masterTimeout s (elect m) ∧ m = { b with fed := { b.fed with ports := m.fed.ports } } ∧
        ∀ p, (old p → m.fed.port p = { b.fed.port p with ann := none }) ∧ (¬ old p → m.fed.port p = b.fed.port p)))

/-- TSYNC and TRESP exchanges, the discipline and the alarm, and the calibration and retraining of links and island
crossings (R363, R367, R368, R370, R371, R372, R373, R374, R375, R429). -/
def Obligations.ExchangesDisciplineTimeAndCrossingsAreRetrained : Prop :=
  (∀ (s : State) (x : BitVec 52),
    let b := s.blk
    let t1 := b.tick ++ b.fed.phase
    (∀ p, b.fed.parent = some p → (b.fed.port p).st = .up → b.fed.master = false → b.fed.syncAt + 1024 ≤ b.now →
      Does (.tsyncSend x) s (b.modFed (fun d => sendLocal 0x10 p (bytesOf 8 t1 ++ bytesOf 2 (d.xseq + 1))
        { d with xseq := d.xseq + 1, syncAt := b.now, t1 := t1 }))) ∧
    (b.fed.parent = none ∨ b.fed.master = true ∨ b.now < b.fed.syncAt + 1024 → Does (.tsyncSend x) s b)) ∧
  (∀ (s : State) (p : BitVec 2) (f : Flit) (t2 t3 : BitVec 52),
    let b := s.blk
    let d := b.fed
    b.mode ≠ .off → ((d.port p).st = .up ∨ (d.port p).st = .loopback) → flitGood f = true → fType f = 0x10 →
    let t := b.tick ++ d.phase
    (d.joined = false ∨ (d.pair (fSrc f)).taken = true → Does (.tsync p f t2 t3) s b) ∧
    (d.joined = true → (d.pair (fSrc f)).taken = false →
    ∃ fl : Byte, Does (.tsync p f t2 t3) s (b.modFed (fun d => sendLocal 0x11 p
      (((fPayBytes f).take 10) ++ bytesOf 2 (d.masterId.setWidth 16) ++ bytesOf 8 t ++ bytesOf 8 t ++ [fl]) d)) ∧
    fl.getLsbD 0 = holdover d ∧ fl.getLsbD 2 = d.alarm ∧ fl.toNat < 8 ∧
    (fl.getLsbD 1 = true ↔ ∃ q, d.parent = some q ∧ (d.pflags.getLsbD 1 = true ∨
      (d.port q).cal.young = true ∨ (Map.get {} b.xing (68 + q.toNat)).young = true)))) ∧
  (∀ (s : State) (p : BitVec 2) (f : Flit) (x : BitVec 52),
    let b := s.blk
    let d := b.fed
    let t4 := b.tick ++ d.phase
    let t1 : BitVec 52 := fPay 52 f 0 8
    let t2 : BitVec 52 := fPay 52 f 12 8
    let t3 : BitVec 52 := fPay 52 f 20 8
    let n := d.exchanges
    let theta := thetaOf t1 t2 t3 t4 (d.port p).asym n
    let dl := delayOf t1 t2 t3 t4 n
    let m := b.modFed (fun d => { (d.modPort p (fun q => { q with cal := sampleCal dl.toNat q.cal })) with
      ofs := ofs16 theta, delay := delay16 dl, exchanges := n + 1, pflags := fPay 3 f 28 1 })
    let c : Int := max (-16) (min 16 theta)
    let rate := (Config.rate n).toInt
    let ours := (d.pair (fSrc f)).taken = false ∧ d.parent = some p ∧ d.master = false ∧ fPay 16 f 8 2 = d.xseq
    b.mode ≠ .off → ((d.port p).st = .up ∨ (d.port p).st = .loopback) → flitGood f = true → fType f = 0x11 →
    (ours → d.joined = true → Does (.tresp p f x) s
      (alarmRule theta (m.modFed (fun d => { d with corr := d.corr + c + rate, rate := rate, rateAt := b.now })))) ∧
    (ours → d.joined = false → (d.port p).asked = true → (d.port p).accepted = true → (∀ o, (d.port o).refused = false) →
      Does (.tresp p f x) s (joinStep theta t4 m)) ∧
    (ours → d.joined = false → ((d.port p).asked = false ∨ (d.port p).accepted = false ∨ ∃ o, (d.port o).refused = true) →
      Does (.tresp p f x) s b) ∧
    (¬ ours → Does (.tresp p f x) s b)) ∧
  (∀ (b : Block),
    let d := b.fed
    let again := holdover d = true ∧ d.rateAt + 1024 ≤ b.now
    let tot := (d.phase.toNat : Int) + d.corr + (if again then d.rate else 0)
    discipline b = { b with fed := { d with
      corr := 0, phase := BitVec.ofInt 4 tot, adjust := d.adjust + tot / 16, rateAt := if again then b.now else d.rateAt } }) ∧
  (∀ (t1 t2 t3 t4 : BitVec 52) (a : BitVec 16) (n : Nat),
    let x := (t2 - t1).toInt - (t4 - t3).toInt - a.toInt
    let y := (t2 - t1).toInt + (t4 - t3).toInt
    (x % 2 = 0 → 2 * thetaOf t1 t2 t3 t4 a n = x) ∧ (2 * thetaOf t1 t2 t3 t4 a n - x).natAbs ≤ 1 ∧
    (y % 2 = 0 → 2 * delayOf t1 t2 t3 t4 n = y) ∧ (2 * delayOf t1 t2 t3 t4 n - y).natAbs ≤ 1) ∧
  (∀ (x : Int), (-32768 ≤ x → x ≤ 32767 → (ofs16 x).toInt = x) ∧ (0 ≤ x → x ≤ 65535 → ((delay16 x).toNat : Int) = x)) ∧
  (∀ (theta : Int) (t4 : BitVec 52) (b : Block), 0 ≤ (t4.toNat : Int) + theta → (t4.toNat : Int) + theta < 2 ^ 52 →
    ∃ (v : Tick) (f : BitVec 4), (16 * v.toNat + f.toNat : Int) = t4.toNat + theta ∧
      joinStep theta t4 b = detect 0x563 1 0 { b.modFed (fun d => { d with
        load := some (b.tick + 1 + (v - t4.extractLsb' 4 48)), corr := (f.toNat : Int) - (d.phase.toNat : Int), joined := true }) with
        fab := { b.fab with stepped := b.fab.stepped.set b.now } }) ∧
  (∀ (theta : Int) (b : Block),
    let good (n : Nat) := b.modFed (fun d => { d with good := n })
    let enter := raiseN 0x1E2 (detect 0x56A 1 (BitVec.ofNat 24 (min theta.natAbs 65535))
      (b.modFed (fun d => { d with alarm := true, alarmed := d.alarmed.set b.now, good := 0 })))
    (64 < theta.natAbs → b.fed.alarm = false → alarmRule theta b = enter) ∧
    (64 < theta.natAbs → b.fed.alarm = true → alarmRule theta b = good 0) ∧
    (32 < theta.natAbs → theta.natAbs ≤ 64 → alarmRule theta b = good 0) ∧
    (theta.natAbs ≤ 32 → (b.fed.alarm = false ∨ b.fed.good + 1 < 8) → alarmRule theta b = good (b.fed.good + 1)) ∧
    (theta.natAbs ≤ 32 → b.fed.alarm = true → 8 ≤ b.fed.good + 1 → alarmRule theta b =
      raiseN 0x1E3 (b.modFed (fun d => { d with alarm := false, good := 0, calmAt := some b.now })))) ∧
  (∀ (s : State),
    let b := s.blk
    (∀ t, b.fed.holdSince = some t → b.fed.alarm = false → t + 2000000 < b.now →
      Does .holdoverAlarm s (enterAlarm b.fed.ofs.toInt b)) ∧
    (b.fed.holdSince = none ∨ b.fed.alarm = true ∨ (∀ t, b.fed.holdSince = some t → b.now ≤ t + 2000000) →
      Does .holdoverAlarm s b)) ∧
  (∀ (c : Calib) (x : Nat),
    let t := sampleCal x c
    t.last = x ∧ t.samples = c.samples + 1 ∧ t.sum = c.sum + x ∧
    (c.young = true → c.samples = 1023 → t.young = false ∧ t.value = c.sum + x) ∧
    (c.young = true → c.samples ≠ 1023 → t.young = true ∧ t.value = if c.samples = 0 then 1024 * x else c.value) ∧
    (c.young = false → c.samples ≠ 0 → t.young = false ∧ t.value = c.value)) ∧
  (∀ (g : Nat) (c : Calib),
    let h := if c.young then 4 * g else g
    drifted g c = true ↔ c.samples ≠ 0 ∧ (c.value + h < 1024 * c.last ∨ 1024 * c.last + h < c.value)) ∧
  (∀ (s : State) (p : BitVec 2),
    let b := s.blk
    let q := b.fed.port p
    let m := (retrainRecord (0x566 + p.toNat) 3 q.cal b).modFed (fun d => d.modPort p (fun q => { q with
      st := .loopback, cal := { q.cal with busy := true, retrainAt := some b.now } }))
    (q.st = .up → q.cal.busy = false → drifted 8192 q.cal = true →
      Does (.linkRetrain p) s (if m.fed.joined then elect m else m)) ∧
    (drifted 8192 q.cal = false → Does (.linkRetrain p) s b) ∧
    (∀ (delay asym : BitVec 16),
      let e := b.modFed (fun d => d.modPort p (fun q => { q with
        st := .up, asym := asym, cal := { q.cal with busy := false, value := 1024 * delay.toNat, last := delay.toNat } }))
      (q.st = .loopback → q.cal.busy = true →
        Does (.linkRetrainEnd p delay asym) s (if b.fed.joined then elect e else e)) ∧
      (q.st ≠ .loopback → Does (.linkRetrainEnd p delay asym) s b))) ∧
  (∀ (src k : Nat) (c : Calib) (b : Block),
    (∀ t, c.retrainAt = some t → b.now < t + 1000000 →
      retrainRecord src k c b = detect src (k + 1) 0 (detect src k 0 b)) ∧
    (c.retrainAt = none → retrainRecord src k c b = detect src k 0 b)) ∧
  (∀ (s : State) (i : BitVec 7) (x : BitVec 16),
    let b := s.blk
    let n := i.toNat
    let v := x.toNat - extraCycles b n
    let c := b.crossing n
    let due := (b.mode = .trim ∧ ((c.want = 65 ∧ c.trimmed = true) ∨ c.want = 1025)) ∨
      ∀ t, c.sampledAt = some t → t + 1024 ≤ b.now
    let at_ (c : Calib) := { c with sampledAt := some b.now }
    xingLive b n = true → Map.get none b.paused n = none →
    (¬ due → Does (.canarySample i x) s b) ∧
    (due → (b.mode = .service ∨ b.mode = .recover ∨ b.mode = .quiesce) →
      Does (.canarySample i x) s (b.modCrossing n (fun c => at_ (sampleCal v c)))) ∧
    (due → b.mode = .trim →
      let m := b.modCrossing n (fun c => at_ (trimSample v c))
      Does (.canarySample i x) s (if allTrimmed m then { m with sup := { m.sup with trimv := true } } else m)) ∧
    (b.mode = .load → Does (.canarySample i x) s b)) ∧
  (∀ (c : Calib) (x : Nat),
    let t := trimSample x c
    (c.want = 1025 ∨ (c.want = 65 ∧ c.trimmed = true) → t.value = max 2048 (min 5120 (1024 * x)) ∧ t.want = c.want - 1 ∧ t.young = c.young) ∧
    (c.want = 1 → t.want = 0 ∧ t.young = false ∧ t.trimmed = true ∧ t.value = max 2048 (min 5120 (1024 * (c.sum + x) / (c.samples + 1)))) ∧
    (1 < c.want → c.want < 65 → t.want = c.want - 1 ∧ t.value = c.value ∧ t.samples = c.samples + 1 ∧ t.sum = c.sum + x)) ∧
  (∀ (s : State) (i : BitVec 7),
    let b := s.blk
    let n := i.toNat
    let c := b.crossing n
    let m0 := retrainRecord (0x518 + n) 1 c b
    let m := if n < 64 then holdTimers (i.extractLsb' 0 6) m0 else m0
    ((b.mode = .service ∨ b.mode = .recover ∨ b.mode = .quiesce) → xingLive b n = true → Map.get none b.paused n = none →
      drifted 512 c = true → Does (.crossingRetrain i) s { m.modCrossing n (fun c => { c with
        busy := true, retrainAt := some b.now }) with paused := Map.set none b.paused n (some b.now) }) ∧
    (drifted 512 c = false → Does (.crossingRetrain i) s b)) ∧
  (∀ (s : State) (i : BitVec 7) (delay : BitVec 16) (x : Nat),
    let b := s.blk
    let n := i.toNat
    let m := { b.modCrossing n (fun c => { c with busy := false, value := max 2048 (min 5120 (1024 * delay.toNat)), last := delay.toNat }) with
      paused := Map.set none b.paused n none }
    (Map.get none b.paused n = none → Does (.retrainPauseEnd i delay x) s b) ∧
    (Map.get none b.paused n ≠ none → 64 ≤ n → Does (.retrainPauseEnd i delay x) s m) ∧
    (∀ t, Map.get none b.paused n = some t → n < 64 →
      Does (.retrainPauseEnd i delay x) s (endPause (i.extractLsb' 0 6) (b.now - t) m))) ∧
  (∀ (b : Block) (c : CluId) (p : Nat),
    let m := (List.range 128).foldl (fun b i =>
      let n : CtxNo := c ++ BitVec.ofNat 7 i
      if (b.ctx n).chan = none then b else b.modCtx n (fun x => { x with act := pausedAct b.tick p x.act })) b
    endPause c p b = settleClu c ((List.range 40).foldl (fun b x => advance p false c x b) m)) ∧
  (∀ (now : Tick) (p : Nat) (src : BitVec 6) (lq : BitVec 4) (bar : BitVec 3) (d : Nat) (a : CsAddr) (x : Snap) (t : Tick) (late : Bool),
    let fell := (now - t).toNat < 2 ^ 47 ∧ ¬ (now - BitVec.ofNat 48 p - t).toNat < 2 ^ 47
    pausedAct now p (.wait src lq (some d) a) = .wait src lq (some (d + p)) a ∧
    pausedAct now p (.sync bar (some d) a) = .sync bar (some (d + p)) a ∧
    pausedAct now p (.atWait x t late) = .atWait x t (late || decide fell) ∧
    pausedAct now p (.atDue x t late) = .atDue x t (late || decide fell) ∧ pausedAct now p .idle = .idle)

/-- MIRROR updates the copy ring before it is acknowledged; heartbeats, the loss of a partner, its return, and the
takeover (R337, R357, R377, R378, R379, R380). -/
def Obligations.MirroredRingsFollowTheirPartner : Prop :=
  (∀ (s : State) (p : BitVec 2) (f : Flit),
    let b := s.blk
    let i := fSrc f
    let m := ackArrive i (fAck f) b
    let h := heardFrom i m
    let took (b : Block) := b.modFed (fun d => d.modPair i (fun q => { q with
      rxNext := q.rxNext + 1, ackDue := some (q.ackDue.getD b.now) }))
    let kind : Byte := fPay 8 f 0 1
    let row : Byte := fPay 8 f 1 1
    let r : RingNo := fPay 12 f 2 2
    let l := ((fPayBytes f).drop 4).take 32
    let ours := (ringRec h r).ctl.getLsbD 6 = true ∧ (ringRec h r).peer = i
    let jrn := kind = 2 ∨ kind = 3
    b.mode ≠ .off → ((b.fed.port p).st = .up ∨ (b.fed.port p).st = .loopback) → flitGood f = true → fType f = 2 →
    fDst f = b.fed.instId → b.fed.joined = true → (b.fed.pair i).taken = false →
    (fSeq f ≠ (m.fed.pair i).rxNext → Does (.mirror p f) s (nakSend i m)) ∧
    (fSeq f = (m.fed.pair i).rxNext →
      (¬ ours → Does (.mirror p f) s (took h)) ∧
      (ours → row = 1 → Does (.mirror p f) s (took (mirrorRow r l h))) ∧
      (ours → row ≠ 1 → ¬ jrn → Does (.mirror p f) s (took (mirrorEntry r l h))) ∧
      (ours → row ≠ 1 → jrn → mirrorJrn r l h = none → Does (.mirror p f) s m) ∧
      (∀ t, ours → row ≠ 1 → jrn → mirrorJrn r l h = some t → Does (.mirror p f) s (took t)))) ∧
  (∀ (b : Block) (r : RingNo) (l : List Byte), l.length = 32 →
    mirrorRow r l b = writeRow0 r { ringRec (healRing r b) r with
      next := ofBytes 48 (l.take 6), ret := ofBytes 48 ((l.drop 6).take 6)
      last := ofBytes 32 ((l.drop 12).take 4), epoch := ofBytes 16 ((l.drop 16).take 2) } (healRing r b)) ∧
  (∀ (b0 : Block) (r : RingNo) (l : List Byte),
    let x := Entry.dec l
    let e := BitVec.ofNat 13 ((ringRec b0 r).ebase.toNat + x.csn.toNat % 2 ^ (ringRec b0 r).win.toNat)
    let b := healItem e b0
    let old := entryOf b e
    (x.st ≠ 0 → (old.st = 0 ∨ old.csn ≠ x.csn) →
      mirrorEntry r l b0 = writeEntry e { x with ring := r, jhead := 0x1FFF, jcount := 0 } b) ∧
    (x.st ≠ 0 → old.st ≠ 0 → old.csn = x.csn →
      mirrorEntry r l b0 = writeEntry e { x with ring := r, jhead := old.jhead, jcount := old.jcount } b) ∧
    (x.st = 0 → mirrorEntry r l b0 = writeEntry e { x with ring := r, jhead := 0x1FFF, jcount := 0 }
      ((itemChain b e).foldl (fun b j => freeJrn j b) b))) ∧
  (∀ (b0 : Block) (r : RingNo) (l : List Byte),
    let x := Jrn.dec l
    let v := ringRec b0 r
    let e := BitVec.ofNat 13 (v.ebase.toNat + x.entry.toNat % 2 ^ v.win.toNat)
    let b := healItem e b0
    (∀ j, findJrn b e x.setno x.beat.toNat = some j →
      mirrorJrn r l b0 = some (writeJrn j { jrnOf b j with st := x.st, haddr := x.haddr, chan := x.chan } b)) ∧
    (findJrn b e x.setno x.beat.toNat = none → freeRecord b = none → mirrorJrn r l b0 = none) ∧
    (∀ j, findJrn b e x.setno x.beat.toNat = none → freeRecord b = some j →
      let m := appendJrn e j x.beat.toNat x.chan x.setno (x.haddr ++ (0 : BitVec 6) : BitVec 52) b
      mirrorJrn r l b0 = some (writeJrn j { jrnOf m j with st := x.st } m))) ∧
  (∀ (s : State) (i : BitVec 9),
    let b := s.blk
    let due := (b.fed.pair i).beatAt + (b.fed.cfg.extractLsb' 16 8).toNat * 16384 / 8 ≤ b.now
    (b.fed.joined = true → mirroredTo b i ≠ [] → rtValid (b.fed.route i) = true → rtLost (b.fed.route i) = false → due →
      Does (.heartbeatSend i) s
      (sendSeq 0x07 0 i [] none (b.modFed (fun d => d.modPair i (fun q => { q with beatAt := b.now }))))) ∧
    (mirroredTo b i = [] ∨ rtValid (b.fed.route i) = false ∨ rtLost (b.fed.route i) = true ∨ ¬ due →
      Does (.heartbeatSend i) s b)) ∧
  (∀ (s : State) (i : BitVec 9),
    let b := s.blk
    let q := b.fed.pair i
    let late := q.heard + (b.fed.cfg.extractLsb' 16 8).toNat * 16384 ≤ b.now
    (b.fed.joined = true → q.lost = false → mirroredTo b i ≠ [] → late → Does (.partnerLoss i) s
      ((mirroredTo b i).foldl (fun b r =>
        let m := b.modRing r (fun q => { q with lostFrom := some (ringRec b r).st })
        queueEvent 3 (bytesOf 2 (r.setWidth 16) ++ [3] ++ bytesOf 2 (i.setWidth 16)) (setRingState r 2 m))
        (detect 0x56A 3 (i.setWidth 24) (b.modFed (fun d => d.modPair i (fun q => { q with lost := true })))))) ∧
    (q.lost = true ∨ mirroredTo b i = [] ∨ ¬ late → Does (.partnerLoss i) s b)) ∧
  (∀ (b : Block) (i : BitVec 9),
    let m := b.modFed (fun d => d.modPair i (fun q => { q with heard := b.now, lost := false }))
    ((b.fed.pair i).lost = false → heardFrom i b = m) ∧
    ((b.fed.pair i).lost = true → heardFrom i b = (mirroredTo m i).foldl (fun b r => match (b.ring r).lostFrom with
      | some st =>
        let v := ringRec b r
        let out := anyChan v.chbase (2 ^ v.chcnt.toNat) (outOfService b)
        drained r (setRingState r (if (b.ring r).bad ∨ b.sup.stopped ∨ out then 2 else st)
          (b.modRing r (fun q => { q with lostFrom := none })))
      | none => b) m)) ∧
  (∀ (b : Block) (i : BitVec 9) (r : RingNo),
    let v := ringRec b r
    (r ∈ mirroredTo b i ↔ r ∈ liveRings b ∧ v.ctl.getLsbD 5 = true ∧ v.ctl.getLsbD 6 = false ∧ v.peer = i ∧ v.st ≠ 0) ∧
    (r ∈ copiesOf b i ↔ r ∈ liveRings b ∧ v.ctl.getLsbD 6 = true ∧ v.peer = i)) ∧
  (∀ (s : State) (i : BitVec 9),
    let b := s.blk
    let q := b.fed.pair i
    let rs := copiesOf b i
    let late := q.heard + 2 * ((b.fed.cfg.extractLsb' 16 8).toNat * 16384) + 1048576 ≤ b.now
    let m := detect 0x56A 2 (i.setWidth 24) (b.modFed (fun d =>
      (d.setRoute i (d.route i ||| 0x80)).modPair i (fun q => { q with taken := true })))
    (b.fed.joined = true → q.taken = false → rs ≠ [] → late → Does (.takeover i) s
      (queueEvent 4 (bytesOf 2 (i.setWidth 16) ++ bytesOf 2 (BitVec.ofNat 16 rs.length) ++
        bytesOf 2 ((rs.headD 0).setWidth 16)) (rs.foldl (fun b r => takeRing r b) m))) ∧
    (q.taken = true ∨ rs = [] ∨ ¬ late → Does (.takeover i) s b)) ∧
  (∀ (b0 : Block) (r : RingNo),
    let b := healRing r b0
    let v0 := ringRec b r
    let v := { v0 with st := 1, ctl := v0.ctl &&& 0x9F, partner := 0, pring := 0 }
    let m0 := (writeRing r v b).modRing r (fun _ => { tail := v.next.extractLsb' 0 32, acc := v.next, headDirty := true })
    let m := v.openItems.foldl (fun b e => modEntry e (fun x => { x with
      actsets := 0, chan := v.chbase + (x.chan &&& BitVec.ofNat 16 (2 ^ v.chcnt.toNat - 1)) }) b) m0
    let acc := v.openItems.filter (fun e => [1, 2, 5].contains (entryOf m e).st)
    takeRing r b0 = acc.foldl (fun b e => replayItem e b)
      { m with con := { m.con with missing := m.con.missing ++ acc } })

/-- Mailbox doorbells and completions, posted events, rebinds and heartbeat, and the register port's writes and reads
(R9, R197, R385, R389, R390, R391, R392, R394, R397, R398, R402, R512). -/
def Obligations.MailboxesEventsAndRegistersAnswer : Prop :=
  (∀ (m : BitVec 6), PortWrite (fun o => .mbxDb o m) (.mbx m 0x80) 1 (fun o b =>
    let x := b.mbx m
    if o ≠ .hreg ∧ o ≠ .dap then b
    else if m = 63 ∨ x.st = 1 ∨ x.st = 2 then b.modMbx m (fun x => { x with werr := x.werr.set b.now })
    else if b.syn.st = .failed then b
    else (b.modMbx m (fun x => { x with st := 1, tag := (Map.get 0 x.req 0).extractLsb' 16 16 })).modSyn (fun y => { y with
      queue := y.queue ++ [m], done := y.done.clear b.now (BitVec.ofNat 64 (2 ^ m.toNat)) }))) ∧
  PortWrite .synEvack (.syn 0x0C) 1 (fun o b => match o with
    | .ctx _ _ => b
    | _ => if b.syn.st = .failed then b else b.modSyn (fun y => { y with posted := none, evackAt := some b.now })) ∧
  (∀ (b : Block) (x : Running) (result detail : Nat) (data : List Byte), b.syn.run = some x → data.length ≤ 56 →
    let r := reqOf b x.pair
    let t := reply result detail data b
    ((List.range 16).flatMap (fun k => bytesOf 4 (Map.get 0 (t.mbx x.pair).rsp k)) =
      r.take 4 ++ bytesOf 2 (BitVec.ofNat 16 result) ++ bytesOf 2 (BitVec.ofNat 16 detail) ++
        (if result = 0 then data ++ List.replicate (56 - data.length) 0 else List.replicate 56 0)) ∧
    (t.mbx x.pair).st = 3 ∧ t.syn.run = none ∧ t.syn.queue = b.syn.queue ∧ t.syn.done = b.syn.done.set b.now (BitVec.ofNat 64 (2 ^ x.pair.toNat)) ∧
    t.syn.hirqPend = (if rqN r 6 1 % 2 = 1 then b.syn.hirqPend.set b.now (BitVec.ofNat 8 (2 ^ (b.syn.cfg.extractLsb' 0 3).toNat)) else b.syn.hirqPend) ∧
    t = { b with syn := { b.syn with mbx := t.syn.mbx, run := none, done := t.syn.done, hirqPend := t.syn.hirqPend } }) ∧
  (∀ (r : List Byte) (ps : List Param), badParam r ps = none ↔ ∀ o, 8 ≤ o → o < 64 →
    (∀ p, ps.find? (fun p => decide (p.1 ≤ o ∧ o < p.1 + p.2.1)) = some p → p.1 = o → p.2.2 (rqN r o p.2.1) = true) ∧
    (ps.find? (fun p => decide (p.1 ≤ o ∧ o < p.1 + p.2.1)) = none → rqN r o 1 = 0)) ∧
  CmdRow .queryVersion 1 0 [.wake, .test, .load, .trim, .service, .recover, .quiesce] (fun _ => []) (fun _ _ b =>
    reply 0 0 (bytesOf 4 fwVersion ++ bytesOf 4 (0x4B575052 : Reg32) ++ bytesOf 4 (0x00030001 : Reg32) ++
      [7, BitVec.ofNat 8 b.mode.code] ++ [0x11, 0]) b) ∧
  (∀ (s : State) (x : Running),
    let b := s.blk
    let r := reqOf b x.pair
    let opc := rqN r 0 2
    let past (n : Nat) := x.since + n ≤ b.now
    b.syn.run = some x →
    ((b.mbx x.pair).st ≠ 2 → Does .commandTimeout s (reply 0xFF 0 [] (detect 0x564 1 0 b))) ∧
    ((b.mbx x.pair).st = 2 →
    (opc = 2 → x.stage = 2 → past 100000000 → b.sup.stopped = false → Does .commandTimeout s (reply 5 5 [] b)) ∧
    (opc = 2 → x.stage = 2 → past 100000000 → b.sup.stopped = true → Does .commandTimeout s (reply 4 b.mode.code [] b)) ∧
    (opc = 0xA → x.stage = 1 → past 50000000 → Does .commandTimeout s (reply 0xC 0 [] (joinStop b))) ∧
    (opc = 0xF → x.stage = 1 → past (rqN r 0xA 4) → Does .commandTimeout s (reply 5 2 [] b)) ∧
    (opc = 0x11 → x.stage ≠ 0 → past (rqN r 0x20 4) → Does .commandTimeout s (reply 5 2 []
      (if x.stage = 1 ∧ (rq 8 r 0xB 1).getLsbD 1 then injectCancel (rq 9 r 8 2) (rq 4 r 0xA 1) b else b))) ∧
    ((opc ≠ 2 ∧ opc ≠ 0xA ∧ opc ≠ 0xF ∧ opc ≠ 0x11) ∨ x.stage = 0 → Does .commandTimeout s b))) ∧
  (∀ (s : State),
    let b := s.blk
    (b.syn.evq = [] ∨ b.mode = .off ∨ b.syn.st ≠ .ready ∨ b.syn.posted ≠ none ∨ b.syn.evackAt = some b.now →
      Does .eventPost s b) ∧
    (∀ x rest, b.syn.evq = x :: rest → takesCommands b → b.syn.posted = none → b.syn.evackAt ≠ some b.now →
      let l := bytesOf 2 x.kind ++ bytesOf 2 b.syn.evSeq ++ bytesOf 6 x.stamp ++ (x.data ++ List.replicate 54 0).take 54
      Does .eventPost s (raiseIrq (b.syn.cfg.extractLsb' 3 3) ((b.modMbx 63 (fun m => { m with rsp := rspWords l, st := 3 })).modSyn
        (fun y => { y with evq := rest, evSeq := y.evSeq + 1, posted := some x, done := y.done.set b.now (BitVec.ofNat 64 (2 ^ 63)) }))))) ∧
  (∀ (s : State) (ch : Chan) (z : Rebind),
    let b := s.blk
    takesCommands b → b.syn.rebinds.find? (fun x => x.chan == ch) = some z → bindable b ch = true →
    (∀ x, Map.get none b.syn.binds ch.toNat = some x → Does (.channelRebind ch) s
      (unholdRings (queueEventAt z.stamp 1 (bytesOf 2 ch ++ [readByte b (csbAddr b ch + 0x0B) + 1, z.cause]) (bindChannel ch x b)))) ∧
    (Map.get none b.syn.binds ch.toNat = none → Does (.channelRebind ch) s
      (b.modSyn (fun y => { y with rebinds := y.rebinds.filter (fun w => w.chan != ch) })))) ∧
  (∀ (s : State),
    let b := s.blk
    (takesCommands b → b.syn.beatAt + 1000000 ≤ b.now → Does .synHeartbeat s
      (b.modSyn (fun y => { y with heartbeat := y.heartbeat + 1, beatAt := y.beatAt + 1000000 }))) ∧
    (b.now < b.syn.beatAt + 1000000 → Does .synHeartbeat s b)) ∧
  (∀ (s : State) (o : Origin) (addr : BitVec 24),
    let b := s.blk
    let w := portWin o addr
    let t := portTouch w b
    addr.extractLsb' 0 2 = 0 →
    (∀ d, CanLand b o w (.write d) → Does (.registerWrite o addr d) s (portEnd b o (.write d) 0 (nativeWrite o w d t))) ∧
    (CanLand b o w .read → Does (.readClearRead o addr) s (portEnd b o .read (nativeRead t o w)
      (if o = .dap ∧ b.dbg.side = false then t else nativeClear o w t)))) ∧
  (∀ (s : State) (o : Origin) (addr : BitVec 24) (d : Reg32), s.blk.mode ≠ .off → (∀ e k, o ≠ .ctx e k) →
    (∀ x ∈ s.blk.held, x.org ≠ o) → (o = .dap → s.blk.dbg.bus = none) → addr.extractLsb' 0 2 ≠ 0 →
    let t := { s.blk with rsp := Map.set none s.blk.rsp (orgKey o) (some (0, true)) }
    Does (.registerWrite o addr d) s t ∧ Does (.readClearRead o addr) s t) ∧
  (∀ (r : Nat), r < 0x10000 → winOf r = .inst r ∧ winOf (0x10000 + r) = .imp r ∧ winOf (0x20000 + r) = .tir r ∧
    winOf (0x30000 + r) = .syn r ∧ winOf (0x80000 + r) = .fed r) ∧
  (∀ (r : Nat), r < 0x100 → (∀ m : BitVec 6, winOf (0x40000 + 0x100 * m.toNat + r) = .mbx m r) ∧
    (∀ n : BitVec 8, winOf (0x60000 + 0x100 * n.toNat + r) = .dma n r ∧ winOf (0x70000 + 0x100 * n.toNat + r) = .head n r) ∧
    (∀ n : BitVec 12, r < 0x10 → winOf (0x50000 + 0x10 * n.toNat + r) = .ring n r)) ∧
  (∀ (c : CluId) (i : BitVec 3) (r : Nat), (r < 0x2000 → winOf (0x100000 + 0x4000 * c.toNat + r) = .clu c r) ∧
    (r < 0x400 → winOf (0x102000 + 0x4000 * c.toNat + 0x400 * i.toNat + r) = .eng (c ++ i) r) ∧
    (r < 0x1000 → winOf (0x90000 + 0x1000 * i.toNat + r) = .sec i r)) ∧
  (∀ (b : Block) (o : Origin), nativeRead b o (.syn 0x18) = (b.syn.evLost.pre b.now).setWidth 32 ∧
    nativeRead (nativeClear o (.syn 0x18) b) o (.syn 0x18) = 0 ∧ nativeRead b o (.fed 0x10) = b.fed.retx.pre b.now ∧
    nativeRead (nativeClear o (.fed 0x10) b) o (.fed 0x10) = 0 ∧ nativeRead b o (.inst 0x820) = b.con.accepts.pre b.now ∧
    nativeRead (nativeClear o (.inst 0x820) b) o (.inst 0x820) = 0 ∧
    ∀ d, nativeRead (nativeWrite o (.fed 4) d b) o (.fed 4) = d &&& 0x0FFFFFFF ∧
      nativeRead (nativeWrite .hreg (.syn 8) d b) o (.syn 8) = d &&& 0x7F ∧
      nativeRead (nativeWrite o (.inst 0x64) d b) o (.inst 0x64) = d &&& 0xFF ∧
      nativeRead (nativeWrite o (.inst 0x60) d b) o (.inst 0x60) = nativeRead b o (.inst 0x60) &&& ~~~d) ∧
  (∀ (s : State) (o : Origin) (off : BitVec 16) (p : Nat),
    let b := s.blk
    let w := tirAlias off.toNat
    let t := portTouch w b
    (o = .hreg ∨ o = .synCore) → b.mode ≠ .off → (∀ x ∈ b.held, x.org ≠ o) → b.syn.cfg.getLsbD 6 = true → tirPair off.toNat = some (p, true) →
    shut b o (.tir off.toNat) = false → shut b o w = false →
    (∀ c, w.cluster = some c → shut b o (.clu c 0) = false ∧ (b.clu c).asleep = false) →
    Does (.tirLoRead o off) s (answerPort o (nativeRead t o w) false ((nativeClear o w t).modOrg (orgKey o) (fun q => { q with
      tirPair := some p, tirHi := nativeRead t o (tirAlias (off.toNat + 4)) }))) ∧
    ((b.orgRegs (orgKey o)).tirPair = some p → Does (.readClearRead o (0x020004 + off.setWidth 24)) s
      (answerPort o (b.orgRegs (orgKey o)).tirHi false (nativeClear o (tirAlias (off.toNat + 4)) t))))

/-- MODE_REQ, FENCE_ and UNFENCE_SECTION, RING_CREATE, DESTROY and MIRROR, FEDERATE_JOIN and LEAVE, TIME_SET (R194,
R311, R316, R363, R365, R395, R396, R397, R398, R403, R408, R412). -/
def Obligations.ModeSectionRingAndFederationCommands : Prop :=
  CmdRow .modeReq 2 2 [.wake, .test, .load, .trim, .service, .recover, .quiesce]
    (fun _ => [(8, 1, fun v => decide (v < 8)), (9, 1, fun _ => true)]) (fun r x b =>
    let bad (b : Block) := reply 4 b.mode.code [] b
    let target := rqN r 8 1
    let mask : Byte := rq 8 r 9 1
    if x.stage = 0 then
      if b.sup.stopped then bad b
      else if b.mode = .test ∧ target = 3 then
        if Config.testReq b.free then bad { b with free := b.free + 1 }
        else replyEff 0 b.tick (testToLoad { b with free := b.free + 1 })
      else if b.mode = .load ∧ target = 4 then stage 1 (wantTrim (setMode .trim b))
      else if b.mode = .trim ∧ target = 3 then replyEff 0 b.tick (setMode .load b)
      else if b.mode = .trim ∧ target = 5 then (if b.sup.trimv then replyEff 0 b.tick (enterService b) else bad b)
      else if b.mode = .service ∧ target = 7 then stage 2 (enterQuiesce (if mask = 0xFF then 0 else mask) b)
      else if b.mode = .quiesce ∧ target = 5 then replyEff 0 b.tick (leaveQuiesce b)
      else if b.mode = .quiesce ∧ target = 3 then
        (if b.sup.qdone = true ∧ b.sup.secMask = 0 then replyEff 0 b.tick (quiesceToLoad b) else bad b)
      else bad b
    else if b.sup.stopped then bad b
    else if x.stage = 1 then (if b.mode = .trim ∧ allTrimmed b = true then replyEff 0 x.effect b else b)
    else if b.sup.qdone = true ∨ b.mode = .service then replyEff 0 x.effect b else b) ∧
  CmdRow .fenceSection 5 2 [.service] (fun _ => [(8, 1, fun v => decide (v < 8)), (9, 1, fun v => decide (v < 2))]) (fun r x b =>
    let s : SecId := rq 3 r 8 1
    let low := b.modSec s (fun x => { x with req := false, reqAt := if x.ack then some b.now else none })
    if x.stage = 0 then (if b.fenced s then replyEff 0 b.tick b else stage 1 (fenceRecover s b))
    else if x.stage = 1 then
      if recovering b then b
      else if rqN r 9 1 = 1 then (if (b.sec s).ack then modRun (fun x => { x with stage := 2 }) low else replyEff 0 x.effect low)
      else replyEff 0 x.effect b
    else if (b.sec s).ack = false then replyEff 0 x.effect b
    else if (b.sec s).reqAt = none then reply 5 4 [] b else b) ∧
  CmdRow .unfenceSection 6 1 [.service] (fun _ => [(8, 1, fun v => decide (v < 8))]) (fun r x b =>
    let s : SecId := rq 3 r 8 1
    let done := replyEff 0 b.tick (unfence s b)
    if x.stage = 0 then
      if b.fenced s = false then replyEff 0 b.tick b
      else if (b.sec s).powered = false ∨ (b.sec s).req = false then stage 1 (raiseReq s b)
      else if (b.sec s).clearing then stage 1 b else done
    else if (b.sec s).powered then (if (b.sec s).clearing then b else done)
    else if (b.sec s).reqAt = none then reply 5 4 [] b else b) ∧
  CmdRow .ringCreate 7 44 [.load, .service] (fun r =>
    [(0x08, 2, fun v => decide (v < 4096)), (0x0A, 1, fun v => decide (4 ≤ v ∧ v ≤ 16)),
     (0x0B, 1, fun v => decide (v ≤ 12 ∧ v ≤ rqN r 0x0A 1)), (0x0C, 1, fun v => decide (v < 16)),
     (0x0D, 1, fun v => decide (BitVec.ofNat 8 v &&& 0xE2 = 0)), (0x0E, 2, fun _ => true), (0x10, 8, fun v => decide (v % 64 = 0)),
     (0x18, 8, fun v => decide (v % 32 = 0)), (0x20, 8, fun v => decide (v % 8 = 0)),
     (0x28, 2, fun v => decide (v % 2 ^ min (rqN r 0x2C 1) 8 = 0)),
     (0x2A, 2, fun v => decide (v = 0xFFFF ∨ v % 2 ^ min (rqN r 0x2C 1) 8 = 0)), (0x2C, 1, fun v => decide (v < 9)),
     (0x30, 4, fun _ => true)]) (fun r _ b =>
    let n : RingNo := rq 12 r 8 2
    let win := 2 ^ rqN r 0x0B 1
    let at_ := ((List.range (8192 / win)).map (· * win)).find? (fun e =>
      b.con.ranges.all (fun x => decide (e + win ≤ x.1 ∨ x.1 + x.2.1 ≤ e)))
    if ringState b n ≠ 0 then reply 8 0 [] b
    else if freeEntries b < win then reply 6 1 [] b
    else match at_ with
      | none => reply 6 2 [] b
      | some e =>
        let v : RingRec := {
          next := 0, ret := 0, last := rq 32 r 0x30 4, epoch := rq 16 r 0x0E 2, st := 1, size := rq 8 r 0x0A 1
          win := rq 8 r 0x0B 1, maxtry := rq 8 r 0x0C 1, ctl := rq 8 r 0x0D 1, chcnt := rq 8 r 0x2C 1, ebase := BitVec.ofNat 16 e
          chbase := rq 16 r 0x28 2, spbase := rq 16 r 0x2A 2, partner := 0, dbase := rq 64 r 0x10 8, cbase := rq 64 r 0x18 8
          awb := rq 64 r 0x20 8, pring := 0 }
        let m := (writeRing n v b).modRing n (fun q => { dberr := q.dberr, limit := q.limit })
        replyEff (BitVec.ofNat 16 e) b.tick { m with con := { m.con with ranges := m.con.ranges ++ [(e, win, n)] } }) ∧
  CmdRow .ringDestroy 8 3 [.service, .quiesce] (fun _ => [(8, 2, fun v => decide (v < 4096)), (0xA, 1, fun v => decide (v < 2))])
    (fun r x b =>
    let n : RingNo := rq 12 r 8 2
    let zero := b.modRing n (fun q => { q with abandoned := 0 })
    let m := drainRing n (stage 1 (if rqN r 0xA 1 = 1 then abandonItems n zero else zero))
    if x.stage ≠ 0 then (if (ringRec b n).st = 0 then ringGone n b else b)
    else if ownRing b n = false then reply 7 0 [] b
    else if ringState b n = 4 ∨ ringState b n = 3 then reply 5 1 [] b
    else if (ringRec m n).st = 0 then ringGone n m else m) ∧
  (∀ (b : Block) (r : RingNo) (e : EntryNo),
    let v := ringRec b r
    let x := entryOf b e
    let m := (b.setQueue x.chan ((b.queue x.chan).filter (fun y => y != e))).modCon (fun c => { c with
      held := c.held.filter (fun y => y != e), missing := c.missing.filter (fun y => y != e) })
    v.openItems = [e] →
    abandonItems r b = if x.st = 4 ∨ e ∈ (((b.ring r).sent ++ (b.ring r).okd).map v.entry) then b
      else (itemDone e 0xFFFD 0 m).modRing r (fun q => { q with abandoned := q.abandoned + 1 })) ∧
  (∀ (a : MirrorAnswer), (a = .noResource ∨ a = .none ∨ ∃ c, a = .reserved c) → CmdRow (.ringMirror a) 9 8 [.service]
    (fun _ => [(8, 2, fun v => decide (v < 4096)), (0xA, 1, fun v => decide (v < 2)), (0xC, 2, fun v => decide (v < 512)),
      (0xE, 2, fun _ => true)]) (fun r _ b =>
    let n : RingNo := rq 12 r 8 2
    let p : BitVec 9 := rq 9 r 0xC 2
    let v := ringRec b n
    if ownRing b n = false then reply 7 0 [] b
    else if ringState b n = 4 ∨ ringState b n = 3 then reply 5 1 [] b
    else if rqN r 0xA 1 = 1 then
      if b.fed.joined = false then reply 0xA 0 [] b
      else if v.ctl.getLsbD 5 then reply 8 0 [] b
      else if p = b.fed.instId ∨ rtValid (b.fed.route p) = false ∨ rtLost (b.fed.route p) = true then reply 7 0 [] b
      else match a with
        | .noResource => reply 6 0 [] b
        | .none | .reserve .. | .release .. => reply 0xC 0 [] b
        | .reserved c =>
          let m := writeRing n { v with ctl := v.ctl ||| 0x20, partner := p.setWidth 16, pring := c.setWidth 16 } b
          let m := m.modFed (fun d => d.modPair p (fun q => { q with heard := b.now, beatAt := b.now }))
          replyEff (c.setWidth 16) b.tick (mirrorCopy n m)
    else if v.ctl.getLsbD 5 = false then reply 7 0 [] b
    else
      let m := partnerBack n (mirrorDrop n b)
      replyEff v.pring b.tick (writeRing n { ringRec m n with ctl := v.ctl &&& 0xDF, partner := 0, pring := 0 } m))) ∧
  (∀ (s : State) (o : BitVec 9) (r : BitVec 12) (l : List Byte) (ch : Chan),
    let b := s.blk
    let x := RingRec.dec l
    let win := 2 ^ x.win.toNat
    let ready := takesCommands b ∧ b.fed.joined = true ∧ o ≠ b.fed.instId ∧ win ≤ freeEntries b
    let lowest (c : BitVec 12) := ringState b c = 0 ∧ ∀ d, d < c → ringState b d ≠ 0
    (¬ ready → Does (.ringMirror (.reserve o r l ch)) s b) ∧
    ((∀ d, ringState b d ≠ 0) ∨ freeRange b win = none → Does (.ringMirror (.reserve o r l ch)) s b) ∧
    (∀ c e, ready → lowest c → freeRange b win = some e →
      let v := { x with
        st := 2, ctl := (x.ctl &&& 0x1F) ||| 0x40, ebase := BitVec.ofNat 16 e, chbase := ch, spbase := 0xFFFF
        partner := o.setWidth 16, pring := r.setWidth 16 }
      let m := (writeRing c v b).modRing c (fun q => { dberr := q.dberr, limit := q.limit })
      let m := { m with con := { m.con with ranges := m.con.ranges ++ [(e, win, c)] } }
      Does (.ringMirror (.reserve o r l ch)) s (m.modFed (fun d => d.modPair o (fun q => { q with heard := b.now }))))) ∧
  (∀ (s : State) (o : BitVec 9) (c : BitVec 12),
    let b := s.blk
    let v := ringRec b c
    let ours := takesCommands b ∧ v.ctl.getLsbD 6 = true ∧ v.partner.extractLsb' 0 9 = o
    let m := v.openItems.foldl (fun b e => (itemChain b e).foldl (fun b j => freeJrn j b) b) b
    let m := setRingState c 0 m
    (¬ ours → Does (.ringMirror (.release o c)) s b) ∧
    (ours → Does (.ringMirror (.release o c)) s
      ({ m with con := { m.con with ranges := m.con.ranges.filter (fun y => y.2.2 != c) } }.modRing c (fun q => {
        dberr := q.dberr, limit := q.limit })))) ∧
  CmdRow .federateJoin 0xA 4 [.trim] (fun _ => [(8, 2, fun v => decide (v < 512)), (0xA, 1, fun _ => true),
    (0xB, 1, fun v => decide (1 ≤ v ∧ v ≤ 15))]) (fun r x b =>
    if x.stage = 0 then (if b.fed.joined then reply 0xA 0 [] b else stage 1 (joinStart r b))
    else if (b.fed.port 0).refused ∨ (b.fed.port 1).refused ∨ (b.fed.port 2).refused ∨ (b.fed.port 3).refused then
      reply 8 0 [] (joinStop b)
    else if b.fed.joined then joinReply (joinStop b)
    else if electedHere x b then joinReply (joinStop (elect (b.modFed (fun d => { d with joined := true })))) else b) ∧
  (∀ (r : List Byte) (b : Block) (p : BitVec 2),
    let t := joinStart r b
    let u := joinStop b
    let q := b.fed.port p
    t.fed.instId = rq 9 r 8 2 ∧ t.fed.prio = rq 8 r 0xA 1 ∧ t.fed.master = false ∧ t.fed.parent = none ∧
    (t.fed.port p).asked = (rq 4 r 0xB 1 : BitVec 4).getLsbD p.toNat ∧
    t.fed.port p = { q with
      asked := (t.fed.port p).asked, accepted := false, refused := false, ann := none, wire := (t.fed.port p).wire } ∧
    u.fed.port p = { q with asked := false, refused := false } ∧ u = { b with fed := { b.fed with ports := u.fed.ports } }) ∧
  (∀ (x : Running) (b : Block), electedHere x b = true ↔
    x.since + 196608 ≤ b.now ∧ (∃ p, (b.fed.port p).accepted = true ∧ (b.fed.port p).st = .up) ∧
    ∀ p a, (b.fed.port p).ann = some a →
      b.fed.prio.toNat * 512 + b.fed.instId.toNat ≤ a.prio.toNat * 512 + a.id.toNat) ∧
  CmdRow .federateLeave 0xB 0 [.service, .quiesce] (fun _ => []) (fun _ _ b =>
    if (liveRings b).any (fun r => (ringRec b r).ctl.getLsbD 5 || (ringRec b r).ctl.getLsbD 6) then reply 0xA 0 [] b
    else reply 0 0 [] (leaveFed b)) ∧
  (∀ (b : Block),
    let t := leaveFed b
    t.fed.joined = false ∧ t.fed.master = false ∧ t.fed.parent = none ∧ t.fed.alarm = false ∧ (∀ i, t.fed.route i = 0) ∧
    (∀ i, t.fed.pair i = {}) ∧ t.fed.timed = [] ∧ t.con.mirWaits = [] ∧ t.tick = b.tick ∧ t.mem = b.mem ∧ t.fed.rxq = b.fed.rxq ∧
    t.ctxs = b.ctxs ∧ t.engs = b.engs ∧ t.dma = b.dma ∧ t.syn = b.syn) ∧
  CmdRow .timeSet 0xC 8 [.trim, .load, .service] (fun _ => [(8, 6, fun _ => true)]) (fun r _ b =>
    if b.fed.joined then reply 0xA 0 [] b
    else replyEff 0 b.tick (detect 0x563 1 0 { b.modFed (fun d => { d with load := some (rq 48 r 8 6) }) with
      fab := { b.fab with stepped := b.fab.stepped.set b.now } }))

/-- LOAD_IMAGE, PATCH_APPLY, HEAD_BIND, CHANNEL_BIND, UNBIND and WAKE, and INJECT (R172, R176, R177, R182, R183, R185,
R275, R395, R396, R397, R401, R402). -/
def Obligations.ImageHeadChannelAndInjectionCommands : Prop :=
  (∀ (f : Fetched), CmdRow (.loadImage f) 3 13 [.load]
    (fun _ => [(0x08, 8, fun v => decide (v % 64 = 0)), (0x10, 4, fun _ => true), (0x14, 1, fun v => decide (v < 2))])
    (fun r _ b => match f with
      | .failed off => reply 9 off [] b
      | .bytes l =>
        if l.length ≠ rqN r 0x10 4 then b
        else match checkCommon b 0x0301 l with
          | some e => reply e 0 [] b
          | none =>
            if layoutOk l then reply 0 0 (bytesOf 4 (BitVec.ofNat 32 (imgN l 0xC 4)) ++ bytesOf 8 (loadedMask l)) (loadImage l b)
            else reply 0x15 0 [] b)) ∧
  (∀ (b : Block) (k : Nat) (l : List Byte),
    let n := imgN l 0x10 4
    let part (i m : Nat) := (l.drop (n + i)).take m
    let magic := imgN l 0 4 = 0x584A574B ∧ imgN l 4 2 = k ∧ n % 8 = 0 ∧ n + 248 = l.length
    let key := b.imp.keyValid = true ∧ b.imp.keyRevoked = false ∧ sha384 (part 0 97) = bytesOf 48 b.imp.keyDig
    let digest := sha384 (l.take n) = part 104 48
    let sig := ecdsaOk (part 0 97) (sha384 (l.take n)) (part 152 96) = true
    (¬ magic → checkCommon b k l = some 0x10) ∧ (magic → ¬ key → checkCommon b k l = some 0x11) ∧
    (magic → key → ¬ digest → checkCommon b k l = some 0x12) ∧
    (magic → key → digest → ¬ sig → checkCommon b k l = some 0x13) ∧
    (magic → key → digest → sig → imgN l 8 4 ≠ 0x00030001 → checkCommon b k l = some 0x14) ∧
    (magic → key → digest → sig → imgN l 8 4 = 0x00030001 → checkCommon b k l = none)) ∧
  (∀ (f : Fetched), CmdRow (.patchApply f) 4 13 [.service]
    (fun _ => [(0x08, 8, fun v => decide (v % 64 = 0)), (0x10, 4, fun _ => true), (0x14, 1, fun v => decide (v < 2))])
    (fun r x b => if x.stage ≠ 0 then patchEnd x b else match f with
      | .failed off => reply 9 off [] b
      | .bytes l =>
        if l.length ≠ rqN r 0x10 4 then b
        else match checkCommon b 0x0302 l with
          | some e => reply e 0 [] b
          | none =>
            let ts := pkgTargets b l
            if pkgLayoutOk l = false then reply 0x15 0 [] b
            else match ts.findSome? (fun c => pkgFits l (b.clu c)) with
              | some e => reply e 0 [] b
              | none =>
                if ts.any (fun c => decide ((b.clu c).state ≠ .loaded)) then reply 5 1 [] b
                else modRun (fun x => { x with stage := 1, aux := cluMask ts, effect := BitVec.ofNat 48 (imgN l 0x16 2 + 1) })
                  (ts.foldl (fun b c => if b.fenced (cluSec c) then b else pkgCommit l c b) b))) ∧
  (∀ (b : Block) (l : List Byte) (c : CluId), c ∈ pkgTargets b l ↔
    ((b.clu c).state = .loaded ∨ (b.clu c).state = .patching ∨ (b.clu c).state = .repair) ∧
    (b.clu c).body.toNat = imgN l 0x14 1) ∧
  (∀ (l : List Byte) (v : Clu),
    ((v.image.toNat ≠ imgN l 0xC 4 ∨ v.patch.toNat ≠ imgN l 0x16 2) → pkgFits l v = some 0x16) ∧
    (v.image.toNat = imgN l 0xC 4 → v.patch.toNat = imgN l 0x16 2 →
      (pkgFits l v = some 0x17 ↔ ∃ i < 32, let r := Map.get 0 v.pm i
        pmEn r = true ∧ ((pmRepairBit r = true ∧ i < imgN l 0x15 1) ∨
          ∃ j < imgN l 0x18 2, BitVec.ofNat 9 (imgN l (0xA0 + 24 * j + 22) 2) = pmPaddr r)) ∧
      (pkgFits l v = none ∨ pkgFits l v = some 0x17))) ∧
  (∀ (x : Running) (b : Block),
    let ts := maskClus x.aux
    let gone (c : CluId) := b.fenced (cluSec c) && decide ((b.clu c).patch ≠ x.effect.setWidth 16)
    let cut := ts.foldl (fun m c => if gone c then m ||| 2 ^ (cluSec c).toNat else m) 0
    let waits := ts.filter (fun c => !(b.fenced (cluSec c)) && decide ((b.clu c).pmWait ≠ 0))
    let m := waits.foldl (fun b c => b.modClu c (fun v => { v with pmLate := true }))
      (ts.foldl (fun b c => if b.fenced (cluSec c) && decide ((b.clu c).patch ≠ x.effect.setWidth 16) then pkgDiscard c b else b) b)
    ((∃ c ∈ ts, patchSettled b c = false) → patchEnd x b = b) ∧
    ((∀ c ∈ ts, patchSettled b c = true) →
      (cut ≠ 0 → patchEnd x b = reply 0xB cut [] m) ∧
      (cut = 0 → patchEnd x b = reply 0 0 (bytesOf 2 x.effect ++ bytesOf 8 (BitVec.ofNat 64 (cluMask ts)) ++
        bytesOf 8 (BitVec.ofNat 64 (cluMask waits))) m))) ∧
  (∀ (b : Block) (c : CluId), patchSettled b c = true ↔ b.fenced (cluSec c) = true ∨
    ∀ i : BitVec 3, (b.clu c).pmWait.getLsbD i.toNat = true → (b.eng (c ++ i)).halted = true) ∧
  CmdRow .headBind 0xD 4 [.service] (fun _ => [(8, 1, fun _ => true), (9, 1, fun v => decide (v < 2)), (0xA, 2, fun _ => true)])
    (fun r _ b =>
    let h : HeadNo := rq 8 r 8 1
    let ch : Chan := rq 16 r 0xA 2
    if rqN r 9 1 = 1 then
      if (b.head h).chan = none then reply 7 0 [] b else replyEff 0 b.tick (b.modHead h (fun x => { x with chan := none }))
    else if csbValid b ch = false then reply 7 0 [] b
    else replyEff 0 b.tick (b.modHead h (fun x => { x with chan := some ch }))) ∧
  CmdRow .channelBind 0xE 26 [.load, .service] (fun _ => [(0x08, 2, fun _ => true), (0x0A, 2, fun v => decide (v ≤ 0x21FF)),
    (0x0C, 2, fun v => decide (v < 0x1000)), (0x0E, 1, fun v => decide (v < 8)), (0x10, 6, fun v => decide (v % 128 = 0)),
    (0x16, 2, fun _ => true), (0x18, 2, fun v => decide (v < 0x200)), (0x1A, 6, fun _ => true),
    (0x20, 2, fun v => decide (v < 2))]) (fun r _ b =>
    let ch : Chan := rq 16 r 8 2
    let x : Binding := {
      upc := rq 16 r 0xA 2, tenant := rq 16 r 0xC 2, modeBits := rq 8 r 0xE 1, stkBase := rq 48 r 0x10 6, evMask := rq 16 r 0x16 2
      wake := rq 16 r 0x18 2, arg := rq 48 r 0x1A 6 }
    let g := readByte b (csbAddr b ch + 0x0B) + 1
    if bindable b ch = false then reply 7 0 [] b
    else if csbValid b ch = true ∧ rqN r 0x20 2 ≠ 1 then reply 8 0 [] b
    else if csbValid b ch = true ∧ (inContext b ch = true ∨ holdsTaken b ch = true) then reply 5 3 [] b
    else replyEff (g.setWidth 16) b.tick (unholdRings ((if b.syn.rebinds.any (fun x => x.chan == ch && x.at_ == b.now) then b
      else bindChannel ch x b).modSyn (fun y => { y with
      binds := Map.set none y.binds ch.toNat (some x) })))) ∧
  (∀ (b : Block) (ch : Chan) (x : Binding),
    let a := csbAddr b ch
    let c := bindCtx x
    let m := (breakLeases (memWrite b a (csbBytes ch c (x.wake.extractLsb' 0 9) 0 true (readByte b (a + 0x0B) + 1))) none a 256).modSyn
      (fun y => { y with rebinds := y.rebinds.filter (fun z => z.chan != ch) })
    bindChannel ch x b = joinReady ch (leaveReady ch m) ∧ c.upc = x.upc.extractLsb' 0 14 ∧ c.tenant = x.tenant.extractLsb' 0 12 ∧
    c.stkBase = x.stkBase ∧ c.evMask = x.evMask ∧ c.stat.getLsbD 16 = x.modeBits.getLsbD 0 ∧
    c.stat.getLsbD 17 = x.modeBits.getLsbD 1 ∧ c.stat.getLsbD 20 = x.modeBits.getLsbD 2 ∧ c.d[0] = x.arg ∧
    ∀ i : Fin 16, i.val ≠ 0 → c.d[i] = 0) ∧
  CmdRow .channelUnbind 0xF 6 [.service] (fun _ => [(8, 2, fun _ => true),
    (0xA, 4, fun v => decide (1 ≤ v ∧ v ≤ 100000000))]) (fun r _ b =>
    let ch : Chan := rq 16 r 8 2
    let a := csbAddr b ch + 0x0A
    if csbReach b ch = false ∨ csbValid b ch = false then reply 7 0 [] b
    else if holdsTaken b ch = true ∨ b.queue ch ≠ [] then reply 5 1 [] b
    else if parked b ch = true ∨ (b.syn.rebinds.any (fun x => x.chan == ch) = true ∧ inContext b ch = false) then
      reply 0 0 [] ((breakLeases (memWrite b a [readByte b a &&& 0xFE]) none a 1).modSyn (fun y => { y with
        binds := Map.set none y.binds ch.toNat none, rebinds := y.rebinds.filter (fun z => z.chan != ch) }))
    else stage 1 b) ∧
  CmdRow .channelWake 0x10 2 [.service] (fun _ => [(8, 2, fun _ => true)]) (fun r _ b =>
    let ch : Chan := rq 16 r 8 2
    if csbReach b ch = false ∨ csbValid b ch = false then reply 7 0 [] b
    else reply 0 0 [] (if parked b ch then joinReady ch b else b)) ∧
  CmdRow .inject 0x11 28 [.test, .service] (fun _ => [(0x08, 2, fun v => decide (v < 512)), (0x0A, 1, fun v => decide (v < 16)),
    (0x0B, 1, fun v => decide (v < 4)), (0x0C, 20, fun _ => true), (0x20, 4, fun v => decide (1 ≤ v ∧ v ≤ 100000000))])
    (fun r x b =>
    let e : EngId := rq 9 r 8 2
    let k : CtxId := rq 4 r 0xA 1
    let g := b.eng e
    let sys := (rq 8 r 0xB 1).getLsbD 0
    if x.stage = 0 then
      if coreSlotBusy b e then reply 5 1 [] b
      else stage (if (b.ctx (ctxNo e k)).inj ≠ none then 2 else 1) (injectGo .synCore e k sys (b.modEng e (fun g => { g with
        injD := Map.set 0 g.injD 2 (rq 160 r 0xC 20), injCtx := k, injSys := sys, injDone := {}, injErr := {} })))
    else if x.stage = 2 then b
    else if (b.ctx (ctxNo e k)).inj ≠ none ∨ (g.injDone.on = false ∧ g.injErr.on = false) then b
    else reply 0 0 (bytesOf 2 ((if g.injDone.on then 1 else 0) ||| (if g.injErr.on then (2 : BitVec 16) else 0))) b)

/-- Power-on, fuses, the end of WAKE, cold and block resets, warm WAKE, the end and overrun of RECOVER, and QDONE
(R343, R408, R409, R411, R412, R415, R416, R418, R420, R421, R426, R427). -/
def Obligations.WakeRecoverQuiesceAndBlockResetMoveTheMode : Prop :=
  (∀ (s : State),
    let b := s.blk
    let m := { coldReset b with mode := .wake, syn := { (coldReset b).syn with st := .boot }
                                imp := { (coldReset b).imp with synDeadline := some (2 ^ 24) } }
    (b.mode = .off → Does .powerOn s (([0, 1, 2, 3, 4, 5, 6, 7] : List SecId).foldl (fun b s => raiseReq s b) m)) ∧
    (b.mode ≠ .off → Does .powerOn s b) ∧
    Does .coldReset s { free := b.free, dbg := { tap := b.dbg.tap, tapDr := b.dbg.tapDr, cells := b.dbg.cells } }) ∧
  (∀ (s : SecId) (b : Block), (b.sec s).ack = false →
    raiseReq s b = b.modSec s (fun x => { x with req := true, reqAt := some b.now })) ∧
  (∀ (s : State) (d : Reg32),
    let b := s.blk
    let i := b.sup.fuseIdx
    let m := { b with sup := { b.sup with fuseIdx := i + 1 } }
    (b.mode ≠ .wake ∨ b.sup.fuseDone = true → Does (.fuseWord d) s b ∧ Does .fuseTimeout s b) ∧
    (b.mode = .wake → b.sup.fuseDone = false →
      Does .fuseTimeout s (applyFuse i 0 m) ∧
      (i < 0x120 → i % 2 = 0 → Does (.fuseWord d) s (fuseRepair (i / 2) (d.extractLsb' 20 10)
        (fuseRepair (i / 2) (d.extractLsb' 10 10) (fuseRepair (i / 2) (d.extractLsb' 0 10) m)))) ∧
      (i < 0x120 → i % 2 = 1 → Does (.fuseWord d) s (fuseRepair (i / 2) (d.extractLsb' 0 10) m)) ∧
      (0x120 ≤ i → i < 0x12C → Does (.fuseWord d) s { m with imp := { m.imp with
        keyDig := m.imp.keyDig ||| (d.setWidth 384 <<< (32 * (i - 0x120))) } }) ∧
      (0x12C ≤ i → Does (.fuseWord d) s { m with
        imp := { m.imp with keyValid := d.getLsbD 0 }, dbg := { m.dbg with fuseEn := d.getLsbD 1, mfr := d.extractLsb' 2 11 }
        sup := { m.sup with fuseDone := true } }))) ∧
  (∀ (bank : Nat) (f : BitVec 10) (b : Block),
    let col := (f.extractLsb' 0 9).toNat
    let u := if bank < 128 then bank / 16 else 8
    let i := if bank < 128 then bank % 16 else bank - 128
    let put (g : BitVec 4 → BitVec 4) := b.modUnit u (fun m => { m with repair := Map.mod 0 m.repair i g })
    (f.getLsbD 9 = false → fuseRepair bank f b = b) ∧
    (f.getLsbD 9 = true → col ≤ 287 → fuseRepair bank f b = put (fun v => v + 1)) ∧
    (f.getLsbD 9 = true → 287 < col → fuseRepair bank f b = detect (bankSrc bank) 5 ((f.extractLsb' 0 9).setWidth 24) (put (fun v => v ||| 8)))) ∧
  (∀ (s : State) (test : Bool),
    let b := s.blk
    let m0 := { b with syn := { b.syn with st := .ready, beatAt := b.now } }
    let m := if b.imp.keyValid = true ∧ b.imp.keyRevoked = false then m0 else detect 0x564 2 0 m0
    let clear := b.sup.before ≠ none ∨ (b.sup.fuseDone = true ∧ ∀ x : SecId, (b.sec x).clearing = false ∧ (b.sec x).reqAt = none)
    let next := if test then Mode.test else .load
    (b.mode ≠ .wake ∨ b.sup.inReset = true ∨ ¬ clear → Does (.wakeEnd test) s b) ∧
    (b.mode = .wake → b.sup.inReset = false → clear →
      (b.sup.before = none → Does (.wakeEnd test) s (setMode next m)) ∧
      (∀ o, b.sup.before = some o → (o = .service ∨ o = .recover ∨ o = .quiesce) → m.sup.trimv = true →
        Does (.wakeEnd test) s (allClus.foldl (fun b c => releaseCluster c b)
          (setMode .recover { m with sup := { m.sup with recoverAt := b.now, recoverSecs := 1 } }))) ∧
      (b.sup.before = some .test → Does (.wakeEnd test) s (setMode .load (testClear m))) ∧
      (∀ o, b.sup.before = some o → o ≠ .test → ((o ≠ .service ∧ o ≠ .recover ∧ o ≠ .quiesce) ∨ m.sup.trimv = false) →
        Does (.wakeEnd test) s (setMode .load m)))) ∧
  (∀ (m : Mode) (b : Block), setMode m b = timersEnter m { (if m = .load then putRegion 8 13 0x1E0 0x1FF (putRegion 8 14 0x100 0x19F (putRegion 8 15 0 0x9F b)) else b) with
    mode := m, sup := { b.sup with qdone := if m = .quiesce then b.sup.qdone else false } }) ∧
  (∀ (s : State) (brst : Bool),
    let b := s.blk
    let low := { (blockReset 1 b).cut partBlock with sup := { (blockReset 1 b).sup with brst := true } }
    (b.mode = .off → Does (.blockReset brst) s b) ∧
    (b.mode ≠ .off → b.sup.brst = false → Does (.blockReset true) s low) ∧
    (b.sup.brst = true → Does (.blockReset true) s b) ∧
    (∀ t cause, b.mode ≠ .off → b.sup.resetAt = some (t, cause) → t ≤ b.now → Does (.blockReset false) s ((blockReset cause b).cut partBlock)) ∧
    (b.sup.resetAt = none → Does (.blockReset false) s b)) ∧
  (∀ (b : Block) (cause : BitVec 4),
    let t := blockReset cause b
    t.mode = .wake ∧ t.rsp = [] ∧ t.paused = [] ∧ t.syn.st = .boot ∧ t.syn.queue = [] ∧ t.syn.run = none ∧ t.syn.mbx = [] ∧
    t.syn.done.on = 0 ∧ t.syn.hirqPend.on = 0 ∧ t.syn.posted = none ∧ (∀ x, b.syn.posted = some x → t.syn.evq.head? = some x) ∧ t.held = [] ∧ t.dbg.bus = none ∧ t.dbg.pEn = false ∧ t.dbg.pActive = false ∧
    t.fab.goatAt = none) ∧
  (∀ (s : State),
    let b := s.blk
    let m := { b with sup := { b.sup with inReset := false, brst := false }, syn := { b.syn with st := .boot } }
    let ready := if b.sup.brst then b.sup.resetTick < b.now else b.sup.resetTick + 16 ≤ b.now
    (b.mode = .wake → b.sup.inReset = true → ready → Does .warmWake s
      (allSecs.foldl (fun b s => if b.fenced s then b else requeueParked s b) m)) ∧
    (b.mode ≠ .wake ∨ b.sup.inReset = false ∨ ¬ ready → Does .warmWake s b)) ∧
  (∀ (s : State),
    let b := s.blk
    let closed := b.con.held = [] ∧ b.con.refetch = [] ∧ (∀ r ∈ liveRings b, ringState b r ≠ 4) ∧
      ∀ l ∈ b.poison, repairable b l = false ∧ payBad b l = false
    (b.mode = .recover → b.sup.stopped = false → closed → Does .recoverEnd s (unholdRings (setMode b.sup.ret b))) ∧
    (b.mode ≠ .recover ∨ b.sup.stopped = true ∨ ¬ closed → Does .recoverEnd s b)) ∧
  (∀ (s : State),
    let b := s.blk
    let m := { b with sup := { b.sup with stopped := true, stopAt := none } }
    let budget := if b.sup.recoverSecs = 0 then 1100000 else 5000000 * b.sup.recoverSecs
    let past := (∃ t, b.sup.stopAt = some t ∧ t ≤ b.now) ∨ (b.mode = .recover ∧ b.sup.recoverAt + budget + 1000000 < b.now)
    let held := ((listedEngs m).foldl (fun b e => resetEngine 2 e b) m).cutEngines
    (b.mode ≠ .off → b.sup.stopped = false → past → Does .recoverOverrun s
      ((liveRings held).foldl (fun b r => setRingState r 2 b) held)) ∧
    (b.mode = .off ∨ b.sup.stopped = true ∨ ¬ past → Does .recoverOverrun s b)) ∧
  (∀ (s : State),
    let b := s.blk
    let drained := (∀ r ∈ liveRings b, (ringRec b r).next = (ringRec b r).ret) ∧
      (∀ x ∈ b.dma, x.2.st = .idle ∨ x.2.st = .error) ∧ portsIdle b = true ∧ b.con.mirWaits = []
    (b.mode = .quiesce → b.sup.secMask = 0 → drained → Does .quiesceDone s { b with sup := { b.sup with qdone := true } }) ∧
    (b.mode = .quiesce → b.sup.secMask = 0 → ¬ drained → Does .quiesceDone s b) ∧
    (b.mode ≠ .quiesce → Does .quiesceDone s b) ∧
    (b.mode = .quiesce → b.sup.secMask ≠ 0 → Does .quiesceDone s (partQuiesce b))) ∧
  (∀ (b : Block),
    let open_ (x : SecId) := b.sup.secMask.getLsbD x.toNat = true ∧ ¬ (b.fenced x = true ∧ (b.sec x).req = false)
    ((∃ x, open_ x) → drainedPart b = false → partQuiesce b = b) ∧
    ((∀ x, ¬ open_ x) → (∀ x : SecId, b.sup.secMask.getLsbD x.toNat = true → (b.sec x).powered = false) → recovering b = false →
      partQuiesce b = unholdRings (setMode .service { b with sup := { b.sup with secMask := 0 } })))

/-- The power handshake of a section, its clearing and fences, and the sleep and wake of a cluster (R217, R254, R409,
R411, R413, R414, R426, R431, R432). -/
def Obligations.SectionsPowerFenceAndClustersSleep : Prop :=
  (∀ (s : State) (x : SecId),
    let b := s.blk
    let v := b.sec x
    let m := b.modSec x (fun v => { v with ack := true })
    (b.mode ≠ .off → v.ack = false → v.req = true → Does (.secPwrAckRise x) s ((m.modSec x (fun v => { v with
      powered := true, reqAt := none, clearing := true })).modUnit x.toNat (fun u => { u with act := u.ilv }))) ∧
    (b.mode ≠ .off → v.ack = false → v.req = false → Does (.secPwrAckRise x) s (detect (0x510 + x.toNat) 4 0 m)) ∧
    (b.mode = .off ∨ v.ack = true → Does (.secPwrAckRise x) s b)) ∧
  (∀ (s : State) (x : SecId),
    let b := s.blk
    let v := b.sec x
    let m := b.modSec x (fun v => { v with ack := false, powered := false, reqAt := none, clearing := false })
    let f := detect (0x510 + x.toNat) 1 0 m
    let cold := f.mode = .wake ∧ f.sup.before = none ∧ v.fenced = true
    (b.mode ≠ .off → v.ack = true → v.req = false → Does (.secPwrAckFall x) s m) ∧
    (b.mode ≠ .off → v.ack = true → v.req = true → cold →
      Does (.secPwrAckFall x) s (f.modSec x (fun v => { v with req := false }))) ∧
    (b.mode ≠ .off → v.ack = true → v.req = true → ¬ cold → Does (.secPwrAckFall x) s (fenceRecover x f)) ∧
    (b.mode = .off ∨ v.ack = false → Does (.secPwrAckFall x) s b)) ∧
  (∀ (s : State) (x : SecId),
    let b := s.blk
    let v := b.sec x
    let m := b.modSec x (fun v => { v with req := false, reqAt := none })
    (∀ t, v.reqAt = some t → t + 1000000 ≤ b.now → b.mode ≠ .off → v.ack ≠ v.req →
      Does (.secPwrAckTimeout x) s (detect (0x510 + x.toNat) 2 0 m)) ∧
    (v.reqAt = none ∨ v.ack = v.req → Does (.secPwrAckTimeout x) s b) ∧
    (b.mode = .wake → b.sup.before = none → v.req = true → v.ack = false → 9000 ≤ b.now →
      Does (.wakeAckTimeout x) s (detect (0x510 + x.toNat) 3 0 m)) ∧
    (b.mode ≠ .wake ∨ v.req = false ∨ v.ack = true ∨ b.now < 9000 → Does (.wakeAckTimeout x) s b)) ∧
  (∀ (s : State) (x : SecId),
    let b := s.blk
    let v := b.sec x
    let m := clearBanks x b
    let done := v.clearing = true ∧ v.powered = true ∧ b.sup.fuseDone = true
    (done → b.mode = .wake → b.sup.before = none →
      Does (.sectionClearEnd x) s (m.modSec x (fun v => { v with clearing := false, fenced := false }))) ∧
    (done → (b.mode ≠ .wake ∨ b.sup.before ≠ none) →
      Does (.sectionClearEnd x) s (m.modSec x (fun v => { v with clearing := false, rebuild := true }))) ∧
    (¬ done → Does (.sectionClearEnd x) s b)) ∧
  (∀ (x : SecId) (b : Block) (a : Nat),
    let m := clearBanks x b
    let inside := a / 0x800000 = x.toNat
    readByte m a = (if inside then 0 else readByte b a) ∧ (a / 8 ∈ m.poison → (8 * (a / 8)) / 0x800000 ≠ x.toNat) ∧
    (∀ l ∈ m.leases, l.unit ≠ x.toNat) ∧ (∀ l ∈ b.leases, l.unit ≠ x.toNat → l ∈ m.leases) ∧
    m = { b with mem := m.mem, poison := m.poison, wbs := m.wbs, leases := m.leases }) ∧
  (∀ (s : State) (x : SecId),
    let b := s.blk
    (∀ t, (b.sec x).fenceAt = some t → t ≤ b.now →
      Does (.sectionFence x) s (fenceRecover x (b.modSec x (fun v => { v with fenceAt := none })))) ∧
    ((b.sec x).fenceAt = none → Does (.sectionFence x) s b)) ∧
  (∀ (x : SecId) (b : Block),
    let enter := setMode .recover { b with sup := { b.sup with ret := b.mode, recoverAt := b.now, recoverSecs := 1 } }
    (b.fenced x = true → fenceRecover x b = b) ∧
    (b.fenced x = false → (b.mode = .service ∨ b.mode = .quiesce) → fenceRecover x b = fence x enter) ∧
    (b.fenced x = false → b.mode = .recover →
      fenceRecover x b = fence x { b with sup := { b.sup with recoverSecs := b.sup.recoverSecs + 1 } }) ∧
    (b.fenced x = false → b.mode ≠ .service → b.mode ≠ .quiesce → b.mode ≠ .recover → fenceRecover x b = fence x b)) ∧
  (∀ (s : State) (c : CluId),
    let b := s.blk
    let v := b.clu c
    let may := v.sleepCfg.getLsbD 0 = true ∧ v.asleep = false ∧ clusterIdle b c = true ∧ v.trigAt ≠ some b.now ∧
      b.fenced (cluSec c) = false ∧ b.mode ≠ .off ∧ b.paused_ c = false
    (∀ t, may → v.idleSince = some t → t + (v.sleepCfg.extractLsb' 16 16).toNat * 64 ≤ b.now →
      Does (.clusterSleep c) s (b.modClu c (fun v => { v with sleepAt := some b.now }))) ∧
    (¬ may ∨ v.idleSince = none → Does (.clusterSleep c) s b)) ∧
  (∀ (b : Block) (c : CluId), listedClus b = [c] →
    let v := b.clu c
    let m := (holdTimers c b).modClu c (fun v => { v with asleep := true, trigAt := none, sleepAt := none })
    (v.sleepAt ≠ some b.now → sleepDue b = b) ∧
    (v.sleepAt = some b.now → (v.trigAt = some b.now ∨ clusterIdle b c = false) →
      sleepDue b = b.modClu c (fun v => { v with sleepAt := none })) ∧
    (v.sleepAt = some b.now → v.trigAt ≠ some b.now → clusterIdle b c = true →
      sleepDue b = ([0, 1, 2, 3, 4, 5, 6, 7] : List (BitVec 3)).foldl (fun b i => wdReload (mkEng c i) b) m)) ∧
  (∀ (b : Block) (c : CluId), clusterIdle b c = true →
    (b.clu c).pmWait = 0 ∧ ∀ (i : BitVec 3) (k : CtxId),
      (b.eng (c ++ i)).rdyHi = [] ∧ (b.eng (c ++ i)).rdyLo = [] ∧ (b.eng (c ++ i)).tags = [] ∧ (b.eng (c ++ i)).div = none ∧
      let x := b.ctx (ctxNo (c ++ i) k)
      x.inj = none ∧ ((x.chan = none ∧ x.act = .idle) ∨ (∃ m, x.act = .yieldOn m) ∨
        ∃ n lq a, x.act = .wait n lq none a ∧ ¬ (28 ≤ n.toNat ∧ n.toNat ≤ 39))) ∧
  (∀ (s : State) (c : CluId) (edges : Nat),
    let b := s.blk
    let m := b.modClu c (fun v => { v with asleep := false, idleSince := none })
    let w := ([0, 1, 2, 3, 4, 5, 6, 7] : List (BitVec 3)).foldl (fun b i => wdReload (mkEng c i) b) m
    ((b.clu c).asleep = true → (b.clu c).trigAt ≠ none → Does (.clusterWake c edges) s
      (settleClu c ((List.range 40).foldl (fun b x => advance (slowTicks edges) true c x b) w))) ∧
    ((b.clu c).asleep = false ∨ (b.clu c).trigAt = none → Does (.clusterWake c edges) s b))

/-- Context, engine, cluster and section resets, their requests, and the engine watchdogs' kick and bite (R418, R421,
R422, R423, R424, R425, R434, R452, R453). -/
def Obligations.ResetsTakeTheirScopeInTheTickAfterTheRequest : Prop :=
  (∀ (key : BitVec 8), PortWrite (fun o => .instResetBlock o key) (.inst 0x10) (1 ||| key.setWidth 32 <<< 8) (fun _ b =>
    if key = 0xA5 then { b with sup := { b.sup with resetAt := some (b.sup.resetAt.getD (b.now + 1, 2)) } } else b)) ∧
  (∀ (mask : BitVec 8), PortWrite (fun o => .instResetSec o mask) (.inst 0x10) (mask.setWidth 32 <<< 16) (fun _ b =>
    ([0, 1, 2, 3, 4, 5, 6, 7] : List SecId).foldl (fun b x =>
      if mask.getLsbD x.toNat then b.modSec x (fun v => { v with resetAt := some (v.resetAt.getD (b.now + 1)) }) else b) b)) ∧
  (∀ (c : CluId), PortWrite (fun o => .cluReset o c) (.clu c 0x08) 1 (fun _ b =>
    b.modClu c (fun v => { v with resetAt := some (v.resetAt.getD (b.now + 1)) }))) ∧
  (∀ (s : State) (e : EngId) (k : CtxId),
    let b := s.blk
    (∀ t m, (b.eng e).ctxResetAt = some (t, m) → t ≤ b.now → m.getLsbD k.toNat = true →
      let r := b.modEng e (fun g => { g with
        ctxResetAt := if putBit m k.toNat false = 0 then none else some (t, putBit m k.toNat false) })
      Does (.contextReset e k) s (if b.fenced (secOf e) then r else (resetCtx 1 (ctxNo e k) r).cut (partCtx (ctxNo e k)))) ∧
    ((b.eng e).ctxResetAt = none → Does (.contextReset e k) s b)) ∧
  (∀ (s : State) (e : EngId),
    let b := s.blk
    (∀ t, (b.eng e).resetAt = some t → t ≤ b.now →
      Does (.engineReset e) s ((resetEngine 2 e (b.modEng e (fun g => { g with resetAt := none }))).cut (partEng e))) ∧
    ((b.eng e).resetAt = none → Does (.engineReset e) s b)) ∧
  (∀ (s : State) (c : CluId),
    let b := s.blk
    let out := goOut c (b.modClu c (fun v => { v with outAt := none }))
    (∀ t, (b.clu c).outAt = none → (b.clu c).resetAt = some t → t ≤ b.now →
      Does (.clusterReset c) s ((resetCluster 2 c b).cut (partClu c))) ∧
    ((b.clu c).outAt = none → (b.clu c).resetAt = none → Does (.clusterReset c) s b) ∧
    (∀ t, (b.clu c).outAt = some (t, false) → t ≤ b.now → Does (.clusterReset c) s out) ∧
    (∀ t, (b.clu c).outAt = some (t, true) → t ≤ b.now → (out.mode = .service ∨ out.mode = .quiesce) →
      Does (.clusterReset c) s (setMode .recover { out with sup := { out.sup with
        ret := out.mode, recoverAt := out.now, recoverSecs := 0 } })) ∧
    (∀ t, (b.clu c).outAt = some (t, true) → t ≤ b.now → out.mode ≠ .service → out.mode ≠ .quiesce →
      Does (.clusterReset c) s out)) ∧
  (∀ (c : CluId) (b : Block),
    let m := b.modClu c (fun v => { v with
      state := .out, repairs := [], pmWait := 0, pmRepair := false, stagedPm := [], outAt := none })
    ((b.clu c).state = .out → goOut c b = b) ∧
    ((b.clu c).state ≠ .out → goOut c b = queueEvent 2 [c.setWidth 8]
      (reassignWhere (fun ch => ch.extractLsb' 10 6 == c) ((resetCluster 2 c m).cut (partClu c))))) ∧
  (∀ (s : State) (x : SecId),
    let b := s.blk
    let m := b.modSec x (fun v => { v with resetAt := none })
    (∀ t, (b.sec x).resetAt = some t → t ≤ b.now →
      Does (.sectionReset x) s (if m.fenced x then m else (requeueParked x (resetSecParts 2 x m)).cut (partSec x))) ∧
    ((b.sec x).resetAt = none → Does (.sectionReset x) s b)) ∧
  (∀ (cause : Byte) (b : Block) (e : EngId) (k : CtxId),
    let t := resetCtx cause (ctxNo e k) b
    let g := t.eng e
    t.ctx (ctxNo e k) = {} ∧ (∀ l ∈ t.leases, l.owner ≠ ctxNo e k) ∧ (∀ j p, g.tag j = some p → p.k ≠ k) ∧
    (∀ d, g.div = some d → d.k ≠ k) ∧ (g.xb1.held = true → g.xb1.owner ≠ k) ∧ (g.xb2.held = true → g.xb2.owner ≠ k) ∧
    k ∉ g.waitq ∧ t.tick = b.tick ∧ t.now = b.now ∧ t.mode = b.mode ∧ t.cs = b.cs) ∧
  (∀ (cause : Byte) (e : EngId) (b : Block),
    let held := engineHeld b e = true ∨ (b.mode = .test ∧ (b.eng e).inReset = true)
    let m0 := trigger (cluOf e) (([0, 1, 2, 3, 4, 5, 6, 7, 8, 9, 10, 11, 12, 13, 14, 15] : List CtxId).foldl
      (fun b k => resetCtx cause (ctxNo e k) b) (landEngine e b))
    let m1 := m0.modEng e (fun g => resetEngState { g with tagGen := (b.eng e).tagGen })
    let m2 := ([0, 1, 2, 3] : List Nat).foldl (fun b k => b.modTimer (cluOf e) (8 + 4 * (engIn e).toNat + k) (fun _ => {})) m1
    let m3 := if m2.fenced (secOf e) then m2 else activateEngine e m2
    (held → resetEngine cause e b = m3) ∧
    (¬ held → resetEngine cause e b = wdReload e (m3.modEng e (fun g => { g with inReset := false })))) ∧
  (∀ (g : Eng),
    let t := resetEngState g
    t.ctxEn = g.ctxEn ∧ t.irqMask = g.irqMask ∧ t.evSel = g.evSel ∧ t.rdyHi = g.rdyHi ∧ t.rdyLo = g.rdyLo ∧ t.swapCnt = g.swapCnt ∧
    t.csConf = g.csConf ∧ t.xb1.stkBase = g.xb1.stkBase ∧ t.xb2.stkBase = g.xb2.stkBase ∧ t.xb1.held = false ∧
    t.xb2.held = false ∧ t.tags = [] ∧ t.afxQ = [] ∧ t.div = none ∧ t.waitq = [] ∧ t.inReset = true ∧ t.lbOn = false ∧
    t.resetAt = none ∧ t.ctxResetAt = none ∧ t.wdDeadline = none ∧
    ∀ j : BitVec 5, Map.get 0 t.tagGen j.toNat = Map.get 0 g.tagGen j.toNat + 1) ∧
  (∀ (cause : Byte) (c : CluId) (b : Block),
    let m := ([0, 1, 2, 3, 4, 5, 6, 7] : List (BitVec 3)).foldl (fun b i => resetEngine cause (mkEng c i) b) b
    resetCluster cause c b = { m with csRr := m.csRr.filter (fun x => x.1 / 16 != c.toNat) }.modClu c (fun v => { v with
      timers := [], wsel := [], wlo := [], lanes := { levels := v.lanes.levels }, bars := [], afxRr := 7
      pool := resetPool v.pool, aerr := {}, resetAt := none })) ∧
  (∀ (c : CluId) (d : Reg32), PortWrite (fun o => .cluWdkick o c d) (.clu c 0x10) d (fun o b =>
    if (o = .synCore ∨ ∃ e k, o = .ctx e k ∧ cluOf e = c) ∧ d.extractLsb' 16 16 = 0x4B49 then
      ([0, 1, 2, 3, 4, 5, 6, 7] : List (BitVec 3)).foldl (fun b i =>
        if d.getLsbD i.toNat then wdReload (mkEng c i) b else b) b
    else b)) ∧
  (∀ (e : EngId) (b : Block),
    let w := Map.get {} b.imp.wdogs e.toNat
    let g := b.eng e
    let v := b.clu (cluOf e)
    wdReload e b = b.modEng e (fun g => { g with
      wdDeadline := if wdRuns b e then some (b.now + 2 ^ max 10 w.per.toNat) else none }) ∧
    (wdRuns b e = true ↔ w.en = true ∧ g.inReset = false ∧ b.fenced (secOf e) = false ∧
      (v.state = .loaded ∨ v.state = .patching ∨ v.state = .repair) ∧ v.asleep = false ∧
      ¬ (g.halted = true ∧ b.imp.dbgFreeze = true))) ∧
  (∀ (s : State) (e : EngId),
    let b := s.blk
    let m := b.modEng e (fun g => { g with resetAt := some (b.now + 1), wdDeadline := none })
    (∀ t, wdRuns b e = true → (b.eng e).wdDeadline = some t → t ≤ b.now → b.mode ≠ .off → Does (.watchdogBite e) s
      (detect (0x200 + e.toNat) 1 0 { m with imp := { m.imp with bites := m.imp.bites.count b.now 1 } })) ∧
    (wdRuns b e = false ∨ (b.eng e).wdDeadline = none → Does (.watchdogBite e) s b))

/-- Detections hold and merge; records are processed in order, promoted, escalated, logged and reacted to; pulse,
windows, Syntax bite (R441, R442, R443, R444, R445, R446, R447, R448, R449, R450, R451, R454). -/
def Obligations.FaultCollectorHoldsOrdersLevelsAndReacts : Prop :=
  (∀ (b : Block) (n code : Nat) (info : BitVec 24), n < 2048 → code < 256 →
    let put (x : Slot) : Block := { b with imp := { b.imp with slots := Map.set none b.imp.slots n (some x) } }
    let k : Byte := BitVec.ofNat 8 code
    let sid : BitVec 11 := BitVec.ofNat 11 n
    (Map.get none b.imp.slots n = none →
      detect n code info b = { b with imp := { b.imp with
        slots := enterSlot n { stamp := b.tick, at_ := b.now, code := k, info := info } b.imp.slots } }) ∧
    (∀ x, Map.get none b.imp.slots n = some x → x.real = true → x.at_ ≤ b.now →
      let m := { x with mult := if x.mult = 255 then 255 else x.mult + 1, counts := x.counts + 1 }
      detect n code info b =
        put (if baseLevel sid x.code < baseLevel sid k then { m with code := k, info := info } else m))) ∧
  (∀ (i j : Nat) (x y : Slot),
    let o (n : Nat) := srcOrigin (BitVec.ofNat 11 n)
    ahead (i, x) (j, y) = true ↔ x.at_ < y.at_ ∨ (x.at_ = y.at_ ∧ (o i < o j ∨ (o i = o j ∧ i < j)))) ∧
  (∀ (n : Nat) (x : Slot) (m : Map (Option Slot)),
    let t := enterSlot n x m
    let before := m.filter (fun y => match y.2 with
      | some v => ahead (y.1, v) (n, x)
      | none => false)
    Map.get none t n = some { x with queue := before.length } ∧
    ∀ i, i ≠ n → Map.get none t i = (Map.get none m i).map (fun v =>
      if ahead (n, x) (i, v) then { v with queue := v.queue + 1 } else v)) ∧
  (∀ (s : State) (i : BitVec 11) (x : Slot),
    let b := s.blk
    let quiet := b.mode = .off ∨ b.now < x.at_ + 10 + 5 * x.queue ∨ ∃ t, b.imp.lastReact = some t ∧ b.now < t + 5
    (i.toNat, some x) ∈ b.imp.slots →
    (∀ p ∈ b.imp.slots, p.2 = none ∨ p = (i.toNat, some x) ∨ ∃ y, p.2 = some y ∧
      (x.at_ < y.at_ ∨ (x.at_ = y.at_ ∧ (srcOrigin i < srcOrigin (BitVec.ofNat 11 p.1) ∨
        (srcOrigin i = srcOrigin (BitVec.ofNat 11 p.1) ∧ i.toNat < p.1))))) →
    (quiet → Does .faultReaction s b) ∧
    (¬ quiet →
      let v := b.src i
      let k := srcClass i
      let w := 2 ^ (v.cfg.extractLsb' 8 5).toNat * 1000
      let n := (v.cfg.extractLsb' 0 8).toNat
      let fresh := v.count = 0 ∨ v.start + w ≤ x.at_
      let c := (if fresh then 0 else v.count) + x.counts
      let promo := x.counts ≠ 0 ∧ n ≠ 0 ∧ n ≤ c
      let base := slotBase i x
      let l := if promo then base + 1 else base
      let esc := 1 ≤ l ∧ b.imp.unack.on.getLsbD k = true ∧ (b.classCfg k).getLsbD 1 = true
      let lvl := min 3 (if esc then l + 1 else l)
      let young := v.young = true ∨ x.at_ < v.youngAt + w
      let v' := if x.counts = 0 then v
        else { v with start := if fresh then x.at_ else v.start, count := if promo then 0 else c }
      let m := { b with imp := { b.imp with
        slots := Map.set none b.imp.slots i.toNat none, lastReact := some b.now, srcs := Map.set {} b.imp.srcs i.toNat v' } }
      let r : LogRec := {
        stamp := x.stamp
        src := i.setWidth 16 ||| (if x.inj = true then 0x800 else 0) ||| (if x.inj = true ∧ x.real = true then 0x1000 else 0)
        code := x.code
        lvl := BitVec.ofNat 8 (lvl + 4 * base) ||| (if promo then 0x10 else 0) ||| (if esc then 0x20 else 0) |||
          (if young then 0x40 else 0)
        mult := x.mult
        info := x.info }
      let t := if lvl = 0 ∧ v.cfg.getLsbD 13 = true then m else logWrite r m
      Does .faultReaction s (if x.real = true ∨ x.injReact = true then react k lvl (srcPart i) t else t))) ∧
  (∀ (s : State), (∀ p ∈ s.blk.imp.slots, p.2 = none) → Does .faultReaction s s.blk) ∧
  (∀ (k lvl : Nat) (p : Part) (b : Block),
    let f := fencePart p b
    let m := { f with imp := { f.imp with
      unack := f.imp.unack.set f.now (BitVec.ofNat 16 (2 ^ k))
      pulse := some (match f.imp.pulse with
        | some x => (x.1, f.now + 1004)
        | none => (f.now + 4, f.now + 1004)) } }
    (lvl < 2 → react k lvl p b = b) ∧
    (lvl = 2 → react k lvl p b = m) ∧
    (lvl = 3 → (m.classCfg k).getLsbD 0 = true →
      react k lvl p b = { m with sup := { m.sup with stopAt := some (m.now + 1) } }) ∧
    (lvl = 3 → (m.classCfg k).getLsbD 0 = false → p = .none →
      react k lvl p b = { m with sup := { m.sup with resetAt := some (m.now + 1, 3) } }) ∧
    (lvl = 3 → (m.classCfg k).getLsbD 0 = false → p ≠ .none → react k lvl p b = m)) ∧
  (∀ (x : SecId) (c : CluId) (b : Block),
    (b.fenced x = true → fencePart (.section_ x) b = b) ∧
    (b.fenced x = false →
      fencePart (.section_ x) b = b.modSec x (fun v => { v with fenceAt := some (b.now + 1) })) ∧
    ((b.clu c).state = .out → fencePart (.cluster c) b = b) ∧
    ((b.clu c).state ≠ .out →
      fencePart (.cluster c) b = b.modClu c (fun v => { v with outAt := some (b.now + 1, true) })) ∧
    fencePart .none b = b) ∧
  (∀ (r : LogRec) (b : Block),
    let i := b.imp
    let put (b : Block) : Block := { b with imp := { b.imp with
      log := Map.set {} b.imp.log (b.imp.logged % 1024) { r with seq := BitVec.ofNat 16 b.imp.logged }
      logged := b.imp.logged + 1 } }
    let lostH (b : Block) : Block := detect 0x56B 1 0 { b with imp := { b.imp with
      rdH := b.imp.rdH + 1, lostH := b.imp.lostH.count b.now 1 } }
    let lostI (b : Block) : Block := detect 0x56B 1 1 { b with imp := { b.imp with
      rdI := b.imp.rdI + 1, lostI := b.imp.lostI.count b.now 1 } }
    (i.logged < i.rdH + 1024 → i.logged < i.rdI + 1024 → logWrite r b = put b) ∧
    (i.rdH + 1024 ≤ i.logged → i.logged < i.rdI + 1024 → logWrite r b = put (lostH b)) ∧
    (i.logged < i.rdH + 1024 → i.rdI + 1024 ≤ i.logged → logWrite r b = put (lostI b)) ∧
    (i.rdH + 1024 ≤ i.logged → i.rdI + 1024 ≤ i.logged → logWrite r b = put (lostI (lostH b)))) ∧
  (∀ (s : State),
    let b := s.blk
    (∀ x, b.imp.pulse = some x → x.2 ≤ b.now → Does .faultPinPulseEnd s { b with imp := { b.imp with
      pulse := none, pinWrite := none, pinHold := b.imp.pinLevel } }) ∧
    (∀ x, b.imp.pulse = some x → b.now < x.2 → Does .faultPinPulseEnd s b) ∧
    (b.imp.pulse = none → Does .faultPinPulseEnd s b)) ∧
  (∀ (b : Block), b.mode ≠ .off →
    (∀ x, b.imp.pulse = some x → x.1 < b.now → pinLow b = true) ∧
    (b.imp.pulse = none → b.imp.pinWrite = none → pinLow b = !(b.imp.pinHold)) ∧
    (∀ x, b.imp.pulse = none → b.imp.pinWrite = some x → pinLow b = !(if x.1 < b.now then x.2 else b.imp.pinHold))) ∧
  (∀ (s : State) (i : BitVec 11),
    let b := s.blk
    let v := b.src i
    let ripe := v.young = true ∧ v.youngAt + 2 ^ (v.cfg.extractLsb' 8 5).toNat * 1000 ≤ b.now ∧ b.mode ≠ .off
    (ripe → Does (.sourceWindowMature i) s { b with imp := { b.imp with
      srcs := Map.set {} b.imp.srcs i.toNat { v with young := false } } }) ∧
    (¬ ripe → Does (.sourceWindowMature i) s b)) ∧
  (∀ (s : State),
    let b := s.blk
    let i := b.imp
    let p := 2 ^ max 10 i.synPer.toNat
    (∀ t, i.synEn = true → i.synDeadline = some t → t ≤ b.now → b.mode ≠ .off →
      Does .syntaxWatchdogBite s (detect 0x565 1 0 { b with
        imp := { i with bites := i.bites.count b.now 1, synDeadline := some (b.now + p) }, syn := { b.syn with st := .failed } })) ∧
    (i.synEn = false ∨ i.synDeadline = none ∨ b.mode = .off → Does .syntaxWatchdogBite s b))

/-- Writes of IMP_ registers act from IREG and from no other origin; a pop of the log returns each port's oldest
unread record (R437, R438, R444, R448, R451, R455, R456, R457, R458, R460). -/
def Obligations.ImperativeRegistersAreWrittenByTheSafetyPortOnly : Prop :=
  (∀ (data : Reg32), PortWrite (fun o => .impInjGo o data) (.imp 0x20) (data ||| 0x80000000) (fun o b =>
    let i : BitVec 11 := data.extractLsb' 0 11
    let k : Byte := data.extractLsb' 12 8
    let m := { b with imp := { b.imp with inj := data &&& 0x003FF7FF, injErr := if data.getLsbD 30 then b.imp.injErr.clear b.now else b.imp.injErr } }
    if o ≠ .ireg then b
    else if (b.mode = .test ∨ (b.mode ≠ .off ∧ b.imp.testOpen = true)) ∧ codeListed i k = true then
      injectEvent i k b.imp.injInfo (data.getLsbD 20) (data.getLsbD 21) m
    else { m with imp := { m.imp with injErr := m.imp.injErr.set b.now } })) ∧
  (∀ (i : BitVec 11) (k : Byte) (info : BitVec 24) (react count : Bool) (b : Block),
    let n := if count = true then 1 else 0
    let put (x : Slot) : Block := { b with imp := { b.imp with slots := Map.set none b.imp.slots i.toNat (some x) } }
    (Map.get none b.imp.slots i.toNat = none → injectEvent i k info react count b = { b with imp := { b.imp with
      slots := enterSlot i.toNat { stamp := b.tick + 1, at_ := b.now + 1, code := k, info := info, inj := true, real := false, counts := n
                                   injCode := k, injReact := react } b.imp.slots } }) ∧
    (∀ x, Map.get none b.imp.slots i.toNat = some x → x.real = true → x.inj = false → injectEvent i k info react count b =
      put { x with mult := if x.mult = 255 then 255 else x.mult + 1, inj := true, counts := x.counts + n, injCode := k
                   injReact := x.injReact || react })) ∧
  PortWrite (fun o => .impModectlStop o) (.imp 0x2C) 1 (fun o b => if o ≠ .ireg then b else { b with
    imp := { b.imp with stopReq := true }, sup := { b.sup with stopAt := some (b.now + 1) } }) ∧
  (∀ (key : BitVec 8), PortWrite (fun o => .impModectlBreset o key) (.imp 0x2C) (2 ||| key.setWidth 32 <<< 8) (fun o b =>
    if o = .ireg ∧ key = 0xA5 then { b with sup := { b.sup with resetAt := some (b.now + 1, 3) } } else b)) ∧
  PortWrite (fun o => .impKeyctlRevoke o) (.imp 0x30) 2 (fun o b =>
    if o = .ireg then { b with imp := { b.imp with keyRevoked := true } } else b) ∧
  (∀ (data : Reg32), PortWrite (fun o => .impTestlockWrite o data) (.imp 0x28) data (fun o b =>
    if o = .ireg ∧ data.extractLsb' 8 8 = 0x5A then { b with imp := { b.imp with testOpen := data.getLsbD 0 } } else b)) ∧
  (∀ (i : BitVec 11) (data : Reg32), PortWrite (fun o => .impSrcCfgWrite o i data) (.imp (0x2000 + 4 * i.toNat)) data
    (fun o b =>
      let v : SrcState := { b.src i with cfg := data.extractLsb' 0 14, young := true, youngAt := b.now }
      if o = .ireg then { b with imp := { b.imp with srcs := Map.set {} b.imp.srcs i.toNat v } } else b)) ∧
  (∀ (level : Bool), PortWrite (fun o => .impPinWrite o level) (.imp 0x04) (if level then 1 else 0) (fun o b =>
    if o = .ireg then
      let now := match b.imp.pinWrite with
        | some x => if x.1 < b.now then x.2 else b.imp.pinHold
        | none => b.imp.pinHold
      { b with imp := { b.imp with pinLevel := level, pinHold := now, pinWrite := some (b.now + 4, level) } }
    else b)) ∧
  PortRead (fun o => .impLogPop o) (.imp 0x10)
    (fun o b =>
      let p := if o = .ireg then b.imp.rdI else b.imp.rdH
      if (o = .ireg ∨ o = .hreg ∨ o = .dap) ∧ p < b.imp.logged then BitVec.ofNat 32 (p % 1024) ||| 0x80000000 else 0)
    (fun o b =>
      if o = .ireg ∧ b.imp.rdI < b.imp.logged then { b with imp := { b.imp with rdI := b.imp.rdI + 1 } }
      else if (o = .hreg ∨ o = .dap) ∧ b.imp.rdH < b.imp.logged then { b with imp := { b.imp with rdH := b.imp.rdH + 1 } }
      else b)

/-- Halts, release, step, pool comparators, leases across a halt, the debug bus master and the perturbation seed
(R465, R466, R467, R469, R470, R472, R473, R475, R476, R477, R478, R481). -/
def Obligations.DebugHaltsStepsReleasesAndMasters : Prop :=
  (∀ (s : State) (e : EngId) (k : CtxId),
    let b := s.blk
    let n := ctxNo e k
    let c := b.ctx n
    let g := b.eng e
    let stops := mustHalt b n = true ∧ c.halt.halted = false ∧ c.chan ≠ none ∧ c.mchk = none ∧ g.inReset = false ∧
      g.dividing k = false ∧ c.act.boundary (midBit b n) = true
    let m (d : EngDebug) : Block := b.modEng e (fun g => { g with dbg := d })
    let t (d : EngDebug) : Block := holdLeases n ((abandon n (m d)).modCtx n (fun c => { c with
      halt := { c.halt with halted := true, request := none, stepping := false } }))
    (¬ stops → Does (.contextHalt e k) s b) ∧
    (stops → g.dbg.step = some k →
      Does (.contextHalt e k) s (t { g.dbg with step := none, cause := k.setWidth 12 ||| 0x040 })) ∧
    (∀ x, stops → g.dbg.step ≠ some k → c.halt.request = some x →
      Does (.contextHalt e k) s (t { g.dbg with cause := k.setWidth 12 ||| x.1.setWidth 12 <<< 4 ||| x.2.setWidth 12 <<< 7 })) ∧
    (stops → g.dbg.step ≠ some k → c.halt.request = none → Does (.contextHalt e k) s (t g.dbg))) ∧
  (∀ (n : CtxNo) (b : Block),
    (b.dbg.holdLease = false → holdLeases n b = b) ∧
    (b.dbg.holdLease = true → holdLeases n b = { b with leases := b.leases.map (fun l =>
      if l.owner = n ∧ l.heldSince = none then { l with heldSince := some b.now } else l) })) ∧
  (∀ (s : State) (e : EngId),
    let b := s.blk
    let g := b.eng e
    let free (k : CtxId) := (b.ctx (ctxNo e k)).halt.halted = true ∨
      ((b.ctx (ctxNo e k)).chan = none ∧ (b.ctx (ctxNo e k)).act = .idle)
    let done := g.dbg.haltReq = true ∧ g.halted = false ∧ g.inReset = false ∧ ∀ k, free k
    let m := freezeTimers e (b.modEng e (fun g => { g with halted := true }))
    (¬ done → Does (.haltComplete e) s b) ∧
    (done → b.imp.dbgFreeze = false → Does (.haltComplete e) s m) ∧
    (done → m.imp.dbgFreeze = true → b.imp.dbgFreeze = true → Does (.haltComplete e) s (wdReload e m))) ∧
  (∀ (s : State) (n : CtxNo),
    let b := s.blk
    let ripe (l : Lease) := l.owner = n ∧ ∃ t, l.heldSince = some t ∧ 1000000 ≤ l.held + (b.now - t)
    ((∀ l ∈ b.leases, ¬ ripe l) → Does (.holdLeaseEnd n) s b) ∧
    (∀ l, b.leases.filter (fun x => x.owner == n) = [l] → ripe l →
      let m := { b with leases := b.leases.filter (fun x => x.owner != n) }
      Does (.holdLeaseEnd n) s (detect (engOf n).toNat 0x23 ((ctxOf n).setWidth 24)
        ((m.modUnit l.unit (fun u => { u with expired := u.expired.count b.now 1 })).modFile n (b.ctx n).lvl
          (fun c => { c with stat := putBit c.stat 6 true }))))) ∧
  (∀ (e : EngId), PortWrite (fun o => .dbgHalt o e) (engDbg e 4) 1 (fun o b =>
    if o = .dap then haltContexts e 0xFFFF true b else b)) ∧
  (∀ (e : EngId) (mask : BitVec 16), mask ≠ 0 →
    PortWrite (fun o => .dbgChalt o e mask) (engDbg e 4) (mask.setWidth 32 <<< 16) (fun o b =>
      if o = .dap then haltContexts e mask false b else b)) ∧
  (∀ (e : EngId) (mask : BitVec 16) (whole : Bool) (b : Block),
    let named := (ctxsOf e).filter (fun n => mask.getLsbD (ctxOf n).toNat && haltable b n)
    let asked := named.foldl (fun b n =>
      if (b.ctx n).halt.halted || (b.ctx n).halt.request.isSome then b else askHalt n 1 0 b) b
    ((b.eng e).dbg.mode = 1 → haltContexts e mask whole b =
      if whole = true then asked.modEng e (fun g => { g with dbg := { g.dbg with haltReq := true } }) else asked) ∧
    ((b.eng e).dbg.mode = 2 → haltContexts e mask whole b = named.foldl (fun b n =>
      pendExc n { code := 0x0E, kind := 2, sub := 0x3F, fupc := (b.ctx n).upc, lvl := .prog } b) b) ∧
    ((b.eng e).dbg.mode = 0 ∨ (b.eng e).dbg.mode = 3 →
      haltContexts e mask whole b = b.modEng e (fun g => { g with dbg := { g.dbg with err := g.dbg.err.set b.now } }))) ∧
  (∀ (e : EngId), PortWrite (fun o => .dbgRelease o e) (engDbg e 4) 2 (fun o b => if o = .dap then dbgRelease e b else b)) ∧
  (∀ (e : EngId) (b : Block),
    let t := dbgRelease e b
    (t.eng e).halted = false ∧ (t.eng e).dbg.haltReq = false ∧ (t.eng e).dbg.step = none ∧
    ∀ k, (b.ctx (ctxNo e k)).halt.halted = true → (t.ctx (ctxNo e k)).halt = { skipCmp := true }) ∧
  (∀ (e : EngId) (k : CtxId),
    PortWrite (fun o => .dbgStep o e k) (engDbg e 4) (4 ||| k.setWidth 32 <<< 4) (fun o b =>
      let n := ctxNo e k
      let g := b.eng e
      if o ≠ .dap then b
      else if g.halted = true ∧ g.dbg.step = none ∧ (b.ctx n).halt.halted = true then
        ((releaseLeases n (activateEngine e b)).modCtx n (fun c => { c with halt := { stepping := true, skipCmp := true } })).modEng e
          (fun g => { g with dbg := { g.dbg with step := some k } })
      else b.modEng e (fun g => { g with dbg := { g.dbg with err := g.dbg.err.set b.now } }))) ∧
  (∀ (e : EngId), PortWrite (fun o => .dbgStepabort o e) (engDbg e 4) 8 (fun o b =>
    match (b.eng e).dbg.step with
    | some k => if o = .dap ∧ (b.ctx (ctxNo e k)).act.stepWaits = true then askHalt (ctxNo e k) 4 0 b else b
    | none => b)) ∧
  (∀ (c : CluId) (p : BitVec 4) (data : Reg32),
    PortWrite (fun o => .dbgPcmpAlloc o c p data) (.clu c (0x1200 + 16 * p.toNat)) data (fun o b =>
      let v := b.clu c
      let old := Map.get {} v.pool p.toNat
      let own : BitVec 3 := data.extractLsb' 11 3
      let lands := data.getLsbD 14 = false ∨ (old.ctl.getLsbD 0 = false ∧
        (poolOwned v own < 6 ∨ (old.owned = true ∧ old.owner = own)))
      let new : Cmp := { old with ctl := data &&& 0xFFFF07FF, owned := data.getLsbD 14, owner := own }
      if o ≠ .dap then b
      else if lands then b.modClu c (fun v => { v with pool := Map.set {} v.pool p.toNat new })
      else b.modClu c (fun v => { v with aerr := v.aerr.set b.now }))) ∧
  (∀ (s : State) (write : Bool) (data : Reg32),
    let b := s.blk
    let d := b.dbg
    let n := if d.mctl.extractLsb' 12 2 = 0 then 1 else if d.mctl.extractLsb' 12 2 = 1 then 2 else 4
    let m := { b with dbg := { d with
      bus := some { write := write, addr := d.maddr, size := n, data := if write then data else 0, at_ := b.now }
      mdata := if write then data else d.mdata } }
    let inside := areaOf d.maddr.toNat n = .main ∨ areaOf d.maddr.toNat n = .dpr
    let ahead := (b.held.filter (fun x => x.org == .dap)).length + (if d.bus = none then 0 else 1)
    (b.mode = .off ∨ 8 ≤ ahead → Does (.dbgMdata .dap write data) s b) ∧
    (b.mode ≠ .off → 0 < ahead → ahead < 8 → Does (.dbgMdata .dap write data) s { b with held := b.held ++
      [{ org := .dap, bad := false, win := .inst 0xA10, acc := if write then .write data else .read }] }) ∧
    (b.mode ≠ .off → ahead = 0 → d.fuseEn = false →
      Does (.dbgMdata .dap write data) s { b with rsp := Map.set none b.rsp 1 (some (0, true)) }) ∧
    (b.mode ≠ .off → ahead = 0 → d.fuseEn = true → inside → Does (.dbgMdata .dap write data) s m) ∧
    (b.mode ≠ .off → ahead = 0 → d.fuseEn = true → ¬ inside →
      Does (.dbgMdata .dap write data) s (busEnd 1 0 m))) ∧
  (∀ (b : Block) (err : BitVec 3) (v : Reg32) (x : BusAccess), b.dbg.bus = some x →
    let d := b.dbg
    busEnd err v b = { b with
      dbg := { d with
        bus := none, merr := err, sticky := if err = 0 then d.sticky else d.sticky.set b.now, mdata := if x.write then d.mdata else v
        maddr := if d.mctl.getLsbD 14 then
          d.maddr + BitVec.ofNat 48 (if d.mctl.extractLsb' 12 2 = 0 then 1 else if d.mctl.extractLsb' 12 2 = 1 then 2 else 4)
          else d.maddr }
      rsp := Map.set none b.rsp 1 (some (v, false)) }) ∧
  (∀ (s : State) (ecc : Ecc),
    let b := s.blk
    (b.dbg.bus = none → Does (.debugBusAccessDone ecc) s b ∧ Does .debugBusTimeout s b) ∧
    (∀ x, b.dbg.bus = some x →
      let a := x.addr.toNat
      let t := b.dbg.mctl.extractLsb' 0 12
      let lines := if x.write then mergeLines false a x.size else linesOf a x.size
      let m0 := arrive b t (!x.write) x.write a x.size lines ecc
      let m := if inFenced b a x.size = true then m0 else memPerturb a m0
      let rd := touch true false a x.size m
      let r := bankCheck m t (!x.write) x.write a x.size
      (x.at_ + 655360 ≤ b.now → Does .debugBusTimeout s (busEnd 5 0 b)) ∧
      (b.now < x.at_ + 655360 → Does .debugBusTimeout s b) ∧
      (r = .pass → x.write = true → Does (.debugBusAccessDone ecc) s
        (busEnd 0 0 (spineWrite a (bytesOf x.size x.data) m))) ∧
      (r = .pass → x.write = false →
        Does (.debugBusAccessDone ecc) s (busEnd 0 (ofBytes 32 (readBytes rd a x.size)) rd)) ∧
      (r = .region → Does (.debugBusAccessDone ecc) s (busEnd 3 0 m)) ∧
      (r = .bus → Does (.debugBusAccessDone ecc) s (busEnd 2 0 m)) ∧
      (r = .memue → Does (.debugBusAccessDone ecc) s (busEnd 4 0 m)))) ∧
  (∀ (seed : Reg32), PortWrite (fun o => .perturbSeedWrite o seed) (.inst 0xB04) seed (fun o b =>
    if o = .dap ∨ o = .hreg then { b with dbg := { b.dbg with pSeed := seed, lfsr := if seed = 0 then 1 else seed } } else b))

/-- FRAME, LINE, UNDERRUN, CLONE and bad messages; the outbound queue; shadow writes, line actions, commits, the
protected layer (R485, R486, R487, R489, R490, R491, R492, R493, R495, R496, R497). -/
def Obligations.RasterHeadsTakeStrobesAndSendShadowsAndCommits : Prop :=
  (∀ (s : State) (m : BitVec 64),
    let b := s.blk
    let h : HeadNo := m.extractLsb' 4 8
    let kind : BitVec 4 := m.extractLsb' 0 4
    let good := m.extractLsb' 28 36 = 0
    let live := b.mode ≠ .off ∧ good ∧ (b.head h).en = true
    let x := b.head h
    (¬ (live ∧ kind = 1) → Does (.frame m) s b) ∧
    (¬ (live ∧ kind = 2) → Does (.line m) s b) ∧
    (live → kind = 1 →
      let c1 := { b.modHead h (frameStats b.tick b.free) with free := b.free + 4 }
      let c2 := raiseN (0x200 + h.toNat) c1
      let c3 : Block := match x.chan with
        | some ch => raise (.chan 4 ch) c2
        | none => c2
      (x.frames < 2 → Does (.frame m) s (forwardLatches h c3)) ∧
      (2 ≤ x.frames → unexpected x (c3.head h) = true → Does (.frame m) s (forwardLatches h (discont h c3))) ∧
      (2 ≤ x.frames → unexpected x (c3.head h) = false →
        Does (.frame m) s (forwardLatches h (c3.modHead h cleanFrame)))) ∧
    (live → kind = 2 →
      let n : BitVec 16 := m.extractLsb' 12 16
      let acts := x.laq.filter (fun a => a.line == n)
      let c1 := b.modHead h (fun x => { x with
        line := n, lcount := x.lcount + 1, l0 := if n = 0 then some b.tick else x.l0, lstamp := b.tick
        laq := x.laq.filter (fun a => a.line != n) })
      let send (c : Block) : Block := acts.foldl (fun c a => sendShadow h c.tick c.now a.msg c) c
      (∀ ch, x.chan = some ch → n = x.lcmp → n ≠ 0xFFFF → Does (.line m) s (send (raise (.chan 5 ch) c1))) ∧
      (x.chan = none ∨ n ≠ x.lcmp ∨ n = 0xFFFF → Does (.line m) s (send c1)))) ∧
  (∀ (t : Tick) (k : Nat) (h : Head),
    let u := frameStats t k h
    u.frame = h.frame + 1 ∧ u.fstamp = t ∧ u.lcount = 0 ∧ u.l0 = none ∧ u.latch = h.latch ∧ u.laq = h.laq ∧
    (h.frames = 0 → u.fper = h.fper ∧ u.lines = h.lines ∧ u.frames = 1) ∧
    (∀ l0, h.frames ≠ 0 → h.l0 = some l0 → (t - h.fstamp).toNat < 2 ^ 32 → (l0 - h.fstamp).toNat < 2 ^ 32 →
      h.lcount < 65536 → u.fper = BitVec.ofNat 32 (t - h.fstamp).toNat ∧ u.lines = BitVec.ofNat 16 h.lcount ∧
      u.l0ofs = BitVec.ofNat 32 (l0 - h.fstamp).toNat ∧
      (h.lcount < 2 → u.lper16 = 0) ∧
      (2 ≤ h.lcount → (h.lstamp - l0).toNat * 16 / (h.lcount - 1) < 2 ^ 32 →
        u.lper16 = BitVec.ofNat 32 ((h.lstamp - l0).toNat * 16 / (h.lcount - 1))))) ∧
  (∀ (old new : Head), unexpected old new = true ↔ new.tol ≠ 0xFFFFF ∧
    (new.tol.toNat < ((new.fper.toNat : Int) - old.fper.toNat).natAbs ∨ new.lines ≠ old.lines)) ∧
  (∀ (h : HeadNo) (b : Block),
    let x := b.head h
    let one : BitVec 16 := BitVec.ofNat 16 (2 ^ x.plLayer.toNat)
    let put (lmask : BitVec 16) (prot : Bool) (c : Block) : Block :=
      rcomEnqueue b.tick b.now false (commitMsg h lmask (x.frame.extractLsb' 0 16) prot) c
    let ord (c : Block) : Block := put (if x.plEn = true then ~~~one else 0xFFFF) false
      (c.modHead h (fun x => { x with latch := false }))
    let pl (c : Block) : Block := put one true (c.modHead h (fun x => { x with plLatch := false, plCnt := x.plCnt.count b.now 1 }))
    (x.hold = true → forwardLatches h b = b) ∧
    (x.hold = false → x.latch = true → x.plEn = true → x.plLatch = true → forwardLatches h b = pl (ord b)) ∧
    (x.hold = false → x.latch = true → x.plEn = false ∨ x.plLatch = false → forwardLatches h b = ord b) ∧
    (x.hold = false → x.latch = false → x.plEn = true → x.plLatch = true → forwardLatches h b = pl b) ∧
    (x.hold = false → x.latch = false → x.plEn = false ∨ x.plLatch = false → forwardLatches h b = b)) ∧
  (∀ (s : State) (m : BitVec 64),
    let b := s.blk
    let h : HeadNo := m.extractLsb' 4 8
    let kind : BitVec 4 := m.extractLsb' 0 4
    let good := m.extractLsb' 28 36 = 0
    let arg : BitVec 16 := m.extractLsb' 12 16
    let u := b.mode ≠ .off ∧ good ∧ kind = 3 ∧ arg ≠ (b.head h).underrun
    let c := b.mode ≠ .off ∧ good ∧ kind = 4 ∧ arg.extractLsb' 0 9 ≠ (b.head h).clone
    let bad := b.mode ≠ .off ∧ ¬ (good ∧ 1 ≤ kind.toNat ∧ kind.toNat ≤ 4)
    (u → Does (.underrun m) s (detect (0x700 + h.toNat) 1 (arg.setWidth 24)
      (b.modHead h (fun x => { x with underrun := arg })))) ∧
    (¬ u → Does (.underrun m) s b) ∧
    (c → Does (.clone m) s (detect (0x700 + h.toNat) 3 ((arg.extractLsb' 0 9).setWidth 24)
      (b.modHead h (fun x => { x with clone := arg.extractLsb' 0 9 })))) ∧
    (¬ c → Does (.clone m) s b) ∧
    (bad → Does (.rstevBadmsg m) s (detect (0x700 + h.toNat) 6 (kind.setWidth 24) b)) ∧
    (¬ bad → Does (.rstevBadmsg m) s b)) ∧
  (∀ (s : State),
    let b := s.blk
    (b.ras.rcom = [] → Does .rcomSend s b) ∧
    ∀ m rest, b.ras.rcom = m :: rest →
      (b.mode = .off ∨ b.now < m.at_ + 8 ∨ b.ras.sentAt = some b.now → Does .rcomSend s b) ∧
      (b.mode ≠ .off → b.ras.sentAt ≠ some b.now → b.now = m.at_ + 8 → Does .rcomSend s { b with
        ras := { b.ras with rcom := rest, sentAt := some b.now, sent := some m.msg } }) ∧
      (b.mode ≠ .off → b.ras.sentAt ≠ some b.now → m.at_ + 8 < b.now → Does .rcomSend s { b with
        ras := { b.ras with rcom := rest, sentAt := some b.now, sent := some (m.msg ||| 1 <<< 81) } })) ∧
  (∀ (h : HeadNo) (data : Reg32), PortWrite (fun o => .headShwHi o h data) (.head h 0x48) data (fun o b =>
    let x := b.head h
    let adr := Map.get 0 (b.orgRegs (orgKey o)).shwAddr h.toNat
    let index : BitVec 12 := adr.extractLsb' 0 12
    let layer : BitVec 4 := adr.extractLsb' 12 4
    let v : BitVec 48 := data.extractLsb' 0 16 ++ Map.get 0 (b.orgRegs (orgKey o)).shwLo h.toNat
    let m := shadowMsg h layer index v false
    let info : BitVec 24 := index.setWidth 24 ||| layer.setWidth 24 <<< 12
    let full : Block := detect (0x700 + h.toNat) 4 info (b.modHead h (fun x => { x with ovf := x.ovf.set b.now }))
    if headMay b o h = false then b.modHead h (fun x => { x with foreign := x.foreign.set b.now })
    else if x.plEn = true ∧ layer = x.plLayer then
      detect (0x700 + h.toNat) 5 info (b.modHead h (fun x => { x with pviol := x.pviol.set b.now }))
    else if data.getLsbD 31 = true then
      if 16 ≤ x.laq.length then full
      else b.modHead h (fun x => { x with laq := x.laq ++ [{ line := adr.extractLsb' 16 16, msg := m }] })
    else if 256 ≤ (b.ras.rcom.filter (fun x => x.shadow)).length then full
    else rcomEnqueue b.tick b.now true m b)) ∧
  (∀ (h : HeadNo), PortWrite (fun o => .headCommit o h) (.head h 0x3C) 1 (fun o b =>
    if headMay b o h = true then b.modHead h (fun x => { x with latch := true })
    else b.modHead h (fun x => { x with foreign := x.foreign.set b.now }))) ∧
  (∀ (b : Block) (o : Origin) (h : HeadNo),
    headMay b o h = false ↔ ∃ e k, o = .ctx e k ∧
      ((b.ctx (ctxNo e k)).chan = none ∨ (b.ctx (ctxNo e k)).chan ≠ (b.head h).chan)) ∧
  (∀ (h : HeadNo) (data : BitVec 16),
    PortWrite (fun o => .impPlDataHi o h data) (plWin h 0x0C) (data.setWidth 32) (fun o b =>
      let c := b.modHead h (fun x => { x with plData := data ++ x.plData.extractLsb' 0 32 })
      let x := c.head h
      if o ≠ .ireg then b
      else if x.plEn = true then sendShadow h (c.tick + 1) (c.now + 1) (shadowMsg h x.plLayer x.plAddr x.plData true) c
      else c)) ∧
  (∀ (h : HeadNo), PortWrite (fun o => .impPlCommit o h) (plWin h 0x10) 1 (fun o b =>
    if o = .ireg then b.modHead h (fun x => { x with plLatch := x.plLatch || x.plEn }) else b)) ∧
  (∀ (h : HeadNo) (b : Block),
    let x := b.head h
    discont h b = detect (0x700 + h.toNat) 2 (if x.fper.toNat < 2 ^ 24 then x.fper.setWidth 24 else 0xFFFFFF)
      (b.modHead h (fun x => { x with
        discont := x.discont.set b.now, clean := 0, hold := true, ladrop := if x.laq = [] then x.ladrop else x.ladrop.set b.now, laq := [] }))) ∧
  (∀ (x : Head),
    (x.clean = 0 → cleanFrame x = { x with clean := 1 }) ∧
    (x.clean = 1 → cleanFrame x = { x with clean := 2, hold := false })) ∧
  (∀ (m : RcomMsg) (l : List RcomMsg), l.Pairwise (fun x y => x.at_ ≤ y.at_) →
    (rcomInsert m l).Pairwise (fun x y => x.at_ ≤ y.at_) ∧ (rcomInsert m l).Perm (m :: l))

/-- Each TAP instruction selects its data register; EXTEST, CLAMP, HIGHZ and SCAN act as BYPASS outside TEST (R464,
R463). -/
def Obligations.TapInstructionsCaptureAndOutsideTestActAsBypass : Prop :=
  (∀ (s : State),
    let b := s.blk
    let put (i : TapIr) (dr : Reg32) : Block := { b with dbg := { b.dbg with tap := i, tapDr := dr } }
    let sampled (i : TapIr) : Block := { b with dbg := { b.dbg with tap := i, tapDr := 0, cells := sampleCells b } }
    (b.mode = .test → Does .extest s (sampled .extest) ∧ Does .clamp s (put .clamp 0) ∧ Does .highz s (put .highz 0) ∧
      Does .tapScan s (put .scan 0)) ∧
    (b.mode ≠ .test → Does .extest s (put .bypass 0) ∧ Does .clamp s (put .bypass 0) ∧ Does .highz s (put .bypass 0) ∧
      Does .tapScan s (put .bypass 0)) ∧
    Does .samplePreload s (sampled .sample) ∧
    Does .idcode s (put .idcode (0x35052001 ||| b.dbg.mfr.setWidth 32 <<< 1)) ∧
    Does .bypass s (put .bypass 0) ∧ Does .tapReset s (put .bypass 0)) ∧
  (∀ (b : Block) (c : CluId),
    let l := (b.clu c).lanes
    let cells := sampleCells b
    cells.length = 132 ∧
    (b.mode ≠ .test ∨ b.dbg.tap ≠ .highz →
      nth 0 cells c.toNat = l.out.setWidth 32 ||| l.oen.setWidth 32 <<< 16) ∧
    (b.mode = .test → b.dbg.tap = .highz → nth 0 cells c.toNat = l.out.setWidth 32) ∧
    nth 0 cells (64 + c.toNat) = l.levels.setWidth 32 ∧
    nth 0 cells 128 = b.fab.evtIn ∧ nth 0 cells 129 = b.fab.pins ∧
    nth 0 cells 131 = if pinLow b = true then 0 else 1)

/-- A step with a command at the front of the queue is that command's meaning on the state with the queue's rest (R24,
R392). -/
def Obligations.AStepRunsTheFrontCommand : Prop :=
  ∀ (s : State) (c : Instr) (rest : List Instr), s.pending = c :: rest → step s = exec c { s with pending := rest }

/-- With no command waiting a step is one tick: TICK_NOW counts, steps, skips or holds; memory, engines and mode stay
(R20, R22, R192, R194, R207, R222, R368, R454). -/
def Obligations.AnIdleStepIsOneTickOfTheFabricClock : Prop :=
  (∀ (s : State), s.pending = [] → s.blk.mode = .off → step s = .next { s with turn := 0 }) ∧
  (∀ (s : State), let b := discipline (endTick s.blk)
    s.pending = [] → s.blk.mode ≠ .off → ∃ t, step s = .next { s with turn := 0, blk := t } ∧
    t.now = b.now + 1 ∧
    (∀ x, b.fed.load = some x → t.tick = x ∧ t.fed.adjust = b.fed.adjust) ∧
    (b.fed.load = none → b.fed.adjust = 0 → t.tick = b.tick + 1 ∧ t.fed.adjust = 0) ∧
    (b.fed.load = none → 0 < b.fed.adjust → t.tick = b.tick + 2 ∧ t.fed.adjust = b.fed.adjust - 1) ∧
    (b.fed.load = none → b.fed.adjust < 0 → t.tick = b.tick ∧ t.fed.adjust = b.fed.adjust + 1) ∧
    t.fed.load = none ∧ t.mode = b.mode ∧ t.ctxs = b.ctxs ∧ t.engs = b.engs ∧ t.cs = b.cs ∧ t.mem = b.mem ∧
    t.poison = b.poison ∧ t.leases = b.leases ∧ t.dma = b.dma ∧ t.con = b.con ∧ t.ras = b.ras ∧ t.gone = [] ∧ t.touched = [] ∧
    t.fab.drives = [] ∧ t.fab.fixes = b.fab.fixes ∧ t.fed.corr = 0 ∧ t.fab.era = b.fab.era + (if b.fed.load = none then 0 else 1) ∧ t.fab.pins = b.fab.drives.foldl (fun p x => putBit p x.1.toNat x.2) b.fab.pins ∧
    (b.syn.st = .failed → t.syn.queue = [] ∧ t.syn.run = none ∧ t.syn.st = if b.mode = .wake then .boot else .ready)) ∧
  (∀ (b : Block), endTick b = sleepDue (deliverDue (landHeld (rangeCorrections b)))) ∧
  (∀ (b : Block) (c : CluId) (x w : Nat), b.fab.fixes = [(c, x, w)] →
    let t := rangeCorrections b
    let v := b.timer c x
    (b.now ≤ w → t = b) ∧ (w < b.now → t.fab.fixes = [] ∧
      (v.count.toNat ≤ v.rld.toNat → t.timer c x = v) ∧
      (v.rld.toNat < v.count.toNat → (v.updown = false ∨ b.forced = true) →
        (t.timer c x).count = 0 ∧ (t.timer c x).wrap.on = true) ∧
      (v.rld.toNat < v.count.toNat → v.updown = true → b.forced = false →
        (t.timer c x).count = v.count ∧ (t.timer c x).down = true))) ∧
  (∀ (b : Block), (b.held = [] → landHeld b = b) ∧
    (∀ w a l, b.mode ≠ .off → b.held = { org := .hreg, bad := false, win := w, acc := a } :: l →
      landHeld b = l.foldl (fun b x => portRequest x b) (landAnswer .hreg false w a { b with held := [] })) ∧
    (∀ x, b.mode ≠ .off → x ∈ b.held → x.org = .hreg → (b.held.filter (fun y => y.org == .hreg)).length < 4 →
      portRequest x b = { b with held := b.held ++ [x] })) ∧
  (∀ (b : Block), deliverDue b =
    Nat.repeat opConditionEvent (b.fab.queue.filter (fun x => decide (x.at_ + 6 ≤ b.now))).length b)

/-- The reset state is OFF, with the register values that the spec's register tables give for a cold reset (R192,
R202, R74, R256, R350, R383, R385, R434, R435, R460, R483, R500). -/
def Obligations.ResetLeavesTheStatedValues : Prop :=
  let b := State.reset.blk
  State.reset.pending = [] ∧ b.mode = .off ∧ b.tick = 0 ∧ b.leases = [] ∧ b.poison = [] ∧
  (∀ s : SecId, b.fenced s = true ∧ (b.sec s).powered = false ∧ (b.sec s).req = false) ∧
  (∀ c : CluId, (b.clu c).state = .empty ∧ (b.clu c).asleep = false) ∧
  (∀ e : EngId, (b.eng e).inReset = true ∧ (b.eng e).ctxEn = 0 ∧ (b.eng e).tags = []) ∧
  (∀ n : CtxNo, ctxState (b.ctx n) = 0 ∧ (b.ctx n).upc = 0 ∧ (b.ctx n).stat = 0 ∧ (b.ctx n).latch.on = 0) ∧
  (∀ (c : CluId) (x : Nat), (b.timer c x).count = 0 ∧ (b.timer c x).cmp = 0 ∧ (b.timer c x).rld = 0xFFFFFFFFFFFF) ∧
  (∀ p ∈ ([(.inst 0x00, 0x4B575052), (.inst 0x04, 0x00030001), (.inst 0x0C, 0x000000FF), (.inst 0x14, 0),
      (.inst 0x200, 0x3E80), (.inst 0x81C, 0x20002000), (.inst 0xA0C, 0x2000), (.inst 0xB04, 1), (.fed 0x04, 0x08202000),
      (.syn 0x08, 0x48), (.imp 0x00, 0x1000), (.imp 0x04, 1), (.imp 0x08, 0), (.imp 0x18, 0x1803)] : List (Win × Reg32)),
    nativeRead b .hreg p.1 = p.2) ∧
  (∀ n, n < 32 → nativeRead b .hreg (.inst (0x100 + 4 * n)) = 0x3FF) ∧
  (∀ (s : SecId), nativeRead b .hreg (.sec s 0x48) = 0x3E80 ∧ nativeRead b .hreg (.sec s 0x50) = 0x0E ∧
    nativeRead b .hreg (.sec s 0x68) = 0x0D) ∧
  (∀ (e : EngId) (k : Nat), k < 8 → nativeRead b .hreg (.eng e (0x40 + 4 * k)) = 0x03FF03FF) ∧
  (∀ (c : CluId) (i k : Nat), i < 8 → k < 2 →
    nativeRead b .hreg (.clu c (0x1020 + 0x40 * i + 0x10 * k)) = 0xFFFF0000) ∧
  (∀ (c : CluId), nativeRead b .hreg (.clu c 0x0C) = 0x00400000 ∧ nativeRead b .hreg (.clu c 0x400) = 0) ∧
  (∀ (h : BitVec 8), nativeRead b .hreg (.head h 0x00) = 0x7D0 ∧ nativeRead b .hreg (.head h 0x04) = 1 ∧
    nativeRead b .hreg (.head h 0x30) = 0xFFFF ∧ nativeRead b .hreg (plWin h 0) = 0x1E) ∧
  (∀ k, k < 16 → nativeRead b .hreg (.imp (0x40 + 4 * k)) = 2) ∧
  (∀ e, e < 512 → nativeRead b .hreg (.imp (0x800 + 4 * e)) = 0x36) ∧
  (∀ i, i < 2048 → nativeRead b .hreg (.imp (0x2000 + 4 * i)) = 0x0A10 ∧
    nativeRead b .hreg (.imp (0x4000 + 4 * i)) = 0x100) ∧
  (∀ p, p < 4 → nativeRead b .hreg (.fed (0x20 + 4 * p)) = 0)

/-- Every command in every state answers a next state and keeps the queue; one that is late acts in the next tick, one
of a part gone not at all (R12, R24, R25, R27, R28, R395, R419). -/
def Obligations.EveryCommandCompletesAndKeepsTheQueue : Prop :=
  (∀ (c : Instr) (s : State), ∃ t, exec c s = .next t ∧ t.pending = s.pending) ∧
  (∀ (c : Instr) (s : State), isLate (turnOf c s.blk) s.turn = true →
    exec c s = exec c { s with turn := 0, blk := tick s.blk }) ∧
  (∀ (c : Instr) (s : State), isLate (turnOf c s.blk) s.turn = false → discarded (turnOf c s.blk) s.blk = true →
    exec c s = .next { s with turn := turnAfter c s, blk := corrected (turnOf c s.blk) s.blk }) ∧
  (∀ (t : Turn) (b : Block), fixesDue b = [] → corrected t b = b) ∧
  (∀ (c : Instr) (s : State), Gives c s (fun _ => True)) ∧
  (∀ (c : Instr) (s : State), s.turn = 0 → isLate (turnOf c s.blk) s.turn = false) ∧
  (∀ (p q : Piece) (b : Block), (b.cut p).isGone q = true ↔ b.isGone q = true ∨ (p.1 ≤ q.1 ∧ q.1 + q.2 ≤ p.1 + p.2))

/-- Every step keeps memory in its canonical form, so that equal contents are equal data (R231, R254, R318, R424,
R477). -/
def Obligations.EveryStepKeepsMemoryCanonical : Prop :=
  ∀ (s t : State), Map.wf (fun _ => 0) s.blk.mem = true → step s = .next t → Map.wf (fun _ => 0) t.blk.mem = true

/-- Memory at reset is in canonical form and every byte of it reads 0 (R254, R426). -/
def Obligations.ResetMemoryIsCanonical : Prop :=
  Map.wf (fun _ => 0) State.reset.blk.mem = true ∧ ∀ (a n : Nat), readBytes State.reset.blk a n = List.replicate n 0

/-- A microword's fields lie where the table puts them, encode and decode agree, and its parity makes every slice even
(R77, R78). -/
def Obligations.MicrowordsEncodeAndDecodeWithParity : Prop :=
  (∀ f : MFields, f.word.fields = f) ∧
  (∀ w : MWord, w.fields.word = w) ∧
  (∀ (f : MFields) (i : Nat),
    (i < 4 → f.word.getLsbD (156 + i) = f.csel.getLsbD i) ∧
    f.word.getLsbD 155 = f.cpol ∧
    (i < 4 → f.word.getLsbD (151 + i) = f.seq.getLsbD i) ∧
    (i < 14 → f.word.getLsbD (137 + i) = f.target.getLsbD i) ∧
    (i < 7 → f.word.getLsbD (130 + i) = f.aluop.getLsbD i) ∧
    (i < 6 → f.word.getLsbD (124 + i) = f.dst.getLsbD i) ∧
    (i < 6 → f.word.getLsbD (118 + i) = f.srca.getLsbD i) ∧
    (i < 6 → f.word.getLsbD (112 + i) = f.srcb.getLsbD i) ∧
    (i < 6 → f.word.getLsbD (106 + i) = f.memop.getLsbD i) ∧
    (i < 4 → f.word.getLsbD (102 + i) = f.mbase.getLsbD i) ∧
    (i < 3 → f.word.getLsbD (99 + i) = f.mmode.getLsbD i) ∧
    (i < 5 → f.word.getLsbD (94 + i) = f.mtag.getLsbD i) ∧
    (i < 5 → f.word.getLsbD (89 + i) = f.laneop.getLsbD i) ∧
    (i < 4 → f.word.getLsbD (85 + i) = f.lq.getLsbD i) ∧
    (i < 6 → f.word.getLsbD (79 + i) = f.xfer.getLsbD i) ∧
    f.word.getLsbD 78 = f.setf ∧
    (i < 6 → f.word.getLsbD (72 + i) = f.wsel.getLsbD i) ∧
    (i < 8 → f.word.getLsbD (64 + i) = f.aux8.getLsbD i) ∧
    (i < 16 → f.word.getLsbD (48 + i) = f.disp16.getLsbD i) ∧
    (i < 48 → f.word.getLsbD i = f.imm48.getLsbD i)) ∧
  (∀ (w : MWord) (k : Nat), k < 10 →
    let ones := ((List.range 16).filter (fun j => w.getLsbD (16 * k + j))).length
    (ones + if (stored w).getLsbD (160 + k) then 1 else 0) % 2 = 0) ∧
  (∀ (w : MWord), (stored w).word = w ∧ (stored w).bad = 0 ∧ ∀ i, i < 160 → (stored w).getLsbD i = w.getLsbD i) ∧
  (∀ (w : MWord) (u : PWord) (k : Nat), k < 10 →
    let flips := ((List.range 16).filter (fun j => u.getLsbD (16 * k + j))).length + if u.getLsbD (160 + k) then 1 else 0
    ((stored w) ^^^ u).bad.getLsbD k = decide (flips % 2 = 1))
end

