-- ==== Sys2Proof/Laws/Map.lean ====
section
/-! SUPPORT. Sparse arrays: read after write, and the canonical form kept by every write. -/

namespace Sys2Proof.Machine

variable {α : Type}

theorem Map.get_erase_self (d : α) (m : Map α) (k : Nat) : Map.get d (Map.erase m k) k = d := by
  induction m with
  | nil => rfl
  | cons p m ih =>
    obtain ⟨i, v⟩ := p
    by_cases h : i = k <;> simp [Map.erase, Map.get, h, ih]

theorem Map.get_erase_ne (d : α) (m : Map α) {k j : Nat} (h : j ≠ k) :
    Map.get d (Map.erase m k) j = Map.get d m j := by
  induction m with
  | nil => rfl
  | cons p m ih =>
    obtain ⟨i, v⟩ := p
    by_cases hk : i = k
    · subst hk; simp [Map.erase, Map.get, ih, Ne.symm h]
    · simp [Map.erase, Map.get, hk, ih]

theorem Map.get_insert_self (d : α) (m : Map α) (k : Nat) (v : α) (h : ∀ p ∈ m, p.1 ≠ k) :
    Map.get d (Map.insert m k v) k = v := by
  induction m with
  | nil => simp [Map.insert, Map.get]
  | cons p m ih =>
    obtain ⟨i, w⟩ := p
    have hi : i ≠ k := h (i, w) (by simp)
    by_cases hk : k < i
    · simp [Map.insert, Map.get, hk]
    · simp only [Map.insert, hk, if_false, Map.get, hi]
      exact ih (fun p hp => h p (by simp [hp]))

theorem Map.get_insert_ne (d : α) (m : Map α) {k j : Nat} (v : α) (h : j ≠ k) :
    Map.get d (Map.insert m k v) j = Map.get d m j := by
  induction m with
  | nil => simp [Map.insert, Map.get, Ne.symm h]
  | cons p m ih =>
    obtain ⟨i, w⟩ := p
    by_cases hk : k < i
    · simp [Map.insert, Map.get, hk, Ne.symm h]
    · simp [Map.insert, Map.get, hk, ih]

theorem Map.erase_ne (m : Map α) (k : Nat) : ∀ p ∈ Map.erase m k, p.1 ≠ k := by
  induction m with
  | nil => simp [Map.erase]
  | cons p m ih =>
    obtain ⟨i, v⟩ := p
    by_cases h : i = k
    · simpa [Map.erase, h] using ih
    · intro q hq
      simp only [Map.erase, h, if_false, List.mem_cons] at hq
      rcases hq with rfl | hq
      · exact h
      · exact ih q hq

@[simp] theorem Map.get_set_self [DecidableEq α] (d : α) (m : Map α) (k : Nat) (v : α) :
    Map.get d (Map.set d m k v) k = v := by
  unfold Map.set
  split
  · rename_i h; rw [Map.get_erase_self, h]
  · exact Map.get_insert_self _ _ _ _ (Map.erase_ne m k)

/-- A write leaves every other index alone, whatever the defaults of the two. -/
theorem Map.get_set_other [DecidableEq α] (d d' : α) (m : Map α) {k j : Nat} (v : α) (h : j ≠ k) :
    Map.get d (Map.set d' m k v) j = Map.get d m j := by
  unfold Map.set
  split
  · exact Map.get_erase_ne d m h
  · rw [Map.get_insert_ne _ _ _ h, Map.get_erase_ne d m h]

theorem Map.get_set_ne [DecidableEq α] (d : α) (m : Map α) {k j : Nat} (v : α) (h : j ≠ k) :
    Map.get d (Map.set d m k v) j = Map.get d m j := by
  unfold Map.set
  split
  · exact Map.get_erase_ne d m h
  · rw [Map.get_insert_ne _ _ _ h, Map.get_erase_ne d m h]

theorem Map.get_set [DecidableEq α] (d : α) (m : Map α) (k j : Nat) (v : α) :
    Map.get d (Map.set d m k v) j = if j = k then v else Map.get d m j := by
  split
  · rename_i h; subst h; simp
  · rename_i h; exact Map.get_set_ne d m v h

theorem Map.erase_erase (m : Map α) (k : Nat) : Map.erase (Map.erase m k) k = Map.erase m k := by
  induction m with
  | nil => rfl
  | cons p m ih =>
    obtain ⟨i, v⟩ := p
    by_cases h : i = k <;> simp [Map.erase, h, ih]

theorem Map.erase_insert (m : Map α) (k : Nat) (v : α) (h : ∀ p ∈ m, p.1 ≠ k) :
    Map.erase (Map.insert m k v) k = m := by
  have he : ∀ l : Map α, (∀ p ∈ l, p.1 ≠ k) → Map.erase l k = l := by
    intro l
    induction l with
    | nil => intro _; rfl
    | cons p l ih =>
      intro hl
      have hp : p.1 ≠ k := hl p (by simp)
      simp only [Map.erase, hp, if_false, ih (fun q hq => hl q (by simp [hq]))]
  induction m with
  | nil => simp [Map.insert, Map.erase]
  | cons p m ih =>
    obtain ⟨i, w⟩ := p
    have hi : i ≠ k := h (i, w) (by simp)
    by_cases hk : k < i
    · simp only [Map.insert, hk, if_true]
      rw [Map.erase, if_pos rfl]
      exact he _ h
    · simp only [Map.insert, hk, if_false, Map.erase, hi]
      rw [ih (fun p hp => h p (by simp [hp]))]

/-- A second write of an index overrides the first. -/
@[simp] theorem Map.set_set [DecidableEq α] (d : α) (m : Map α) (k : Nat) (v w : α) :
    Map.set d (Map.set d m k v) k w = Map.set d m k w := by
  have : Map.erase (Map.set d m k v) k = Map.erase m k := by
    unfold Map.set
    split
    · exact Map.erase_erase m k
    · exact Map.erase_insert _ _ _ (Map.erase_ne m k)
  unfold Map.set at this ⊢
  rw [this]

/-! ### The canonical form -/

/-- The canonical form as a proposition: pairwise rising, and every value off its default. -/
theorem Map.wf_iff [DecidableEq α] (d : Nat → α) (m : Map α) :
    Map.wf d m = true ↔ m.Pairwise (fun p q => p.1 < q.1) ∧ ∀ p ∈ m, p.2 ≠ d p.1 := by
  induction m with
  | nil => simp [Map.wf]
  | cons p m ih =>
    obtain ⟨i, v⟩ := p
    cases m with
    | nil => simp [Map.wf]
    | cons q m =>
      obtain ⟨j, w⟩ := q
      simp only [Map.wf, Bool.and_eq_true, decide_eq_true_eq, ih]
      constructor
      · rintro ⟨⟨hv, hij⟩, hp, hall⟩
        refine ⟨List.pairwise_cons.2 ⟨?_, hp⟩, ?_⟩
        · intro r hr
          rcases List.mem_cons.1 hr with rfl | hr
          · exact hij
          · exact Nat.lt_trans hij ((List.pairwise_cons.1 hp).1 r hr)
        · intro r hr
          rcases List.mem_cons.1 hr with rfl | hr
          · exact hv
          · exact hall r hr
      · rintro ⟨hp, hall⟩
        have h1 := List.pairwise_cons.1 hp
        exact ⟨⟨hall (i, v) (by simp), h1.1 (j, w) (by simp)⟩, h1.2, fun r hr => hall r (by simp [hr])⟩

theorem Map.mem_erase {m : Map α} {k : Nat} {p : Nat × α} : p ∈ Map.erase m k ↔ p ∈ m ∧ p.1 ≠ k := by
  induction m with
  | nil => simp [Map.erase]
  | cons q m ih =>
    obtain ⟨i, v⟩ := q
    by_cases h : i = k
    · simp only [Map.erase, h, if_true, ih, List.mem_cons]
      constructor
      · rintro ⟨h1, h2⟩; exact ⟨Or.inr h1, h2⟩
      · rintro ⟨h1 | h1, h2⟩
        · subst h1; exact absurd rfl h2
        · exact ⟨h1, h2⟩
    · simp only [Map.erase, h, if_false, List.mem_cons, ih]
      constructor
      · rintro (rfl | ⟨h1, h2⟩)
        · exact ⟨Or.inl rfl, h⟩
        · exact ⟨Or.inr h1, h2⟩
      · rintro ⟨h1 | h1, h2⟩
        · exact Or.inl h1
        · exact Or.inr ⟨h1, h2⟩

theorem Map.pairwise_erase {m : Map α} (h : m.Pairwise (fun p q => p.1 < q.1)) (k : Nat) :
    (Map.erase m k).Pairwise (fun p q => p.1 < q.1) := by
  induction m with
  | nil => simp [Map.erase]
  | cons q m ih =>
    obtain ⟨i, v⟩ := q
    have hc := List.pairwise_cons.1 h
    by_cases hk : i = k
    · simpa [Map.erase, hk] using ih hc.2
    · simp only [Map.erase, hk, if_false]
      exact List.pairwise_cons.2 ⟨fun r hr => hc.1 r (Map.mem_erase.1 hr).1, ih hc.2⟩

theorem Map.mem_insert {m : Map α} {k : Nat} {v : α} {p : Nat × α} :
    p ∈ Map.insert m k v ↔ p = (k, v) ∨ p ∈ m := by
  induction m with
  | nil => simp [Map.insert]
  | cons q m ih =>
    obtain ⟨i, w⟩ := q
    by_cases h : k < i
    · simp [Map.insert, h]
    · simp only [Map.insert, h, if_false, List.mem_cons, ih]
      tauto

theorem Map.pairwise_insert {m : Map α} (h : m.Pairwise (fun p q => p.1 < q.1)) (k : Nat) (v : α)
    (hk : ∀ p ∈ m, p.1 ≠ k) : (Map.insert m k v).Pairwise (fun p q => p.1 < q.1) := by
  induction m with
  | nil => simp [Map.insert]
  | cons q m ih =>
    obtain ⟨i, w⟩ := q
    have hc := List.pairwise_cons.1 h
    by_cases hlt : k < i
    · simp only [Map.insert, hlt, if_true]
      refine List.pairwise_cons.2 ⟨?_, h⟩
      intro r hr
      rcases List.mem_cons.1 hr with rfl | hr
      · exact hlt
      · exact Nat.lt_trans hlt (hc.1 r hr)
    · simp only [Map.insert, hlt, if_false]
      refine List.pairwise_cons.2 ⟨?_, ih hc.2 (fun p hp => hk p (by simp [hp]))⟩
      intro r hr
      rcases Map.mem_insert.1 hr with rfl | hr
      · have := hk (i, w) (by simp); simp at this ⊢; omega
      · exact hc.1 r hr

/-- Every write keeps the canonical form. -/
theorem Map.wf_set [DecidableEq α] (dd : Nat → α) (m : Map α) (k : Nat) (v : α) (h : Map.wf dd m = true) :
    Map.wf dd (Map.set (dd k) m k v) = true := by
  rw [Map.wf_iff] at h ⊢
  have he := Map.pairwise_erase h.1 k
  unfold Map.set
  split
  · exact ⟨he, fun p hp => h.2 p (Map.mem_erase.1 hp).1⟩
  · rename_i hv
    refine ⟨Map.pairwise_insert he k v (Map.erase_ne m k), ?_⟩
    intro p hp
    rcases Map.mem_insert.1 hp with rfl | hp
    · exact hv
    · exact h.2 p (Map.mem_erase.1 hp).1

end Sys2Proof.Machine
end

