-- ==== Sys2Proof/Laws/State.lean ====
section
/-! SUPPORT. What each update of one part of the block leaves alone, and what it leaves in that part: one lemma per field
and update, so that no proof unfolds a record update. -/

namespace Sys2Proof.Machine
open Sys2Proof

/-! ### Fields that an update does not touch -/

@[simp] theorem setCtx_now (b : Block) (n : CtxNo) (c : Ctx) : (b.setCtx n c).now = b.now := rfl
@[simp] theorem setCtx_tick (b : Block) (n : CtxNo) (c : Ctx) : (b.setCtx n c).tick = b.tick := rfl
@[simp] theorem setCtx_seq (b : Block) (n : CtxNo) (c : Ctx) : (b.setCtx n c).seq = b.seq := rfl
@[simp] theorem setCtx_gone (b : Block) (n : CtxNo) (c : Ctx) : (b.setCtx n c).gone = b.gone := rfl
@[simp] theorem setCtx_touched (b : Block) (n : CtxNo) (c : Ctx) : (b.setCtx n c).touched = b.touched := rfl
@[simp] theorem setCtx_free (b : Block) (n : CtxNo) (c : Ctx) : (b.setCtx n c).free = b.free := rfl
@[simp] theorem setCtx_mode (b : Block) (n : CtxNo) (c : Ctx) : (b.setCtx n c).mode = b.mode := rfl
@[simp] theorem setCtx_secs (b : Block) (n : CtxNo) (c : Ctx) : (b.setCtx n c).secs = b.secs := rfl
@[simp] theorem setCtx_engs (b : Block) (n : CtxNo) (c : Ctx) : (b.setCtx n c).engs = b.engs := rfl
@[simp] theorem setCtx_clus (b : Block) (n : CtxNo) (c : Ctx) : (b.setCtx n c).clus = b.clus := rfl
@[simp] theorem setCtx_cs (b : Block) (n : CtxNo) (c : Ctx) : (b.setCtx n c).cs = b.cs := rfl
@[simp] theorem setCtx_units (b : Block) (n : CtxNo) (c : Ctx) : (b.setCtx n c).units = b.units := rfl
@[simp] theorem setCtx_mem (b : Block) (n : CtxNo) (c : Ctx) : (b.setCtx n c).mem = b.mem := rfl
@[simp] theorem setCtx_poison (b : Block) (n : CtxNo) (c : Ctx) : (b.setCtx n c).poison = b.poison := rfl
@[simp] theorem setCtx_wbs (b : Block) (n : CtxNo) (c : Ctx) : (b.setCtx n c).wbs = b.wbs := rfl
@[simp] theorem setCtx_leases (b : Block) (n : CtxNo) (c : Ctx) : (b.setCtx n c).leases = b.leases := rfl
@[simp] theorem setCtx_fab (b : Block) (n : CtxNo) (c : Ctx) : (b.setCtx n c).fab = b.fab := rfl
@[simp] theorem setCtx_imp (b : Block) (n : CtxNo) (c : Ctx) : (b.setCtx n c).imp = b.imp := rfl
@[simp] theorem setCtx_dma (b : Block) (n : CtxNo) (c : Ctx) : (b.setCtx n c).dma = b.dma := rfl
@[simp] theorem setCtx_con (b : Block) (n : CtxNo) (c : Ctx) : (b.setCtx n c).con = b.con := rfl
@[simp] theorem setCtx_fed (b : Block) (n : CtxNo) (c : Ctx) : (b.setCtx n c).fed = b.fed := rfl
@[simp] theorem setCtx_syn (b : Block) (n : CtxNo) (c : Ctx) : (b.setCtx n c).syn = b.syn := rfl
@[simp] theorem setCtx_ras (b : Block) (n : CtxNo) (c : Ctx) : (b.setCtx n c).ras = b.ras := rfl
@[simp] theorem setCtx_dbg (b : Block) (n : CtxNo) (c : Ctx) : (b.setCtx n c).dbg = b.dbg := rfl
@[simp] theorem setCtx_csRr (b : Block) (n : CtxNo) (c : Ctx) : (b.setCtx n c).csRr = b.csRr := rfl
@[simp] theorem setCtx_held (b : Block) (n : CtxNo) (c : Ctx) : (b.setCtx n c).held = b.held := rfl
@[simp] theorem setCtx_sup (b : Block) (n : CtxNo) (c : Ctx) : (b.setCtx n c).sup = b.sup := rfl
@[simp] theorem setCtx_hp (b : Block) (n : CtxNo) (c : Ctx) : (b.setCtx n c).hp = b.hp := rfl
@[simp] theorem setCtx_org (b : Block) (n : CtxNo) (c : Ctx) : (b.setCtx n c).org = b.org := rfl
@[simp] theorem setCtx_xing (b : Block) (n : CtxNo) (c : Ctx) : (b.setCtx n c).xing = b.xing := rfl
@[simp] theorem setCtx_paused (b : Block) (n : CtxNo) (c : Ctx) : (b.setCtx n c).paused = b.paused := rfl
@[simp] theorem setCtx_rsp (b : Block) (n : CtxNo) (c : Ctx) : (b.setCtx n c).rsp = b.rsp := rfl

@[simp] theorem setEng_now (b : Block) (e : EngId) (v : Eng) : (b.setEng e v).now = b.now := rfl
@[simp] theorem setEng_tick (b : Block) (e : EngId) (v : Eng) : (b.setEng e v).tick = b.tick := rfl
@[simp] theorem setEng_seq (b : Block) (e : EngId) (v : Eng) : (b.setEng e v).seq = b.seq := rfl
@[simp] theorem setEng_gone (b : Block) (e : EngId) (v : Eng) : (b.setEng e v).gone = b.gone := rfl
@[simp] theorem setEng_touched (b : Block) (e : EngId) (v : Eng) : (b.setEng e v).touched = b.touched := rfl
@[simp] theorem setEng_free (b : Block) (e : EngId) (v : Eng) : (b.setEng e v).free = b.free := rfl
@[simp] theorem setEng_mode (b : Block) (e : EngId) (v : Eng) : (b.setEng e v).mode = b.mode := rfl
@[simp] theorem setEng_secs (b : Block) (e : EngId) (v : Eng) : (b.setEng e v).secs = b.secs := rfl
@[simp] theorem setEng_ctxs (b : Block) (e : EngId) (v : Eng) : (b.setEng e v).ctxs = b.ctxs := rfl
@[simp] theorem setEng_clus (b : Block) (e : EngId) (v : Eng) : (b.setEng e v).clus = b.clus := rfl
@[simp] theorem setEng_cs (b : Block) (e : EngId) (v : Eng) : (b.setEng e v).cs = b.cs := rfl
@[simp] theorem setEng_units (b : Block) (e : EngId) (v : Eng) : (b.setEng e v).units = b.units := rfl
@[simp] theorem setEng_mem (b : Block) (e : EngId) (v : Eng) : (b.setEng e v).mem = b.mem := rfl
@[simp] theorem setEng_poison (b : Block) (e : EngId) (v : Eng) : (b.setEng e v).poison = b.poison := rfl
@[simp] theorem setEng_wbs (b : Block) (e : EngId) (v : Eng) : (b.setEng e v).wbs = b.wbs := rfl
@[simp] theorem setEng_leases (b : Block) (e : EngId) (v : Eng) : (b.setEng e v).leases = b.leases := rfl
@[simp] theorem setEng_fab (b : Block) (e : EngId) (v : Eng) : (b.setEng e v).fab = b.fab := rfl
@[simp] theorem setEng_imp (b : Block) (e : EngId) (v : Eng) : (b.setEng e v).imp = b.imp := rfl
@[simp] theorem setEng_dma (b : Block) (e : EngId) (v : Eng) : (b.setEng e v).dma = b.dma := rfl
@[simp] theorem setEng_con (b : Block) (e : EngId) (v : Eng) : (b.setEng e v).con = b.con := rfl
@[simp] theorem setEng_fed (b : Block) (e : EngId) (v : Eng) : (b.setEng e v).fed = b.fed := rfl
@[simp] theorem setEng_syn (b : Block) (e : EngId) (v : Eng) : (b.setEng e v).syn = b.syn := rfl
@[simp] theorem setEng_ras (b : Block) (e : EngId) (v : Eng) : (b.setEng e v).ras = b.ras := rfl
@[simp] theorem setEng_dbg (b : Block) (e : EngId) (v : Eng) : (b.setEng e v).dbg = b.dbg := rfl
@[simp] theorem setEng_csRr (b : Block) (e : EngId) (v : Eng) : (b.setEng e v).csRr = b.csRr := rfl
@[simp] theorem setEng_held (b : Block) (e : EngId) (v : Eng) : (b.setEng e v).held = b.held := rfl
@[simp] theorem setEng_sup (b : Block) (e : EngId) (v : Eng) : (b.setEng e v).sup = b.sup := rfl
@[simp] theorem setEng_hp (b : Block) (e : EngId) (v : Eng) : (b.setEng e v).hp = b.hp := rfl
@[simp] theorem setEng_org (b : Block) (e : EngId) (v : Eng) : (b.setEng e v).org = b.org := rfl
@[simp] theorem setEng_xing (b : Block) (e : EngId) (v : Eng) : (b.setEng e v).xing = b.xing := rfl
@[simp] theorem setEng_paused (b : Block) (e : EngId) (v : Eng) : (b.setEng e v).paused = b.paused := rfl
@[simp] theorem setEng_rsp (b : Block) (e : EngId) (v : Eng) : (b.setEng e v).rsp = b.rsp := rfl

@[simp] theorem setClu_now (b : Block) (c : CluId) (v : Clu) : (b.setClu c v).now = b.now := rfl
@[simp] theorem setClu_tick (b : Block) (c : CluId) (v : Clu) : (b.setClu c v).tick = b.tick := rfl
@[simp] theorem setClu_seq (b : Block) (c : CluId) (v : Clu) : (b.setClu c v).seq = b.seq := rfl
@[simp] theorem setClu_gone (b : Block) (c : CluId) (v : Clu) : (b.setClu c v).gone = b.gone := rfl
@[simp] theorem setClu_touched (b : Block) (c : CluId) (v : Clu) : (b.setClu c v).touched = b.touched := rfl
@[simp] theorem setClu_free (b : Block) (c : CluId) (v : Clu) : (b.setClu c v).free = b.free := rfl
@[simp] theorem setClu_mode (b : Block) (c : CluId) (v : Clu) : (b.setClu c v).mode = b.mode := rfl
@[simp] theorem setClu_secs (b : Block) (c : CluId) (v : Clu) : (b.setClu c v).secs = b.secs := rfl
@[simp] theorem setClu_ctxs (b : Block) (c : CluId) (v : Clu) : (b.setClu c v).ctxs = b.ctxs := rfl
@[simp] theorem setClu_engs (b : Block) (c : CluId) (v : Clu) : (b.setClu c v).engs = b.engs := rfl
@[simp] theorem setClu_cs (b : Block) (c : CluId) (v : Clu) : (b.setClu c v).cs = b.cs := rfl
@[simp] theorem setClu_units (b : Block) (c : CluId) (v : Clu) : (b.setClu c v).units = b.units := rfl
@[simp] theorem setClu_mem (b : Block) (c : CluId) (v : Clu) : (b.setClu c v).mem = b.mem := rfl
@[simp] theorem setClu_poison (b : Block) (c : CluId) (v : Clu) : (b.setClu c v).poison = b.poison := rfl
@[simp] theorem setClu_wbs (b : Block) (c : CluId) (v : Clu) : (b.setClu c v).wbs = b.wbs := rfl
@[simp] theorem setClu_leases (b : Block) (c : CluId) (v : Clu) : (b.setClu c v).leases = b.leases := rfl
@[simp] theorem setClu_fab (b : Block) (c : CluId) (v : Clu) : (b.setClu c v).fab = b.fab := rfl
@[simp] theorem setClu_imp (b : Block) (c : CluId) (v : Clu) : (b.setClu c v).imp = b.imp := rfl
@[simp] theorem setClu_dma (b : Block) (c : CluId) (v : Clu) : (b.setClu c v).dma = b.dma := rfl
@[simp] theorem setClu_con (b : Block) (c : CluId) (v : Clu) : (b.setClu c v).con = b.con := rfl
@[simp] theorem setClu_fed (b : Block) (c : CluId) (v : Clu) : (b.setClu c v).fed = b.fed := rfl
@[simp] theorem setClu_syn (b : Block) (c : CluId) (v : Clu) : (b.setClu c v).syn = b.syn := rfl
@[simp] theorem setClu_ras (b : Block) (c : CluId) (v : Clu) : (b.setClu c v).ras = b.ras := rfl
@[simp] theorem setClu_dbg (b : Block) (c : CluId) (v : Clu) : (b.setClu c v).dbg = b.dbg := rfl
@[simp] theorem setClu_csRr (b : Block) (c : CluId) (v : Clu) : (b.setClu c v).csRr = b.csRr := rfl
@[simp] theorem setClu_held (b : Block) (c : CluId) (v : Clu) : (b.setClu c v).held = b.held := rfl
@[simp] theorem setClu_sup (b : Block) (c : CluId) (v : Clu) : (b.setClu c v).sup = b.sup := rfl
@[simp] theorem setClu_hp (b : Block) (c : CluId) (v : Clu) : (b.setClu c v).hp = b.hp := rfl
@[simp] theorem setClu_org (b : Block) (c : CluId) (v : Clu) : (b.setClu c v).org = b.org := rfl
@[simp] theorem setClu_xing (b : Block) (c : CluId) (v : Clu) : (b.setClu c v).xing = b.xing := rfl
@[simp] theorem setClu_paused (b : Block) (c : CluId) (v : Clu) : (b.setClu c v).paused = b.paused := rfl
@[simp] theorem setClu_rsp (b : Block) (c : CluId) (v : Clu) : (b.setClu c v).rsp = b.rsp := rfl

@[simp] theorem modUnit_now (b : Block) (u : Nat) (f : MemUnit → MemUnit) : (b.modUnit u f).now = b.now := rfl
@[simp] theorem modUnit_tick (b : Block) (u : Nat) (f : MemUnit → MemUnit) : (b.modUnit u f).tick = b.tick := rfl
@[simp] theorem modUnit_seq (b : Block) (u : Nat) (f : MemUnit → MemUnit) : (b.modUnit u f).seq = b.seq := rfl
@[simp] theorem modUnit_gone (b : Block) (u : Nat) (f : MemUnit → MemUnit) : (b.modUnit u f).gone = b.gone := rfl
@[simp] theorem modUnit_touched (b : Block) (u : Nat) (f : MemUnit → MemUnit) : (b.modUnit u f).touched = b.touched := rfl
@[simp] theorem modUnit_free (b : Block) (u : Nat) (f : MemUnit → MemUnit) : (b.modUnit u f).free = b.free := rfl
@[simp] theorem modUnit_mode (b : Block) (u : Nat) (f : MemUnit → MemUnit) : (b.modUnit u f).mode = b.mode := rfl
@[simp] theorem modUnit_secs (b : Block) (u : Nat) (f : MemUnit → MemUnit) : (b.modUnit u f).secs = b.secs := rfl
@[simp] theorem modUnit_ctxs (b : Block) (u : Nat) (f : MemUnit → MemUnit) : (b.modUnit u f).ctxs = b.ctxs := rfl
@[simp] theorem modUnit_engs (b : Block) (u : Nat) (f : MemUnit → MemUnit) : (b.modUnit u f).engs = b.engs := rfl
@[simp] theorem modUnit_clus (b : Block) (u : Nat) (f : MemUnit → MemUnit) : (b.modUnit u f).clus = b.clus := rfl
@[simp] theorem modUnit_cs (b : Block) (u : Nat) (f : MemUnit → MemUnit) : (b.modUnit u f).cs = b.cs := rfl
@[simp] theorem modUnit_mem (b : Block) (u : Nat) (f : MemUnit → MemUnit) : (b.modUnit u f).mem = b.mem := rfl
@[simp] theorem modUnit_poison (b : Block) (u : Nat) (f : MemUnit → MemUnit) : (b.modUnit u f).poison = b.poison := rfl
@[simp] theorem modUnit_wbs (b : Block) (u : Nat) (f : MemUnit → MemUnit) : (b.modUnit u f).wbs = b.wbs := rfl
@[simp] theorem modUnit_leases (b : Block) (u : Nat) (f : MemUnit → MemUnit) : (b.modUnit u f).leases = b.leases := rfl
@[simp] theorem modUnit_fab (b : Block) (u : Nat) (f : MemUnit → MemUnit) : (b.modUnit u f).fab = b.fab := rfl
@[simp] theorem modUnit_imp (b : Block) (u : Nat) (f : MemUnit → MemUnit) : (b.modUnit u f).imp = b.imp := rfl
@[simp] theorem modUnit_dma (b : Block) (u : Nat) (f : MemUnit → MemUnit) : (b.modUnit u f).dma = b.dma := rfl
@[simp] theorem modUnit_con (b : Block) (u : Nat) (f : MemUnit → MemUnit) : (b.modUnit u f).con = b.con := rfl
@[simp] theorem modUnit_fed (b : Block) (u : Nat) (f : MemUnit → MemUnit) : (b.modUnit u f).fed = b.fed := rfl
@[simp] theorem modUnit_syn (b : Block) (u : Nat) (f : MemUnit → MemUnit) : (b.modUnit u f).syn = b.syn := rfl
@[simp] theorem modUnit_ras (b : Block) (u : Nat) (f : MemUnit → MemUnit) : (b.modUnit u f).ras = b.ras := rfl
@[simp] theorem modUnit_dbg (b : Block) (u : Nat) (f : MemUnit → MemUnit) : (b.modUnit u f).dbg = b.dbg := rfl
@[simp] theorem modUnit_csRr (b : Block) (u : Nat) (f : MemUnit → MemUnit) : (b.modUnit u f).csRr = b.csRr := rfl
@[simp] theorem modUnit_held (b : Block) (u : Nat) (f : MemUnit → MemUnit) : (b.modUnit u f).held = b.held := rfl
@[simp] theorem modUnit_sup (b : Block) (u : Nat) (f : MemUnit → MemUnit) : (b.modUnit u f).sup = b.sup := rfl
@[simp] theorem modUnit_hp (b : Block) (u : Nat) (f : MemUnit → MemUnit) : (b.modUnit u f).hp = b.hp := rfl
@[simp] theorem modUnit_org (b : Block) (u : Nat) (f : MemUnit → MemUnit) : (b.modUnit u f).org = b.org := rfl
@[simp] theorem modUnit_xing (b : Block) (u : Nat) (f : MemUnit → MemUnit) : (b.modUnit u f).xing = b.xing := rfl
@[simp] theorem modUnit_paused (b : Block) (u : Nat) (f : MemUnit → MemUnit) : (b.modUnit u f).paused = b.paused := rfl
@[simp] theorem modUnit_rsp (b : Block) (u : Nat) (f : MemUnit → MemUnit) : (b.modUnit u f).rsp = b.rsp := rfl

@[simp] theorem modSec_now (b : Block) (s : SecId) (f : Sec → Sec) : (b.modSec s f).now = b.now := rfl
@[simp] theorem modSec_tick (b : Block) (s : SecId) (f : Sec → Sec) : (b.modSec s f).tick = b.tick := rfl
@[simp] theorem modSec_seq (b : Block) (s : SecId) (f : Sec → Sec) : (b.modSec s f).seq = b.seq := rfl
@[simp] theorem modSec_gone (b : Block) (s : SecId) (f : Sec → Sec) : (b.modSec s f).gone = b.gone := rfl
@[simp] theorem modSec_touched (b : Block) (s : SecId) (f : Sec → Sec) : (b.modSec s f).touched = b.touched := rfl
@[simp] theorem modSec_free (b : Block) (s : SecId) (f : Sec → Sec) : (b.modSec s f).free = b.free := rfl
@[simp] theorem modSec_mode (b : Block) (s : SecId) (f : Sec → Sec) : (b.modSec s f).mode = b.mode := rfl
@[simp] theorem modSec_ctxs (b : Block) (s : SecId) (f : Sec → Sec) : (b.modSec s f).ctxs = b.ctxs := rfl
@[simp] theorem modSec_engs (b : Block) (s : SecId) (f : Sec → Sec) : (b.modSec s f).engs = b.engs := rfl
@[simp] theorem modSec_clus (b : Block) (s : SecId) (f : Sec → Sec) : (b.modSec s f).clus = b.clus := rfl
@[simp] theorem modSec_cs (b : Block) (s : SecId) (f : Sec → Sec) : (b.modSec s f).cs = b.cs := rfl
@[simp] theorem modSec_units (b : Block) (s : SecId) (f : Sec → Sec) : (b.modSec s f).units = b.units := rfl
@[simp] theorem modSec_mem (b : Block) (s : SecId) (f : Sec → Sec) : (b.modSec s f).mem = b.mem := rfl
@[simp] theorem modSec_poison (b : Block) (s : SecId) (f : Sec → Sec) : (b.modSec s f).poison = b.poison := rfl
@[simp] theorem modSec_wbs (b : Block) (s : SecId) (f : Sec → Sec) : (b.modSec s f).wbs = b.wbs := rfl
@[simp] theorem modSec_leases (b : Block) (s : SecId) (f : Sec → Sec) : (b.modSec s f).leases = b.leases := rfl
@[simp] theorem modSec_fab (b : Block) (s : SecId) (f : Sec → Sec) : (b.modSec s f).fab = b.fab := rfl
@[simp] theorem modSec_imp (b : Block) (s : SecId) (f : Sec → Sec) : (b.modSec s f).imp = b.imp := rfl
@[simp] theorem modSec_dma (b : Block) (s : SecId) (f : Sec → Sec) : (b.modSec s f).dma = b.dma := rfl
@[simp] theorem modSec_con (b : Block) (s : SecId) (f : Sec → Sec) : (b.modSec s f).con = b.con := rfl
@[simp] theorem modSec_fed (b : Block) (s : SecId) (f : Sec → Sec) : (b.modSec s f).fed = b.fed := rfl
@[simp] theorem modSec_syn (b : Block) (s : SecId) (f : Sec → Sec) : (b.modSec s f).syn = b.syn := rfl
@[simp] theorem modSec_ras (b : Block) (s : SecId) (f : Sec → Sec) : (b.modSec s f).ras = b.ras := rfl
@[simp] theorem modSec_dbg (b : Block) (s : SecId) (f : Sec → Sec) : (b.modSec s f).dbg = b.dbg := rfl
@[simp] theorem modSec_csRr (b : Block) (s : SecId) (f : Sec → Sec) : (b.modSec s f).csRr = b.csRr := rfl
@[simp] theorem modSec_held (b : Block) (s : SecId) (f : Sec → Sec) : (b.modSec s f).held = b.held := rfl
@[simp] theorem modSec_sup (b : Block) (s : SecId) (f : Sec → Sec) : (b.modSec s f).sup = b.sup := rfl
@[simp] theorem modSec_hp (b : Block) (s : SecId) (f : Sec → Sec) : (b.modSec s f).hp = b.hp := rfl
@[simp] theorem modSec_org (b : Block) (s : SecId) (f : Sec → Sec) : (b.modSec s f).org = b.org := rfl
@[simp] theorem modSec_xing (b : Block) (s : SecId) (f : Sec → Sec) : (b.modSec s f).xing = b.xing := rfl
@[simp] theorem modSec_paused (b : Block) (s : SecId) (f : Sec → Sec) : (b.modSec s f).paused = b.paused := rfl
@[simp] theorem modSec_rsp (b : Block) (s : SecId) (f : Sec → Sec) : (b.modSec s f).rsp = b.rsp := rfl

@[simp] theorem modChan_now (b : Block) (n : BitVec 8) (f : Dma → Dma) : (b.modChan n f).now = b.now := rfl
@[simp] theorem modChan_tick (b : Block) (n : BitVec 8) (f : Dma → Dma) : (b.modChan n f).tick = b.tick := rfl
@[simp] theorem modChan_seq (b : Block) (n : BitVec 8) (f : Dma → Dma) : (b.modChan n f).seq = b.seq := rfl
@[simp] theorem modChan_gone (b : Block) (n : BitVec 8) (f : Dma → Dma) : (b.modChan n f).gone = b.gone := rfl
@[simp] theorem modChan_touched (b : Block) (n : BitVec 8) (f : Dma → Dma) : (b.modChan n f).touched = b.touched := rfl
@[simp] theorem modChan_free (b : Block) (n : BitVec 8) (f : Dma → Dma) : (b.modChan n f).free = b.free := rfl
@[simp] theorem modChan_mode (b : Block) (n : BitVec 8) (f : Dma → Dma) : (b.modChan n f).mode = b.mode := rfl
@[simp] theorem modChan_secs (b : Block) (n : BitVec 8) (f : Dma → Dma) : (b.modChan n f).secs = b.secs := rfl
@[simp] theorem modChan_ctxs (b : Block) (n : BitVec 8) (f : Dma → Dma) : (b.modChan n f).ctxs = b.ctxs := rfl
@[simp] theorem modChan_engs (b : Block) (n : BitVec 8) (f : Dma → Dma) : (b.modChan n f).engs = b.engs := rfl
@[simp] theorem modChan_clus (b : Block) (n : BitVec 8) (f : Dma → Dma) : (b.modChan n f).clus = b.clus := rfl
@[simp] theorem modChan_cs (b : Block) (n : BitVec 8) (f : Dma → Dma) : (b.modChan n f).cs = b.cs := rfl
@[simp] theorem modChan_units (b : Block) (n : BitVec 8) (f : Dma → Dma) : (b.modChan n f).units = b.units := rfl
@[simp] theorem modChan_mem (b : Block) (n : BitVec 8) (f : Dma → Dma) : (b.modChan n f).mem = b.mem := rfl
@[simp] theorem modChan_poison (b : Block) (n : BitVec 8) (f : Dma → Dma) : (b.modChan n f).poison = b.poison := rfl
@[simp] theorem modChan_wbs (b : Block) (n : BitVec 8) (f : Dma → Dma) : (b.modChan n f).wbs = b.wbs := rfl
@[simp] theorem modChan_leases (b : Block) (n : BitVec 8) (f : Dma → Dma) : (b.modChan n f).leases = b.leases := rfl
@[simp] theorem modChan_fab (b : Block) (n : BitVec 8) (f : Dma → Dma) : (b.modChan n f).fab = b.fab := rfl
@[simp] theorem modChan_imp (b : Block) (n : BitVec 8) (f : Dma → Dma) : (b.modChan n f).imp = b.imp := rfl
@[simp] theorem modChan_con (b : Block) (n : BitVec 8) (f : Dma → Dma) : (b.modChan n f).con = b.con := rfl
@[simp] theorem modChan_fed (b : Block) (n : BitVec 8) (f : Dma → Dma) : (b.modChan n f).fed = b.fed := rfl
@[simp] theorem modChan_syn (b : Block) (n : BitVec 8) (f : Dma → Dma) : (b.modChan n f).syn = b.syn := rfl
@[simp] theorem modChan_ras (b : Block) (n : BitVec 8) (f : Dma → Dma) : (b.modChan n f).ras = b.ras := rfl
@[simp] theorem modChan_dbg (b : Block) (n : BitVec 8) (f : Dma → Dma) : (b.modChan n f).dbg = b.dbg := rfl
@[simp] theorem modChan_csRr (b : Block) (n : BitVec 8) (f : Dma → Dma) : (b.modChan n f).csRr = b.csRr := rfl
@[simp] theorem modChan_held (b : Block) (n : BitVec 8) (f : Dma → Dma) : (b.modChan n f).held = b.held := rfl
@[simp] theorem modChan_sup (b : Block) (n : BitVec 8) (f : Dma → Dma) : (b.modChan n f).sup = b.sup := rfl
@[simp] theorem modChan_hp (b : Block) (n : BitVec 8) (f : Dma → Dma) : (b.modChan n f).hp = b.hp := rfl
@[simp] theorem modChan_org (b : Block) (n : BitVec 8) (f : Dma → Dma) : (b.modChan n f).org = b.org := rfl
@[simp] theorem modChan_xing (b : Block) (n : BitVec 8) (f : Dma → Dma) : (b.modChan n f).xing = b.xing := rfl
@[simp] theorem modChan_paused (b : Block) (n : BitVec 8) (f : Dma → Dma) : (b.modChan n f).paused = b.paused := rfl
@[simp] theorem modChan_rsp (b : Block) (n : BitVec 8) (f : Dma → Dma) : (b.modChan n f).rsp = b.rsp := rfl

/-! ### An update of a part is a set of it -/

@[simp] theorem modCtx_eq (b : Block) (n : CtxNo) (f : Ctx → Ctx) : b.modCtx n f = b.setCtx n (f (b.ctx n)) := rfl
@[simp] theorem modEng_eq (b : Block) (e : EngId) (f : Eng → Eng) : b.modEng e f = b.setEng e (f (b.eng e)) := rfl
@[simp] theorem modClu_eq (b : Block) (c : CluId) (f : Clu → Clu) : b.modClu c f = b.setClu c (f (b.clu c)) := rfl

/-! ### A second update of a part overrides the first; updates of different parts commute -/

@[simp] theorem setCtx_setCtx (b : Block) (n : CtxNo) (c d : Ctx) : (b.setCtx n c).setCtx n d = b.setCtx n d := by
  simp [Block.setCtx]
@[simp] theorem setEng_setEng (b : Block) (e : EngId) (g h : Eng) : (b.setEng e g).setEng e h = b.setEng e h := by
  simp [Block.setEng]
@[simp] theorem setClu_setClu (b : Block) (c : CluId) (v w : Clu) : (b.setClu c v).setClu c w = b.setClu c w := by
  simp [Block.setClu]
@[simp] theorem setCtx_setEng (b : Block) (n : CtxNo) (c : Ctx) (e : EngId) (g : Eng) :
    (b.setCtx n c).setEng e g = (b.setEng e g).setCtx n c := rfl
@[simp] theorem setClu_setEng (b : Block) (k : CluId) (v : Clu) (e : EngId) (g : Eng) :
    (b.setClu k v).setEng e g = (b.setEng e g).setClu k v := rfl
@[simp] theorem setClu_setCtx (b : Block) (k : CluId) (v : Clu) (n : CtxNo) (c : Ctx) :
    (b.setClu k v).setCtx n c = (b.setCtx n c).setClu k v := rfl

/-! ### What a read of a part finds after an update -/

theorem bv_ne {w : Nat} {x y : BitVec w} (h : x ≠ y) : x.toNat ≠ y.toNat := fun e => h (BitVec.eq_of_toNat_eq e)

theorem ctx_setCtx (b : Block) (n : CtxNo) (c : Ctx) (m : CtxNo) : (b.setCtx n c).ctx m = if m = n then c else b.ctx m := by
  unfold Block.ctx Block.setCtx
  by_cases h : m = n
  · subst h; simp
  · simp [h, Map.get_set_ne _ _ _ (bv_ne h)]
@[simp] theorem ctx_setCtx_same (b : Block) (n : CtxNo) (c : Ctx) : (b.setCtx n c).ctx n = c := by simp [ctx_setCtx]
@[simp] theorem eng_setCtx (b : Block) (n : CtxNo) (c : Ctx) (m : EngId) : (b.setCtx n c).eng m = b.eng m := rfl
@[simp] theorem clu_setCtx (b : Block) (n : CtxNo) (c : Ctx) (m : CluId) : (b.setCtx n c).clu m = b.clu m := rfl

theorem eng_setEng (b : Block) (e : EngId) (v : Eng) (m : EngId) : (b.setEng e v).eng m = if m = e then v else b.eng m := by
  unfold Block.eng Block.setEng
  by_cases h : m = e
  · subst h; simp
  · simp [h, Map.get_set_ne _ _ _ (bv_ne h)]
@[simp] theorem eng_setEng_same (b : Block) (e : EngId) (v : Eng) : (b.setEng e v).eng e = v := by simp [eng_setEng]
@[simp] theorem ctx_setEng (b : Block) (e : EngId) (v : Eng) (m : CtxNo) : (b.setEng e v).ctx m = b.ctx m := rfl
@[simp] theorem clu_setEng (b : Block) (e : EngId) (v : Eng) (m : CluId) : (b.setEng e v).clu m = b.clu m := rfl

theorem clu_setClu (b : Block) (c : CluId) (v : Clu) (m : CluId) : (b.setClu c v).clu m = if m = c then v else b.clu m := by
  unfold Block.clu Block.setClu
  by_cases h : m = c
  · subst h; simp
  · simp [h, Map.get_set_ne _ _ _ (bv_ne h)]
@[simp] theorem clu_setClu_same (b : Block) (c : CluId) (v : Clu) : (b.setClu c v).clu c = v := by simp [clu_setClu]
@[simp] theorem ctx_setClu (b : Block) (c : CluId) (v : Clu) (m : CtxNo) : (b.setClu c v).ctx m = b.ctx m := rfl
@[simp] theorem eng_setClu (b : Block) (c : CluId) (v : Clu) (m : EngId) : (b.setClu c v).eng m = b.eng m := rfl

theorem unit_modUnit (b : Block) (u : Nat) (f : MemUnit → MemUnit) (m : Nat) :
    (b.modUnit u f).unit m = if m = u then f (b.unit u) else b.unit m := by
  unfold Block.unit Block.modUnit
  by_cases h : m = u
  · subst h; simp [Block.unit]
  · rw [if_neg h]; exact Map.get_set_other _ _ _ _ h

theorem sec_modSec (b : Block) (s : SecId) (f : Sec → Sec) (m : SecId) :
    (b.modSec s f).sec m = if m = s then f (b.sec s) else b.sec m := by
  unfold Block.sec Block.modSec
  by_cases h : m = s
  · subst h; simp [Block.sec]
  · rw [if_neg h]; exact Map.get_set_other _ _ _ _ (bv_ne h)

theorem chan_modChan (b : Block) (n : BitVec 8) (f : Dma → Dma) (m : BitVec 8) :
    (b.modChan n f).chan m = if m = n then f (b.chan n) else b.chan m := by
  unfold Block.chan Block.modChan
  by_cases h : m = n
  · subst h; simp [Block.chan]
  · rw [if_neg h]; exact Map.get_set_other _ _ _ _ (bv_ne h)

end Sys2Proof.Machine
end

