-- ==== Sys2Proof/Laws/File.lean ====
section
/-! SUPPORT. The register file of a level (R155): what a change of it does to the context and to the engine's bank. -/

namespace Sys2Proof.Machine
open Sys2Proof

theorem vec16_ext {v w : Vector Word 16} (h : ∀ i (hi : i < 16), v[i] = w[i]) : v = w := Vector.ext h

@[simp] theorem withHigh_highOf (v : Vector Word 16) : withHigh v (highOf v) = v := by
  apply vec16_ext
  intro i hi
  simp only [withHigh, highOf, Vector.getElem_set]
  repeat' split
  all_goals (first | rfl | (subst_vars; rfl))

@[simp] theorem withHigh_withHigh (v : Vector Word 16) (h k : Vector Word 4) :
    withHigh (withHigh v h) k = withHigh v k := by
  apply vec16_ext
  intro i hi
  simp only [withHigh, Vector.getElem_set]
  repeat' split
  all_goals rfl

@[simp] theorem highOf_withHigh (v : Vector Word 16) (h : Vector Word 4) : highOf (withHigh v h) = h := by
  apply Vector.ext
  intro i hi
  have : i = 0 ∨ i = 1 ∨ i = 2 ∨ i = 3 := by omega
  rcases this with rfl | rfl | rfl | rfl <;> simp [highOf, withHigh]

@[simp] theorem shadowOf_withShadow (v : Vector CsAddr 32) (h : Vector CsAddr 8) : shadowOf (withShadow v h) = h := by
  apply Vector.ext
  intro i hi
  have : i = 0 ∨ i = 1 ∨ i = 2 ∨ i = 3 ∨ i = 4 ∨ i = 5 ∨ i = 6 ∨ i = 7 := by omega
  rcases this with rfl | rfl | rfl | rfl | rfl | rfl | rfl | rfl <;> simp [shadowOf, withShadow]

/-- A file that a level's words may leave: its shadow stack differs from the context's in the bank's eight entries only. -/
def FileFor (c : Ctx) (l : Lvl) (v : Ctx) : Prop := l = .prog ∨ v.shadow = withShadow c.shadow (shadowOf v.shadow)

theorem fileFor_file (b : Block) (n : CtxNo) (l : Lvl) : FileFor (b.ctx n) l (b.file n l) := by
  cases l
  · exact Or.inl rfl
  · exact Or.inr (by simp [Block.file, view])
  · exact Or.inr (by simp [Block.file, view])

/-- The file that a level reads back is the one that was set. -/
theorem view_unview (c v : Ctx) (g : Eng) (l : Lvl) (h : FileFor c l v) : view (unviewCtx c v l) (unviewEng g v l) l = v := by
  rcases h with rfl | h
  · rfl
  · cases l
    · rfl
    · simp only [view, unviewCtx, unviewEng, Eng.bank, Eng.modBank, Eng.setBank]
      simp [← h]
    · simp only [view, unviewCtx, unviewEng, Eng.bank, Eng.modBank, Eng.setBank]
      simp [← h]

/-- A second change of the file overrides the first. -/
theorem unviewCtx_unviewCtx (c v w : Ctx) (l : Lvl) : unviewCtx (unviewCtx c v l) w l = unviewCtx c w l := by
  cases l <;> simp [unviewCtx]

theorem unviewEng_unviewEng (g : Eng) (v w : Ctx) (l : Lvl) : unviewEng (unviewEng g v l) w l = unviewEng g w l := by
  cases l <;> simp [unviewEng, Eng.bank, Eng.modBank, Eng.setBank]

theorem file_setFile (b : Block) (n : CtxNo) (l : Lvl) (v : Ctx) (h : FileFor (b.ctx n) l v) :
    (b.setFile n l v).file n l = v := by
  simp only [Block.file, Block.setFile, modEng_eq, ctx_setCtx_same, eng_setCtx, eng_setEng_same]
  exact view_unview _ _ _ _ h

end Sys2Proof.Machine
end

