-- ==== Sys2Proof/Laws/Issue.lean ====
section
/-! SUPPORT. The issue of a word: a selected word acts in the block that the selection leaves. -/

namespace Sys2Proof.Machine
open Sys2Proof

@[simp] theorem engOf_ctxNo (e : EngId) (k : CtxId) : engOf (ctxNo e k) = e := by
  unfold engOf ctxNo
  ext i hi
  rw [BitVec.getElem_extractLsb', BitVec.getLsbD_append]
  simp; rfl

/-- The free values that a selection has drawn. -/
def selFree (b : Block) (n : CtxNo) : Nat := (select n b).free

/-- The block of a selected word: its engine has counted the issue, and the context's step and skip are over. -/
def selected (b : Block) (n : CtxNo) : Block :=
  ({ granted b n with free := selFree b n }.setEng (engOf n) ((lbCapture n (b.ctx n).upc (select n b)).eng (engOf n))).setCtx n
     { b.ctx n with halt := { (b.ctx n).halt with skipCmp := false, stepping := false } }

/-- What a selection does to its engine: the issue count, the pointers, the last issues, and the refusals of the fetch. -/
def selEng (b : Block) (n : CtxNo) : Eng := (select n b).eng (engOf n)

theorem select_eq (b : Block) (n : CtxNo) :
    select n b = { granted b n with free := selFree b n }.setEng (engOf n) (selEng b n) := by
  have key : ∀ g : Eng, storeFetch n (b.setEng (engOf n) g) =
      { b with free := (storeFetch n (b.setEng (engOf n) g)).free, csRr := (storeFetch n (b.setEng (engOf n) g)).csRr }.setEng
        (engOf n) ((storeFetch n (b.setEng (engOf n) g)).eng (engOf n)) := by
    intro g
    have one : ∀ (h : Eng) (fr : Nat) (cr : Map (BitVec 3)), { b.setEng (engOf n) h with free := fr, csRr := cr } =
        { b with free := fr, csRr := cr }.setEng (engOf n) ({ b.setEng (engOf n) h with free := fr, csRr := cr }.eng (engOf n)) := by
      intro h fr cr
      rw [show ({ b.setEng (engOf n) h with free := fr, csRr := cr } : Block).eng (engOf n) = h from eng_setEng_same b _ h]
      rfl
    unfold storeFetch
    split
    · exact one g b.free b.csRr
    · simp only [modEng_eq, eng_setEng_same, setEng_setEng]
      split
      · exact one g b.free _
      · exact one _ _ _
  exact key _

theorem lbCapture_eq (b : Block) (n : CtxNo) (a : CsAddr) :
    lbCapture n a b = b.setEng (engOf n) ((lbCapture n a b).eng (engOf n)) := by
  unfold lbCapture; simp only [modEng_eq, eng_setEng_same]

theorem atIssueOf_eq (b : Block) (n : CtxNo) :
    lbCapture n (b.ctx n).upc ((select n b).modCtx n (fun c => { c with halt := { c.halt with skipCmp := false, stepping := false } }))
    = selected b n := by
  have hc : (select n b).ctx n = b.ctx n := by rw [select_eq]; rfl
  rw [modCtx_eq, hc]
  have key : ∀ (x : Block) (c : Ctx), lbCapture n (b.ctx n).upc (x.setCtx n c) = (lbCapture n (b.ctx n).upc x).setCtx n c := fun _ _ => rfl
  rw [key, lbCapture_eq (select n b)]
  conv => lhs; rw [select_eq]
  unfold selected
  rw [setEng_setEng, ← select_eq]

theorem matching_nil {b : Block} {n : CtxNo} (h : ∀ x ∈ engCmps b (engOf n), x.2.watches (ctxOf n) = false) (ks a l) :
    matching b n ks a l = [] := by
  unfold matching
  rw [List.filter_eq_nil_iff]
  intro x hx; simp [h x hx]

theorem fire_nil (n s info b) : fireCmps n s [] info b = (b, false) := by simp [fireCmps]

/-- A fetch from the store counts its refusals and changes no more of its engine. -/
theorem storeFetch_eng (n : CtxNo) (b : Block) :
    ∃ cs, (storeFetch n b).eng (engOf n) = { b.eng (engOf n) with csConf := cs } := by
  unfold storeFetch
  split
  · exact ⟨_, rfl⟩
  · dsimp only
    split
    · exact ⟨_, rfl⟩
    · exact ⟨_, (eng_setEng_same b (engOf n) _).trans rfl⟩

/-- Of its engine a selection changes the counts and the pointers. -/
theorem select_eng (b : Block) (n : CtxNo) : ∃ i r1 r2 rc cs, selEng b n =
    { b.eng (engOf n) with issue := i, rrHi := r1, rrLo := r2, recent := rc, csConf := cs } := by
  obtain ⟨cs, h⟩ := storeFetch_eng n (b.modEng (engOf n) (fun g => { g with
    issue := g.issue.count b.now 1, rrHi := if highClass b n then ctxOf n else g.rrHi, rrLo := if highClass b n then g.rrLo else ctxOf n
    recent := (ctxOf n :: g.recent).take 3 }))
  rw [modEng_eq, eng_setEng_same] at h
  exact ⟨_, _, _, _, _, h⟩

theorem engCmps_select (b : Block) (n : CtxNo) : engCmps (select n b) (engOf n) = engCmps b (engOf n) := by
  obtain ⟨i, r1, r2, rc, cs, h⟩ := select_eng b n
  rw [select_eq, h]
  unfold engCmps
  simp only [eng_setEng_same]
  rfl

theorem issueAs_selects {b : Block} {n : CtxNo} {w : MWord} (h : Selects b n w) (p : MWord → Bool) (hp : p w = true) :
   issueAs p n b = act n (snapOf b n w none false) (selected b n) := by
  obtain ⟨⟨h1, h2, h3, h4, h5⟩, _⟩ := h
  rw [← atIssueOf_eq]
  unfold issueAs
  simp only [h1, h3, h4, hp]
  have : ¬ (0x21FF < (b.ctx n).upc.toNat) := by omega
  simp only [this]
  have hm : matching (select n b) n [0] (b.ctx n).upc.toNat 1 = [] := by
    apply matching_nil
    rw [engCmps_select]; exact h5
  rw [hm, fire_nil]
  simp

/-- Of its engine a selected word changes the counts, the pointers and the loop buffer's words. -/
theorem lb_eng (b : Block) (n : CtxNo) : ∃ i r1 r2 rc cs buf, (lbCapture n (b.ctx n).upc (select n b)).eng (engOf n) =
    { b.eng (engOf n) with issue := i, rrHi := r1, rrLo := r2, recent := rc, csConf := cs, lbBuf := buf } := by
  obtain ⟨i, r1, r2, rc, cs, h⟩ := select_eng b n
  unfold lbCapture
  rw [modEng_eq, eng_setEng_same]
  change (select n b).eng (engOf n) = _ at h
  rw [h]
  split
  · exact ⟨_, _, _, _, _, _, rfl⟩
  · exact ⟨_, _, _, _, _, (b.eng (engOf n)).lbBuf, rfl⟩

theorem clus_selected (b : Block) (n) : (selected b n).clus = b.clus := rfl
theorem units_selected (b : Block) (n) : (selected b n).units = b.units := rfl
theorem clu_selected (b : Block) (n c) : (selected b n).clu c = b.clu c := rfl

theorem file_selected (b : Block) (n : CtxNo) (l : Lvl) : (selected b n).file n l =
   { b.file n l with halt := { (b.ctx n).halt with skipCmp := false, stepping := false } } := by
  obtain ⟨i, r1, r2, rc, cs, buf, h⟩ := lb_eng b n
  simp only [selected, Block.file, ctx_setCtx_same, eng_setCtx, eng_setEng_same, h]
  cases l <;> rfl

theorem source_selected (b : Block) (n : CtxNo) (l : Lvl) (lq s) : source (selected b n) n ((selected b n).file n l) lq s = source b n (b.file n l) lq s := by
  obtain ⟨i, r1, r2, rc, cs, buf, h⟩ := lb_eng b n
  rw [file_selected]
  simp only [source, selected, Block.file, ctx_setCtx_same, eng_setCtx, eng_setEng_same, h, Block.lanes, Block.timer, clu_setCtx, clu_setEng, Eng.pends, Eng.tag, Eng.dividing]
  rfl

theorem cond_selected (b : Block) (n : CtxNo) (l : Lvl) (w) : cond (selected b n) n ((selected b n).file n l) w = cond b n (b.file n l) w := by
  rw [cond, cond, source_selected]
  simp only [file_selected]

@[simp] theorem ctx_selected (b n) : (selected b n).ctx n = { b.ctx n with halt := { (b.ctx n).halt with skipCmp := false, stepping := false } } := by
  simp [selected]

/-- A context that is at no step of a long instruction has no tag to drop. -/
theorem dropTag_selected {b : Block} {n : CtxNo} (h : betweenSteps (b.ctx n).act = false) : dropTag n (selected b n) = selected b n := by
  unfold dropTag
  split
  · rename_i x hx
    rw [ctx_selected] at hx
    simp only at hx
    rw [hx] at h
    exact absurd h (by simp [betweenSteps])
  · rfl

theorem inChState_units {b b' : Block} (h : b'.units = b.units) (a m : Nat) : inChState b' a m = inChState b a m := by
  unfold inChState Block.unit; rw [h]
theorem mapFault_units {b b' : Block} (h : b'.units = b.units) (p o a m) : mapFault b' p o a m = mapFault b p o a m := by
  unfold mapFault; rw [inChState_units h]

theorem bank_selected (b : Block) (n l) : ((selected b n).eng (engOf n)).bank l = (b.eng (engOf n)).bank l := by
  obtain ⟨i, r1, r2, rc, cs, buf, h⟩ := lb_eng b n
  simp only [selected, eng_setCtx, eng_setEng_same, h, Eng.bank]
theorem aluOf_selected (b : Block) (n s) : aluOf (selected b n) n s = aluOf b n s := by simp only [aluOf, file_selected, accOf]
theorem xferGet_selected (b : Block) (n s) : xferGet (selected b n) n s = xferGet b n s := by
  simp only [xferGet, file_selected, bank_selected, etCount, Block.timer, clu_selected]
  rfl
theorem laneGet_selected (b : Block) (n s) : laneGet (selected b n) n s = laneGet b n s := by
  simp only [laneGet, headQ, Block.lanes, clu_selected]
theorem dstValue_selected (b : Block) (n s) : dstValue (selected b n) n s = dstValue b n s := by
  simp only [dstValue, aluOf_selected, xferGet_selected, laneGet_selected]
theorem seqFault_selected (b : Block) (n s) : seqFault (selected b n) n s = seqFault b n s := by
  unfold seqFault; simp only [file_selected, bank_selected, clu_selected]; congr
theorem pg_selected (b : Block) (n c g) : (selected b n).pg c g = b.pg c g := by simp only [Block.pg, Block.lanes, clu_selected]
theorem shiftFault_selected (b : Block) (n s) : shiftFault (selected b n) n s = shiftFault b n s := by
  unfold shiftFault; rw [pg_selected, file_selected]; rfl
theorem dstFault_halt (p l c h o v) : dstFault p l { c with halt := h } o v = dstFault p l c o v := rfl
theorem wordFault_selected (b : Block) (n : CtxNo) (s : Snap) : wordFault (selected b n) n s = wordFault b n s := by
  unfold wordFault wordFaultAt
  rw [dstValue_selected, seqFault_selected, shiftFault_selected, file_selected]
  have hm : ∀ p o a m, mapFault (selected b n) p o a m = mapFault b p o a m := mapFault_units (units_selected b n)
  simp only [dstFault_halt, hm]

theorem snap_lvl (b n w i p) : (snapOf b n w i p).lvl = (b.ctx n).lvl := rfl

/-- an issued word performs -/
theorem issueAs_issues {b : Block} {n : CtxNo} {w : MWord} (h : Issues b n w) (p : MWord → Bool) (hp : p w = true) (hat : w.seq ≠ 7):
   issueAs p n b = perform n (snapOf b n w none false) (selected b n) := by
  obtain ⟨h1, h2, h3⟩ := h
  rw [issueAs_selects h1 p hp]
  unfold act
  rw [dropTag_selected h1.2]
  have hc := cond_selected b n (b.ctx n).lvl w
  have hw := wordFault_selected b n (snapOf b n w none false)
  have hs : (snapOf b n w none false).w = w := rfl
  simp only [snap_lvl, hs, hc, hw, h3]
  simp [h2]
  intro h; exact absurd h hat

end Sys2Proof.Machine
end

