-- ==== Sys2Proof/Laws/Memory.lean ====
section
/-! SUPPORT. Memory in canonical form: every memory operation keeps it, and a written byte reads back (R231, R254). -/

namespace Sys2Proof.Machine
open Sys2Proof

/-- Memory is in canonical form: addresses strictly rising, no byte equal to the 0 that an unlisted address reads as. -/
abbrev MemOk (b : Block) : Prop := Map.wf (fun _ => 0) b.mem = true

theorem memOk_writeByte (b : Block) (a : Nat) (v : Byte) (h : MemOk b) : MemOk (writeByte b a v) :=
  Map.wf_set (fun _ => 0) b.mem a v h

theorem memOk_writeBytesAt (l : List Byte) : ∀ (b : Block) (a : Nat), MemOk b → MemOk (writeBytesAt b a l) := by
  induction l with
  | nil => exact fun b a h => h
  | cons v l ih => exact fun b a h => ih _ _ (memOk_writeByte b a v h)

theorem memOk_memWrite (b : Block) (a : Nat) (l : List Byte) (h : MemOk b) : MemOk (memWrite b a l) :=
  memOk_writeBytesAt l b a h

theorem memOk_breakLeases (b : Block) (w : Option CtxNo) (a n : Nat) (h : MemOk b) : MemOk (breakLeases b w a n) := h

theorem memOk_of_sub {b c : Block} (h : MemOk b) (hs : c.mem.Sublist b.mem) : MemOk c := by
  rw [MemOk, Map.wf_iff] at *
  exact ⟨h.1.sublist hs, fun p hp => h.2 p (hs.subset hp)⟩

theorem memOk_clearBanks (s : SecId) (b : Block) (h : MemOk b) : MemOk (clearBanks s b) :=
  memOk_of_sub h List.filter_sublist

/-- A bulk replacement keeps an array canonical. -/
theorem Map.wf_splice {α : Type} [DecidableEq α] (d : α) (m : Map α) (lo n : Nat) (l : List α) (hn : l.length ≤ n)
    (h : Map.wf (fun _ => d) m = true) : Map.wf (fun _ => d) (Map.splice d m lo n l) = true := by
  rw [Map.wf_iff] at *
  have hz : ((List.range l.length).zip l).Pairwise (fun p q => p.1 < q.1) := by
    rw [← List.pairwise_map (f := Prod.fst) (R := fun a b => a < b), List.map_fst_zip (by simp)]
    exact List.pairwise_lt_range
  have hb : ∀ p ∈ (List.range l.length).zip l, p.1 < l.length := fun p hp =>
    List.mem_range.1 (List.of_mem_zip hp).1
  constructor
  · rw [Map.splice, List.pairwise_append, List.pairwise_append]
    refine ⟨⟨h.1.filter _, ?_, ?_⟩, h.1.filter _, ?_⟩
    · refine List.Pairwise.filterMap _ (fun p q hpq x hx y hy => ?_) hz
      split at hx
      · cases hx
      · split at hy
        · cases hy
        · cases hx; cases hy; simp only; omega
    · intro p hp q hq
      obtain ⟨r, -, hr⟩ := List.mem_filterMap.1 hq
      have hp' := (List.mem_filter.1 hp).2
      split at hr
      · cases hr
      · cases hr; simp only [decide_eq_true_eq] at hp' ⊢; omega
    · intro p hp q hq
      have hq' := (List.mem_filter.1 hq).2
      simp only [decide_eq_true_eq] at hq'
      rcases List.mem_append.1 hp with hp | hp
      · have hp' := (List.mem_filter.1 hp).2
        simp only [decide_eq_true_eq] at hp'
        omega
      · obtain ⟨r, hr, he⟩ := List.mem_filterMap.1 hp
        have hr' := hb r hr
        split at he
        · cases he
        · cases he; simp only; omega
  · intro p hp
    rw [Map.splice] at hp
    rcases List.mem_append.1 hp with hp | hp
    · rcases List.mem_append.1 hp with hp | hp
      · exact h.2 p (List.mem_filter.1 hp).1
      · obtain ⟨r, -, he⟩ := List.mem_filterMap.1 hp
        split at he
        · cases he
        · cases he; assumption
    · exact h.2 p (List.mem_filter.1 hp).1

theorem memOk_bulkWrite (a : Nat) (l : List Byte) (b : Block) (h : MemOk b) : MemOk (bulkWrite a l b) :=
  Map.wf_splice 0 b.mem a l.length l (Nat.le_refl _) h

@[simp] theorem readByte_writeByte (b : Block) (a x : Nat) (v : Byte) :
    readByte (writeByte b a v) x = if x = a then v else readByte b x := by
  simp only [readByte, writeByte]
  exact Map.get_set 0 b.mem a x v

end Sys2Proof.Machine
end

