-- ==== Sys2Proof/WellFormed.lean ====
section
/-! DEFINITION. Which operands a command may carry: the bounds that the spec gives the part each operand names. -/

namespace Sys2Proof

/-- A fetch of an image or package: LENGTH and the byte offset reached are numbers of 32 bits (R397). -/
def Fetched.wf : Fetched → Bool
  | .bytes b => decide (b.length < 2 ^ 32)
  | .failed off => decide (off < 2 ^ 32)

/-- The checks, one for each operand whose type admits more than the spec does: timer indexes 0..39 (R198), banks 0..143
(R227, R229), islands 0..71 (R439), a pause of at most 2,000 ticks (R16), lease tables 0..8 (R245), LENGTH (R397). -/
def Instr.wf : Instr → Bool
  | .timerStep _ x | .timerCompareFire _ x | .tmrCfgWrite _ _ x _ | .tmrCapLoRead _ _ x => decide (x.toNat < 40)
  | .eccWriteback b | .patrolScrub b _ => decide (b.toNat < 144)
  | .canarySample i _ | .crossingRetrain i => decide (i.toNat < 72)
  | .retrainPauseEnd i _ p => decide (i.toNat < 72) && decide (p ≤ 2000)
  | .leaseExpiry t _ => decide (t.toNat ≤ 8)
  | .loadImage f | .patchApply f => f.wf
  | _ => true

end Sys2Proof
end

