-- ==== Sys2Proof/Tests/Slice0.lean ====
section
/-! SUPPORT. Small tests: for each statement's hypotheses a state and operands that meet them, the checks of WellFormed, and
a few results that the spec works out. -/

namespace Sys2Proof.Tests

-- One theorem at a time: their evaluations together would take more threads than the memory limit allows.
set_option Elab.async false
open Sys2Proof Sys2Proof.Machine

/-! ### Small states -/

/-- A block in SERVICE whose context 0 is bound and enabled, with microword `w` at its address 16. -/
def ready (w : MWord) : Block := {
  mode := .service
  secs := [(0, { fenced := false, powered := true }), (1, { fenced := false, powered := true })]
  ctxs := [(0, { chan := some 5, upc := 16 })]
  engs := [(0, { ctxEn := 1, inReset := false })]
  clus := [(0, { state := .loaded })]
  cs := [(16, stored w)] }
/-- The same without a program of interest. -/
def base : Block := ready 0
/-- No access waits at a port of it. -/
theorem noWait {o : Origin} : ∀ x ∈ ([] : List HeldAcc), x.org ≠ o := fun _ h => absurd h List.not_mem_nil
/-- A state with no command waiting. -/
def st (b : Block) : State := { blk := b }
def ctx0 (f : Ctx → Ctx) (b : Block) : Block := b.modCtx 0 f
def eng0 (f : Eng → Eng) (b : Block) : Block := b.modEng 0 f
def clu0 (f : Clu → Clu) (b : Block) : Block := b.modClu 0 f

/-- A word with an ALU operation, a sequencer operation, a memory operation, a lane operation or an XFER alone. -/
def aluWord (op : BitVec 7) : MWord := MFields.word { aluop := op }
def accWord (op : BitVec 7) : MWord := MFields.word { aluop := op, dst := 0b100000, srca := 0b100001 }
def seqWord (op : BitVec 4) : MWord := MFields.word { seq := op, target := 20 }
def memWord (op dst srcb : BitVec 6) : MWord := MFields.word { memop := op, dst := dst, srcb := srcb, mtag := 3 }

/-- CSEL 0 with CPOL 1 is never true (R86). -/
theorem witness_AWordWhoseConditionIsFalseHasNoEffect :
    let w : MWord := MFields.word { cpol := true, aluop := 2 }
    WordRow 0 0 (.add 0 0) rowAdd ∧ rowAdd w = true ∧ Selects (ready w) 0 w ∧
      cond (ready w) 0 (fileOf (ready w) 0) w = false ∧ resumes (fileOf (ready w) 0) (lvlOf (ready w) 0) w = false ∧
      ownGroups (fun l => l == lvlOf (ready w) 0) (ready w) 0 = [] := by
  refine ⟨by simp [WordRow], ?_⟩
  decide +kernel
/-- The NOP that R86 gives, with its parity bits. -/
theorem test_nop_word : MFields.word { cpol := true } = 0x0800000000000000000000000000000000000000 ∧
    parity (MFields.word { cpol := true }) = 0b1000000000 := by decide +kernel

theorem witness_AWordActsWholeByAnyOneOfItsRows :
    WordRow 0 0 (.add 0 0) rowAdd ∧ WordRow 0 0 (.jump 0 0) rowJump ∧ canIssue base 0 = true ∧
      canIssue base 1 = false ∧ (base.ctx 0).upc.toNat ≤ 0x21FF ∧
      (let w : MWord := MFields.word { aluop := 2, seq := 1 }; rowAdd w = true ∧ rowJump w = true ∧ fetchW (ready w) 0 = w) := by
  refine ⟨by simp [WordRow], by simp [WordRow], ?_⟩
  decide +kernel

theorem witness_alu_rows : ∀ op ∈ ([0x01, 0x02, 0x03, 0x04, 0x05, 0x06, 0x07, 0x08, 0x09, 0x0A, 0x0B, 0x0C, 0x0D, 0x0E, 0x0F,
      0x10, 0x11, 0x18, 0x19, 0x1A, 0x1B, 0x1C, 0x1D, 0x20, 0x21, 0x22, 0x23, 0x24, 0x28, 0x29, 0x2A, 0x2B, 0x2C, 0x30, 0x31,
      0x32, 0x33, 0x34, 0x35, 0x40, 0x41, 0x42, 0x43] : List (BitVec 7)),
    Issues (ready (aluWord op)) 0 (aluWord op) ∧ AluAlone (aluWord op) ∧ (aluWord op).aluop = op := by decide +kernel
theorem witness_acc_rows : ∀ op ∈ ([0x44, 0x45, 0x46, 0x48, 0x49, 0x4A, 0x4B, 0x50, 0x52, 0x53] : List (BitVec 7)),
    let w := MFields.word { aluop := op, dst := 0b100000 }
    Issues (ready w) 0 w ∧ AluAlone w ∧ w.aluop = op := by decide +kernel
theorem witness_acc_source_rows : ∀ op ∈ ([0x4C, 0x4D, 0x51, 0x54] : List (BitVec 7)),
    let w := MFields.word { aluop := op, srca := 0b100000 }
    Issues (ready w) 0 w ∧ AluAlone w ∧ w.aluop = op := by decide +kernel

theorem witness_MultipliesAndDividesStartAndDeliverTheirResult :
    ((base.modCtx 0 fun c => { c with muls := [.prod 5, .mac 3 7] }).ctx (ctxNo 0 0)).muls = .prod 5 :: [.mac 3 7] ∧
    ((base.modCtx 0 fun c => { c with muls := [.mac 3 7] }).ctx (ctxNo 0 0)).muls = .mac 3 7 :: [] ∧
    ((base.modEng 0 fun g => { g with div := some { k := 0, a := 0x800000000000, b := 0xFFFFFFFFFFFF, sgn := true, lvl := .prog, fupc := 16 } }).eng 0).div =
      some { k := 0, a := 0x800000000000, b := 0xFFFFFFFFFFFF, sgn := true, lvl := .prog, fupc := 16 } := by decide +kernel

theorem witness_seq_rows : ∀ op ∈ ([0, 1, 2, 3, 5, 6, 7, 8, 9, 0xA, 0xB, 0xE] : List (BitVec 4)),
    let b := ctx0 (fun c => { c with ssp := if op = 3 then 1 else 0, lc := 1 }) (ready (seqWord op))
    Issues b 0 (seqWord op) ∧ SeqAlone (seqWord op) ∧ (seqWord op).seq = op := by decide +kernel
theorem witness_sync_and_fence :
    (let w := MFields.word { seq := 12, imm48 := 0x8 }; Issues (ready w) 0 w ∧ SeqAlone w ∧ w.seq = 12) ∧
    (let w := MFields.word { seq := 13, aux8 := 7 }; Issues (ready w) 0 w ∧ SeqAlone w ∧ w.seq = 13) := by decide +kernel

theorem witness_WaitYieldParkAndFenceStopOrPassTheContext :
    (let b := ctx0 (fun c => { c with act := .fence 7 0 }) base
     (b.ctx (ctxNo 0 0)).act = .fence 7 0 ∧ fenceHeld b (ctxNo 0 0) 7 0 = false) ∧
    (let b := ctx0 (fun c => { c with act := .wait 40 0 (some 0) 20 }) base
     (b.ctx (ctxNo 0 0)).act = .wait 40 0 (some 0) 20 ∧ source b (ctxNo 0 0) (fileOf b (ctxNo 0 0)) 0 40 = false ∧
       0 ≤ b.now ∧ b.paused_ (cluOf 0) = false) := by decide +kernel
theorem witness_SyncHoldsItsMembersUntilTheLastArrives :
    (let b := ctx0 (fun c => { c with act := .sync 7 (some 0) 20 }) base
     (b.ctx (ctxNo 0 0)).act = .sync 7 (some 0) 20 ∧ lvlOf b (ctxNo 0 0) = .prog ∧ 0 ≤ b.now ∧
       b.paused_ (cluOf 0) = false) := by decide +kernel
theorem witness_TrapAndHaltActAsTheDebugModeAndTheTrapRuleSay : ∀ m ∈ ([0, 1, 2] : List (BitVec 2)), ∀ op ∈ ([5, 14] : List (BitVec 4)),
    let w := seqWord op
    let b := eng0 (fun g => { g with dbg := { g.dbg with mode := m } }) (ready w)
    Issues b 0 w ∧ SeqAlone w ∧ w.seq = op ∧ (b.eng 0).dbg.mode = m ∧ lvlOf b 0 = .prog := by decide +kernel

/-- A word as it stopped at address 16. -/
def snap0 (w : MWord) (priv : Bool := false) : Snap := {
  w := w, upc := 16, lvl := .prog, a := 0, b := 0, accA := 0, accB := 0, ea := 0, priv := priv, inj := none, frame := [17, 0, 0, 0, 0, 0, 0, 0]
  ssp := if w.seq = 3 then 1 else 0, eupc := 0, eprog := 0, seq := 0 }
/-- A context stopped on `x`, one frame deep; the frame at 0 has return address 17, an empty mask and depth `d`. -/
def stacked (x : Act) (d : Byte) : Block := ctx0 (fun c => { c with
    act := x, ssp := 1, shadow := c.shadow.set 0 17 }) { base with mem := [(0, 17), (5, d)].filter (fun p => p.2 ≠ 0) }
theorem witness_CallAndReturnTransferTheirFrame :
    (let w : MWord := MFields.word { seq := 2 }; Issues (ready w) 0 w ∧ SeqAlone w ∧ w.seq = 2) ∧
    (let r := snap0 (seqWord 2)
     let b := ctx0 (fun c => { c with act := .call r }) base
     (b.ctx 0).act = .call r ∧ bankBehind b 0 0 (banksOf b 0 8) = false ∧ InTurn (.callFrameDone 0 ⟨0, .ok⟩) (st b) ∧ frameFault b 0 r true (frameAddr b 0 .prog 0) r.frame.length = none) ∧
    (let r := snap0 (seqWord 3)
     let b := stacked (.ret r) 0
     (b.ctx 0).act = .ret r ∧ bankBehind b 0 0 (banksOf b 0 0x68) = false ∧ frameFault b 0 r false (frameAddr b 0 .prog 0) 8 = none ∧
       ofBytes 16 ((readBytes b 0 8).take 2) = ((b.file 0 .prog).shadow[0]).setWidth 16 ∧ (nth 0 (readBytes b 0 8) 5).toNat = 0) ∧
    (let r := snap0 (seqWord 3)
     let b := stacked (.ret r) 1
     (b.ctx 0).act = .ret r ∧ bankBehind b 0 0 (banksOf b 0 0x68) = false ∧ frameFault b 0 r false (frameAddr b 0 .prog 0) 8 = none ∧ (nth 0 (readBytes b 0 8) 5).toNat ≠ 0) := by
  decide +kernel
theorem witness_AtHoldsItsWordForTheTargetTick :
    (let r := snap0 (seqWord 7)
     let b := { ctx0 (fun c => { c with act := .atWait r 16 false }) base with now := 0 }
     (b.ctx 0).act = .atWait r 16 false ∧ SeqAlone r.w ∧ allCtx.find? (fun j => atReady b (ctxNo 0 j)) = some 0 ∧ wordFault b 0 { snapOf b 0 r.w r.inj false with priv := r.priv } = none) ∧
    (let r := snap0 (seqWord 7)
     let b := ctx0 (fun c => { c with act := .atDue r 0 false }) base
     (b.ctx 0).act = .atDue r 0 false ∧ SeqAlone r.w ∧ reached b.tick 0 = true ∧ b.paused_ (cluOf 0) = false ∧
       InTurn (.atTarget 0 0) (st b)) := by decide +kernel

def exc0 (l : Lvl) (code : BitVec 6 := 0x0C) : Exc := { code := code, kind := 2, sub := 0, fupc := 16, lvl := l }
/-- Context 0 at a level with an exception pending, and the level-1 bank held or free. -/
def raised (l : Lvl) (held : Bool) (base64 : BitVec 8) : Block :=
  { eng0 (fun g => { g with xb1 := { g.xb1 with held := held } })
      (ctx0 (fun c => { c with excs := [exc0 l], lvl := l }) base) with clus := [(0, { state := .loaded, xvValid := true, xvBase := base64 })] }
theorem witness_ExceptionEntryAndReturn_entry :
    ∀ x ∈ ([(.prog, false), (.prog, true), (.bank1, true), (.bank2, true)] : List (Lvl × Bool)),
      let b := raised x.1 x.2 1
      settle 0 b = b ∧ engineLive b 0 = true ∧ haltPending b 0 = false ∧ takeable b 0 = some (exc0 x.1) ∧
        (b.ctx 0).lvl = x.1 ∧ bankTaken b 0 = x.2 ∧ InTurn (.exceptionEntry 0 0) (st b) ∧ entryFaults (b.clu 0) 0x0C = false ∧
        entryFaults (b.clu 0) 0x10 = false := by decide +kernel
theorem witness_ExceptionEntryAndReturn_grant :
    let b := eng0 (fun g => { g with waitq := [0] }) (raised .prog false 1)
    (b.eng 0).xb1.held = false ∧ firstWaiter b 0 = some 0 ∧ firstExc (b.ctx 0).excs = some (exc0 .prog) ∧
      (b.ctx 0).lvl = .prog ∧ (b.ctx 0).act = .idle ∧ (exc0 .prog).code ≠ 0x0D ∧ entryFaults (b.clu 0) 0x0C = false := by
  decide +kernel
theorem witness_ExceptionEntryAndReturn_retx : ∀ l ∈ ([.bank1, .bank2] : List Lvl),
    let w : MWord := MFields.word { seq := 4 }
    let b := ctx0 (fun c => { c with lvl := l }) (ready w)
    let b := eng0 (fun g => { g with xb1 := { g.xb1 with held := true, stat := 0x30000 }, xb2 := { g.xb2 with held := true, stat := 0x30000 } }) b
    Issues b 0 w ∧ SeqAlone w ∧ w.seq = 4 ∧ lvlOf b 0 = l := by decide +kernel
/-- A DEBUG exception with no valid monitor entry: its vector faults, that of a double fault does not. -/
theorem witness_ExceptionEntryAndReturn_vector :
    let b := ctx0 (fun c => { c with excs := [exc0 .prog 0x0E] }) (raised .prog false 1)
    settle 0 b = b ∧ takeable b 0 = some (exc0 .prog 0x0E) ∧ (b.ctx 0).lvl = .prog ∧ bankTaken b 0 = false ∧
      entryFaults (b.clu 0) 0x0E = true ∧ entryFaults (b.clu 0) 0x10 = false := by decide +kernel

/-- A memory word over an absolute address (MMODE 101, R107): the buffer, a bank's last bytes, Affix space. -/
def absWord (op dst srcb : BitVec 6) (a : Word) : MWord :=
  MFields.word { memop := op, mmode := 5, dst := dst, srcb := srcb, mtag := 31, imm48 := a }
theorem witness_MemoryAndAffixWordsLeaveTheirRequestUnderTheTag :
    (∀ op ∈ ([1, 2, 3, 4, 5, 6, 7, 0x10, 0x11, 0x12, 0x13, 0x18, 0x19, 0x1A] : List (BitVec 6)),
      let w := absWord op 0 0 0x3FFFF8
      Issues (ready w) 0 w ∧ MemAlone w ∧ w.memop = op) ∧
    (∀ op ∈ ([8, 9, 0x0A] : List (BitVec 6)), let w := absWord op 0b100000 0 0; Issues (ready w) 0 w ∧ MemAlone w ∧ w.memop = op) ∧
    (∀ op ∈ ([0x14, 0x15] : List (BitVec 6)), let w := absWord op 0 0b100000 0; Issues (ready w) 0 w ∧ MemAlone w ∧ w.memop = op) ∧
    (∀ op ∈ ([7, 0x13] : List (BitVec 6)), let w := absWord op 0 0 0x100000000; Issues (ready w) 0 w ∧ MemAlone w ∧ w.memop = op) ∧
    (let w : MWord := MFields.word { aluop := 0x7F, mtag := 31 }
     Issues (ready w) 0 w ∧ w.memop = 0 ∧ w.laneop = 0 ∧ w.xfer = 0 ∧ w.seq = 0 ∧ w.isAfx = true) := by
  refine ⟨?_, ?_, ?_, ?_, ?_⟩ <;> decide +kernel

/-- A request of context 0 under tag 31. -/
def pend0 (kind : PendKind) (a : Word) (dst : BitVec 6 := 0) (tenant : Tenant := 0) : Pend := {
  kind := kind, k := 0, ea := a, data := 0xAB, dst := dst, opc := 0, tenant := tenant, priv := false, lvl := .prog, fupc := 16, seq := 0 }
def tagged (p : Pend) : Block := eng0 (fun g => g.setTag 31 (some p)) base
def behind (p : Pend) : Bool := match p.kind with
  | .mem op => bankBehind (tagged p) 0 p.seq (banksOf (tagged p) p.ea.toNat (opSize op))
  | _ => false
theorem witness_AnAnsweredLoadWritesItsDestinationAndFreesItsTag :
    (∀ op ∈ ([1, 2, 3, 4, 5, 6, 7, 0x18, 0x19] : List (BitVec 6)),
      let p := pend0 (.mem op) 0x4000
      ((tagged p).eng 0).tag 31 = some p ∧ p.kind = .mem op ∧ (isLoadOp op = true ∨ op = 0x19) ∧
        behind p = false ∧ (tagged p).dbg.pActive = false ∧
        bankCheck (arrive (tagged p) p.tenant true (op == 0x19) 0x4000 (opSize op) (linesOf 0x4000 (opSize op)) .ce) p.tenant true (op == 0x19) 0x4000 (opSize op) = .pass) ∧
    (∀ op ∈ ([8, 9, 0x0A] : List (BitVec 6)),
      let p := pend0 (.mem op) 0x4000 0b100011
      ((tagged p).eng 0).tag 31 = some p ∧ isLoadOp op = true ∧ behind p = false ∧
        bankCheck (arrive (tagged p) p.tenant true false 0x4000 (opSize op) (linesOf 0x4000 (opSize op)) .ok) p.tenant true false 0x4000 (opSize op) = .pass ∧ isAcc p.dst = true) := by
  decide +kernel
theorem witness_AnAcceptedStoreChangesItsOwnBytesOnly :
    ∀ op ∈ ([0x10, 0x11, 0x12, 0x13, 0x14, 0x15, 0x1A] : List (BitVec 6)),
      let p := pend0 (.mem op) 0x3FF4
      ((tagged p).eng 0).tag 31 = some p ∧ p.kind = .mem op ∧ behind p = false ∧
        (op = 0x1A ∨ (0x10 ≤ op.toNat ∧ op.toNat ≤ 0x15)) ∧ (tagged p).dbg.pActive = false ∧
        InTurn (.storeAccepted 0 ⟨31, .ok⟩) (st (tagged p)) ∧
        bankCheck (tagged p) p.tenant false (op != 0x1A) 0x3FF4 (opSize op) = .pass := by decide +kernel
/-- A line of a fenced section, a page that no entry admits, a poisoned line. -/
theorem witness_ARefusedAccessRaisesItsDeferredFault :
    ∀ op ∈ ([7, 0x13, 0x19] : List (BitVec 6)),
      let load := isLoadOp op || op == 0x19
      let wr := !load || op == 0x19
      let check (b : Block) (p : Pend) := bankCheck (arrive b p.tenant load wr p.ea.toNat (opSize op)
        (if load then linesOf p.ea.toNat (opSize op) else mergeLines false p.ea.toNat (opSize op)) .ce) p.tenant load wr p.ea.toNat (opSize op)
      (let p := pend0 (.mem op) 0x3800000
       check { tagged p with secs := [(0, { fenced := false, powered := true })] } p = .bus) ∧
      (let p := pend0 (.mem op) 0x4000 0 1
       check (tagged p) p = .region ∧ partsOf 0x4000 (opSize op) = [(0x4000, opSize op)] ∧
         inFenced (tagged p) 0x4000 (opSize op) = false ∧ refusedAt (tagged p) 1 load wr 0x4000 (opSize op) = some 0x4000) ∧
      (let p := pend0 (.mem op) 0x4004
       check { tagged p with poison := [0x800] } p = .memue ∧ ((tagged p).eng 0).tag 31 = some p ∧
         behind p = false ∧ (tagged p).dbg.pActive = false) := by decide +kernel
theorem witness_AffixRequestsAreSentAnsweredOrTimedOut :
    (let b := eng0 (fun g => { g with afxQ := [31] }) base
     (b.clu 0).asleep = false ∧ b.fenced (cluSec 0) = false ∧ (0 : BitVec 3) = (b.clu 0).afxRr + 1 + BitVec.ofNat 3 0 ∧
       (b.eng (mkEng 0 0)).afxQ ≠ []) ∧
    (let p := pend0 .affix 0
     let g := (tagged p).eng 0
     (tagged p).fenced (cluSec 0) = false ∧ (tagged p).dbg.pActive = false ∧ (3 : BitVec 2) ≠ Map.get 0 g.tagGen 31 ∧
       0 = Map.get 0 g.tagGen 31 ∧ g.tag 31 = some p ∧ p.kind = .affix ∧ p.k = 0 ∧ (31 : BitVec 5) ∉ g.afxQ ∧
       p.isAffix = true ∧ dstFault p.priv p.lvl ((tagged p).file 0 p.lvl) p.dst 5 = none) := by decide +kernel

def lease0 (o : CtxNo) (a : Nat) : Lease := { unit := 0, owner := o, addr := a, expiry := 64 }
theorem witness_ReservationsAreTakenRenewedAndLost :
    unitOf 0x4000 = some 0 ∧ unitOf 0x7FFFFA = some 0 ∧
    (∃ l ∈ [lease0 1 0x4000], l.owner ≠ 0 ∧ l.addr < 0x4000 + 6 ∧ 0x4000 < l.addr + 6) ∧
    (∀ l ∈ [lease0 1 0x4006], l.owner ≠ 0 → ¬ (l.addr < 0x4000 + 6 ∧ 0x4000 < l.addr + 6)) ∧
    [lease0 0 0x4000].filter (fun l => l.owner == 0) = [lease0 0 0x4000] ∧
    ¬ (List.replicate 64 (lease0 1 0x100)).length < 64 ∧
    scHolds { base with leases := [lease0 0 0x4000] } 0 0x4000 = true ∧
    (let b := { base with leases := [lease0 0 0x4000], now := 64 }
     lease0 0 0x4000 ∈ b.leases ∧ (lease0 0 0x4000).expiry ≤ (lease0 0 0x4000).heldSince.getD b.now) := by
  refine ⟨by decide +kernel, by decide +kernel, ⟨lease0 1 0x4000, by decide +kernel⟩, ?_⟩
  decide +kernel

/-- A long word with count 1 (literal 5) or 0 (literal 4). -/
def longWord (op srcb : BitVec 6) : MWord := MFields.word { memop := op, dst := if op = 0x22 ∨ op = 0x23 then 0b100000 else 0, srcb := srcb, mtag := 31 }
theorem witness_LongOperationsRunStepByStepThroughProg_issue :
    (∀ op ∈ ([0x20, 0x21, 0x22, 0x23, 0x24] : List (BitVec 6)),
      let w := longWord op 0b110100
      let v := dropTag 0 (ready w)
      Fetches (ready w) 0 w ∧ cond v 0 (fileOf v 0) w = true ∧ wordFault v 0 (snapOf v 0 w none false) = none ∧
        w.memop = op ∧ w.seq = 0 ∧ resumes (fileOf v 0) .prog w = false) ∧
    (∀ op ∈ ([0x20, 0x21, 0x22, 0x23, 0x24] : List (BitVec 6)),
      let w := longWord op 0b110101
      let v := dropTag 0 (ready w)
      Fetches (ready w) 0 w ∧ cond v 0 (fileOf v 0) w = true ∧ wordFault v 0 (snapOf v 0 w none false) = none ∧
        w.memop = op ∧ w.seq = 0 ∧ resumes (fileOf v 0) .prog w = false) := by constructor <;> decide +kernel
def longSnap (op : BitVec 6) : Snap := { snap0 (longWord op 0b110101) with a := 0x3FFFF0, b := 65, ea := 0x1000 }
def longAt (op : BitVec 6) (p : Word) : Block :=
  ctx0 (fun c => { c with act := .longStep (longSnap op), prog := 0x802000000000 ||| p }) base
/-- A step's range passes, behind a corrected error of its first line. -/
def stepReads (op : BitVec 6) (done : Word) (wr : Bool) (a : Word) (len : Nat) (ls : List Nat) : Bool :=
  rangeFault (rangeArrive 0 (longSnap op) wr a len ls .ce (longAt op done)) 0 (longSnap op) wr a len == none
/-- The first step of 65 bytes, and the second, which ends it. -/
theorem witness_LongOperationsRunStepByStepThroughProg_step :
    (∀ op ∈ ([0x20, 0x21, 0x22, 0x23, 0x24] : List (BitVec 6)),
      ((longAt op 0).ctx 0).act = .longStep (longSnap op) ∧ (longSnap op).w.isLongMem = true ∧ (longSnap op).w.seq = 0 ∧
        (longSnap op).w.memop = op ∧ ∀ x ∈ engCmps (longAt op 0) 0, x.2.watches 0 = false) ∧
    stepReads 0x20 0 false 0x3FFFF0 64 (rowLines 0x3FFFF0 64) = true ∧
    stepReads 0x20 0 true 0x1000 64 (mergeLines true 0x1000 64) = true ∧
    stepReads 0x20 64 false 0x400030 1 (rowLines 0x400030 1) = true ∧
    stepReads 0x21 64 true 0x1040 1 (mergeLines true 0x1040 1) = true ∧
    stepReads 0x24 0 false 0x1000 64 (rowLines 0x1000 64) = true ∧
    (longSnap 0x24).a.extractLsb' 0 8 ∉ readBytes (longAt 0x24 0) 0x1000 64 ∧
    (readBytes { longAt 0x24 0 with mem := [(0x1000, 0xF0)] } 0x1000 64)[0]? = some ((longSnap 0x24).a.extractLsb' 0 8) := by
  refine ⟨?_, ?_, ?_, ?_, ?_, ?_, ?_, ?_⟩ <;> decide +kernel

def laneWord (op : BitVec 5) (lq : BitVec 4) (csel : BitVec 4 := 0) : MWord := MFields.word { laneop := op, lq := lq, imm48 := 15, csel := csel }
def queue0 (lq : BitVec 4) (l : List Word) (b : Block) : Block := b.modLanes 0 (fun x => x.setQueue lq { entries := l })
theorem witness_LaneWordsActOnTheirQueueOrLanes :
    (∀ op ∈ ([1, 2, 3, 7, 8, 9, 0x0A, 0x0B, 0x0C] : List (BitVec 5)),
      let w := laneWord op (if op = 2 ∨ op = 3 then 15 else 7)
      let b := queue0 w.lq [5] (ready w)
      Issues b 0 w ∧ LaneAlone w ∧ w.laneop = op ∧ ((b.lanes 0).queue w.lq).entries = [5] ∧ 1 < (b.lanes 0).depth w.lq) ∧
    (let w := laneWord 1 7 1
     let b := queue0 7 (List.replicate 16 5) (ready w)
     Issues b 0 w ∧ (b.lanes 0).depth w.lq ≤ ((b.lanes 0).queue w.lq).entries.length) ∧
    (let w := laneWord 2 15 1; Issues (ready w) 0 w ∧ (((ready w).lanes 0).queue w.lq).entries = []) := by
  refine ⟨?_, ?_, ?_⟩ <;> decide +kernel
theorem witness_ShiftWordsRequestOrResumeTheirPinGroup : ∀ op ∈ ([4, 5, 6] : List (BitVec 5)),
    let w := laneWord op (if op = 5 then 8 else 0)
    (Issues (ready w) 0 w ∧ w.laneop = op ∧ w.seq = 0 ∧ resumes (fileOf (ready w) 0) .prog w = false ∧
      ((ready w).pg 0 15).owner ≠ some 0) ∧
    (let b := (ctx0 (fun c => { c with prog := 0x800000000000 ||| (0x40 + op.setWidth 48) <<< 32 }) (ready w)).modPg 0 15
        (fun p => { p with owner := some 0 })
     Issues b 0 w ∧ resumes (fileOf b 0) .prog w = true ∧ (b.pg 0 15).owner = some 0) := by decide +kernel
/-- A word that has replaced a stopped SHO, its own condition false. -/
theorem witness_ShiftWordsRequestOrResumeTheirPinGroup_false : ∀ op ∈ ([4, 5, 6] : List (BitVec 5)),
    let w := MFields.word { laneop := op, lq := if op = 5 then 8 else 0, imm48 := 15, csel := 0, cpol := true }
    let b := (ready w).modPg 0 15 (fun p => { p with owner := some 0 })
    Selects b 0 w ∧ w.laneop = op ∧ cond b 0 (fileOf b 0) w = false ∧ resumes (fileOf b 0) (lvlOf b 0) w = false ∧
      ownGroups (fun x => x == lvlOf b 0) b 0 ≠ [] := by decide +kernel
def xferWord (op : BitVec 6) : MWord := MFields.word { xfer := op }
theorem witness_XferWordsReadAndWriteTheContextState :
    (∀ op ∈ ([1, 2, 3, 4, 5, 0x10, 0x13, 0x14, 0x17] : List (BitVec 6)),
      let w := xferWord op; Issues (ready w) 0 w ∧ XferAlone w ∧ w.xfer = op) ∧
    (∀ op ∈ ([6, 8, 9, 0x0A, 0x0B] : List (BitVec 6)),
      let w := xferWord op
      let b := ctx0 (fun c => { c with lvl := .bank1 }) (ready w)
      let b := eng0 (fun g => { g with xb1 := { g.xb1 with held := true, stat := 0x30000 } }) b
      Issues b 0 w ∧ XferAlone w ∧ w.xfer = op) := by
  refine ⟨?_, ?_⟩ <;> decide +kernel

/-- Timer 39 of cluster 0, running; CFG with MODE for counting up and down where `ud`. -/
def timer0 (ud down : Bool) (count rld : Word) : Block := { (base.modTimer 0 39 (fun t => { t with
    cfg := if ud then 5 else 1, down := down, count := count, rld := rld })) with now := 1 }
def counts (b : Block) : Prop := b.running 0 39 = true ∧ 2 ^ (b.timer 0 39).p.toNat ≤ b.now - (b.timer 0 39).base
theorem witness_TimersCountCompareAndRelease_step :
    (counts (timer0 false false 0 1) ∧ (0 : Word).toNat < (1 : Word).toNat) ∧ counts (timer0 false false 1 1) ∧
    counts (timer0 true false 0 0) ∧
    (counts (timer0 true false 1 1) ∧ ((timer0 true false 1 1).timer 0 39).updown = true ∧ (timer0 true false 1 1).forced = false) ∧
    (counts (timer0 true true 1 1) ∧ ((timer0 true true 1 1).timer 0 39).down = true) ∧ counts (timer0 true true 0 1) ∧
    counts (timer0 true true 0 0) := by
  simp only [counts]; decide +kernel
theorem witness_TimersCountCompareAndRelease_compare :
    ((timer0 false false 0 1).timer 0 39).armed = true ∧ ((timer0 false false 0 1).timer 0 39).armedAt < 1 ∧
    reached ((timer0 false false 0 1).timer 0 39).count ((timer0 false false 0 1).timer 0 39).cmp = true ∧
    reached ((timer0 true true 0 1).timer 0 39).cmp ((timer0 true true 0 1).timer 0 39).count = true ∧
    ¬ ((timer0 false false 2 1).timer 0 39).count.toNat ≤ ((timer0 false false 2 1).timer 0 39).rld.toNat := by decide +kernel
theorem witness_TimersCountCompareAndRelease_port (o : Origin) (h : o = .hreg ∨ o = .synCore) :
    CanLand base o (.clu 0 (0x800 + 0x18 * 39)) (.write 3) ∧ CanLand base o (.clu 0 0xBC8) (.write 1) ∧
    CanLand base o (.clu 0 (0x800 + 0x18 * 39 + 0x10)) .read ∧ CanLand base o (.inst 0x28) (.write 1) := by
  rcases h with rfl | rfl <;> exact ⟨⟨by decide, by decide, ⟨by decide, by decide⟩, trivial, noWait, trivial⟩,
    ⟨by decide, by decide, ⟨by decide, by decide⟩, trivial, noWait, trivial⟩,
    ⟨by decide, by decide, ⟨by decide, by decide⟩, trivial, noWait, trivial⟩, ⟨by decide, by decide, trivial, trivial, noWait, trivial⟩⟩
/-- The debug access port, fused in. -/
theorem witness_port_of_the_debug_port (w : Win) (h : w = .inst 0x28 ∨ w = .inst 0xB04 ∨ w = .fed 4) :
    CanLand { base with dbg := { base.dbg with fuseEn := true } } .dap w (.write 1) := by
  rcases h with rfl | rfl | rfl <;> exact ⟨by decide, by decide, trivial, trivial, noWait, by decide, by decide, by decide⟩
/-- The safety port, on its own registers. -/
theorem witness_port_of_the_safety_port (r : Nat) (a : Acc32) : CanLand base .ireg (.imp r) a :=
  ⟨by decide, by simp [shut, base, ready, inWarm, winPart, ownPath], trivial, trivial, noWait, trivial⟩
/-- A context whose window access waits. -/
theorem witness_port_of_a_context :
    let b := eng0 (fun g => g.setTag 31 (some { pend0 (.window true) 0x80000800 with data := 5 })) base
    (firstWindow (b.eng 0) 0).map (fun x => (x.2.win, x.2.acc)) = some (.inst 0x800, some (.write 5)) ∧ b.mode ≠ .off ∧
      shut b (.ctx 0 0) (.inst 0x800) = false := by decide +kernel
theorem witness_TimersCountCompareAndRelease_release :
    (let b := { base with now := 5, fab := { base.fab with goAt := some 5 } }
     b.fab.goAt = some 5 ∧ 5 ≤ b.now) ∧
    (let b := { base with now := 5, tick := 5, fab := { base.fab with goatAt := some 4, goTick := 5 } }
     b.fab.goAt = none ∧ b.fab.goatAt = some 4 ∧ 4 < b.now ∧ reached b.tick b.fab.goTick = true) ∧
    (let b := ctx0 (fun c => { c with act := .wait 0 0 none 20 }) base
     (b.ctx 0).act = .wait 0 0 none 20 ∧ source b 0 (fileOf b 0) 0 0 = true ∧ source b 0 (fileOf b 0) 0 40 = false) := by
  decide +kernel
theorem witness_EventsEnterTheFabricAndDriveThePins :
    (base.mode ≠ .off) ∧
    (let c : PinChange := { n := 31, at_ := 0, stamp := 0, toggle := true }
     let d : PinChange := { n := 31, at_ := 0, stamp := 0, toggle := false }
     [c].find? (fun c => c.n == 31) = some c ∧ [d].find? (fun c => c.n == 31) = some d ∧ d.at_ ≤ base.now) ∧
    (let b := { base with now := 4, fab := { base.fab with pulseEnd := [(31, 4)] } }
     Map.get 0 b.fab.pulseEnd 31 ≠ 0 ∧ Map.get 0 b.fab.pulseEnd 31 ≤ b.now) ∧
    (let b := { base with tick := 1000000000 }
     b.tick.toNat % 1000000000 = 0 ∧ b.fab.ticksecAt ≠ some b.now) := by decide +kernel

/-- A block whose channel 0x7F (of engine 0) has a valid state block, its WAKE all set. -/
def withChan (b : Block) : Block := { b with mem := [(csbAddr b 0x7F + 8, 0xFF), (csbAddr b 0x7F + 9, 1), (csbAddr b 0x7F + 10, 1)] }
theorem witness_ChannelsMoveAndEventsReachTheirLatches :
    (∀ i ch, ({ stamp := 0, at_ := 0, ev := .num 0x3FF } : Stamped).ev ≠ .chan i ch) ∧
    (base.fenced (secOf (homeOf 0x7F)) = false ∧ csbValid base 0x7F = false ∧ csbValid (withChan base) 0x7F = true ∧
      residentIn (withChan base) 0x7F = none ∧ residentIn (withChan (ctx0 (fun c => { c with chan := some 0x7F }) base)) 0x7F = some 0 ∧
      (base.ctx 0).act = .idle) ∧
    (parked (withChan base) 0x7F = true ∧ (csbWake (withChan base) 0x7F).getLsbD 8 = true ∧
      reached (withChan base).tick (csbWakeat (withChan base) 0x7F) = true) ∧
    (let b := ctx0 (fun c => { c with act := .park 0 511 }) base
     (b.ctx 0).act = .park 0 511 ∧ (b.ctx 0).chan = some 5 ∧ parkReady b 0 = true) ∧
    (let b := eng0 (fun g => { g with rdyLo := [0x7F] }) (ctx0 (fun c => { c with chan := none }) base)
     engineLive b 0 = true ∧ (b.ctx 0).chan = none ∧ (b.ctx 0).act = .idle ∧ (b.eng 0).dbg.haltReq = false ∧
       (b.eng 0).halted = false ∧ (b.eng 0).ctxEn.getLsbD 0 = true ∧ ((b.eng 0).rdyHi ++ (b.eng 0).rdyLo).head? = some 0x7F) ∧
    (let b := ctx0 (fun c => { c with act := .swap (some (5, 0, 511)) (some 0x7F) }) base
     (b.ctx 0).act = .swap (some (5, 0, 511)) (some 0x7F) ∧
       csbFails (csbRead (csbAddr b 5) (csbAddr b 5 + 8) 8 .ok b) (csbAddr b 5) (csbAddr b 5 + 8) 8 = false ∧
       csbFails (csbRead (csbAddr b 5) (csbAddr b 5 + 8) 8 .ue b) (csbAddr b 5) (csbAddr b 5 + 8) 8 = true) ∧
    (let b := ctx0 (fun c => { c with chan := none, act := .swap none (some 0x7F) }) base
     (b.ctx 0).act = .swap none (some 0x7F) ∧ csbFails (csbRead (csbAddr b 0x7F) (csbAddr b 0x7F) 256 .ok b) (csbAddr b 0x7F) (csbAddr b 0x7F) 256 = false) := by
  refine ⟨by intro i ch; simp, ?_, ?_, ?_, ?_, ?_, ?_⟩ <;> decide +kernel

/-- A store whose word 16 has failed its parity, with a repair begun or ended. -/
def repairing (ended : Bool) (policy : BitVec 2) : Block :=
  clu0 (fun v => { v with repairs := [{ addr := 16, ended := ended }], policy := policy }) base
theorem witness_ControlStoreChecksRepairsAndPatches :
    (canIssue base 0 = true ∧ (base.ctx 0).upc.toNat ≤ 0x21FF ∧ (fetchP base 0 16 ^^^ 1).bad ≠ 0) ∧
    (∀ e ∈ [true, false], ∀ p ∈ ([0, 1, 2, 3] : List (BitVec 2)),
      ((repairing e p).clu 0).repairs.find? (fun r => r.ended == e) = some { addr := 16, ended := e } ∧
        ((repairing e p).clu 0).state = .loaded ∧ ((repairing e p).clu 0).runs = true ∧ ((repairing e p).clu 0).policy = p ∧
        ((repairing e p).clu 0).pmRepair = false ∧ ((repairing e p).clu 0).outAt = none ∧
        Map.wf (fun _ => (repairing e p).now + 1) ((repairing e p).clu 0).lastRepair = true ∧
        goldenWord (repairing e p) ((repairing e p).clu 0).body 16 true true = none) ∧
    (∀ i, base.isGone (partEng (mkEng 0 i)) = false) ∧
    (let b := clu0 (fun v => { v with pmWait := 0x81 }) base
     (b.eng 0).halted = false ∧ b.fenced (secOf 0) = false ∧ (b.clu 0).pmWait.getLsbD 0 = true ∧
       putBit (b.clu 0).pmWait 0 false ≠ 0) ∧
    (let b := clu0 (fun v => { v with pmWait := 1, pmRepair := true }) base
     putBit (b.clu 0).pmWait 0 false = 0 ∧ (b.clu 0).pmRepair = true) ∧
    ((clu0 (fun v => { v with rbusy := true }) base).clu 0).rbusy = true := by
  refine ⟨?_, ?_, ?_, ?_, ?_, ?_⟩ <;> decide +kernel
theorem witness_ControlStoreChecksRepairsAndPatches_port :
    CanLand base .hreg (.clu 0 0x40C) (.write 0x21FF) ∧ CanLand base .hreg (.eng 0 0x20) (.write 0x80000000) :=
  ⟨⟨by decide, by decide, ⟨by decide, by decide⟩, trivial, noWait, trivial⟩, ⟨by decide, by decide, ⟨by decide, by decide⟩, trivial, noWait, trivial⟩⟩

/-- One corrected line of the first and the last bank waits for its write-back; every section is in service. -/
def banks0 : Block := { base with
  secs := (List.range 8).map (fun s => (s, { fenced := false, powered := true })), wbs := [0, 0x83FFFF] }
theorem witness_BanksCountScrubAndWriteBack :
    (banks0.mode ≠ .off ∧ banks0.fenced 7 = false ∧ bankLive banks0 0 = true ∧ bankLive banks0 143 = true) ∧
    banks0.wbs.find? (fun l => bankOf banks0 (8 * l) == 0) = some 0 ∧
    banks0.wbs.find? (fun l => bankOf banks0 (8 * l) == 143) = some 0x83FFFF ∧
    (let b := banks0.modUnit 8 (fun m => { m with scrubEn := true })
     bankLive b 143 = true ∧ (b.unit 8).scrubEn = true) ∧ 0x41FFFFF < 0x4200000 := by
  refine ⟨?_, ?_, ?_, ?_, ?_⟩ <;> decide +kernel

/-- Context 0 holds pin group 15 with a shift word; what the group has done is `f`. -/
def shiftBlock (op : BitVec 5) (f : PinGroup → PinGroup) : Block :=
  (queue0 0 [0xABC] (ctx0 (fun c => { c with act := .shift (snap0 (laneWord op (if op = 5 then 8 else 0))) }) base)).modPg 0 15
    (fun p => f { p with owner := some 0, op := op, lq := if op = 5 then 8 else 0, bits := 1 })
theorem witness_PinGroupsShiftAndCapture :
    (let r : ShiftReq := { n := 0, g := 15, op := 4, lq := 0, bits := 256, done := 0, lvl := .prog, at_ := 0 }
     let l : Lanes := { reqs := [r] }
     (grantable l 0).find? (fun r => r.g == 15) = some r ∧ l.reqs = r :: [] ∧ blocked l 0 r = false) ∧
    (∀ op ∈ ([4, 5, 6] : List (BitVec 5)),
      let b := shiftBlock op id
      let p := (b.lanes 0).pg 15
      let q := (b.lanes 0).queue (p.lq &&& 7)
      p.owner = some 0 ∧ shifting b 0 15 0 = true ∧ p.stopped = false ∧ p.began = none ∧ p.done < p.bits ∧ p.notBefore ≤ b.now ∧
        (p.op = 5 ∨ (q.entries ≠ [] ∧ q.pos.toNat + pgW p.dA ≤ 48)) ∧ ((b.lanes 0).queue ((p.lq &&& 7) ||| 8)).back = none ∧
        takeable b 0 = none ∧ (b.ctx 0).inj = none ∧ haltPending b 0 = false ∧ b.paused_ 0 = false) ∧
    (∀ op ∈ ([4, 5, 6] : List (BitVec 5)),
      let b := { shiftBlock op (fun p => { p with began := some 0 }) with now := 8 }
      let p := (b.lanes 0).pg 15
      p.owner = some 0 ∧ p.began = some 0 ∧ 0 + pgPer p.dA p.dB ≤ b.now ∧
        (b.ctx 0).act = .shift (snap0 (laneWord op (if op = 5 then 8 else 0))) ∧ cluOf (engOf 0) = 0) ∧
    (∀ op ∈ ([4, 5, 6] : List (BitVec 5)),
      let b := shiftBlock op (fun p => { p with done := 1 })
      let p := (b.lanes 0).pg 15
      shifting b 0 15 0 = true ∧ p.stopped = false ∧ p.began = none ∧ p.bits ≤ p.done ∧
        (p.op = 4 ∨ (((b.modLanes 0 (closeQueues p)).lanes 0).queue ((p.lq &&& 7) ||| 8)).back = none)) ∧
    (base.mode ≠ .off ∧ (1 : BitVec 16) ≠ (base.lanes 0).levels) := by
  refine ⟨?_, ?_, ?_, ?_, ?_⟩ <;> decide +kernel
theorem witness_PinGroupsShiftAndCapture_port : ∀ r ∈ ([0xC10, 0xC84 + 56, 0xC20 + 60, 0xC20, 0xE00 + 240] : List Nat), ∀ a,
    CanLand base .hreg (.clu 0 r) a := by
  intro r hr a
  simp only [List.mem_cons, List.not_mem_nil, or_false] at hr
  rcases hr with rfl | rfl | rfl | rfl | rfl <;> exact ⟨by decide, by decide, ⟨by decide, by decide⟩, trivial, noWait, trivial⟩

def injected (w : MWord) (halted : Bool) : Block :=
  ctx0 (fun c => { c with inj := some { w := w, sys := true, src := .hreg }, halt := { c.halt with halted := halted } }) base
theorem witness_InjectedWordsAndContextRegisters :
    injReady (injected (MFields.word { seq := 2 }) false) 0 (MFields.word { seq := 2 }) = true ∧
    injReady (injected (MFields.word { seq := 2 }) true) 0 (MFields.word { seq := 2 }) = true ∧
    injReady (injected (MFields.word { cpol := true }) false) 0 (MFields.word { cpol := true }) = true ∧
    injReady (injected 0 false) 0 0 = true ∧
    cond base 0 (fileOf base 0) (MFields.word { cpol := true }) = false ∧
    (wordFault base 0 (snapOf base 0 (MFields.word { seq := 2 }) (some 2) true)).isSome = true ∧
    (let m := ctx0 (fun c => { c with inj := none }) (injected 0 true)
     cond m 0 (m.file 0 .prog) 0 = true ∧ wordFault m 0 (snapOf (injected 0 true) 0 0 (some 2) true) = none) ∧
    (ownGroups (fun _ => true) base 0 = [] ∧ (base.lanes 0).reqs.any (fun q => q.n == 0) = false ∧ (base.ctx 0).act = .idle) := by
  refine ⟨rfl, rfl, rfl, rfl, ?_, ?_, ?_, ?_⟩ <;> decide +kernel
/-- How the exceptions of a word injected at program level are counted: of its effects, or of its sequencer operation too. -/
def injExc (w : MWord) : Option Exc :=
  let b := eng0 (fun g => { g with dbg := { g.dbg with mode := 2 } }) (injected w false)
  let m := (ctx0 (fun c => { c with inj := none }) b).modEng 0 (fun g => { g with issue := g.issue.count b.now 1 })
  let r := snapOf b 0 w (some 2) true
  let u := if (newExc (m.ctx 0) ((injEffects 0 r m).ctx 0)).isSome then injEffects 0 r m else injSeq 0 r (injEffects 0 r m)
  newExc (m.ctx 0) (u.ctx 0)
/-- Under debug mode MONITOR a NOP raises nothing, a HALT its DEBUG exception. -/
theorem witness_InjectedWordsAndContextRegisters_raise :
    injExc 0 = none ∧ (injExc (MFields.word { seq := 14 })).isSome = true := by decide +kernel
theorem witness_InjectedWordsAndContextRegisters_port : ∀ r ∈ ([0x3C, 0x100 + 0x30 * 15, 0xE0, 0xB0, 0x08] : List Nat), ∀ a,
    CanLand base .hreg (.eng 0 r) a ∧ CanLand base .synCore (.eng 0 r) a := by
  intro r hr a
  simp only [List.mem_cons, List.not_mem_nil, or_false] at hr
  rcases hr with rfl | rfl | rfl | rfl | rfl <;>
    exact ⟨⟨by decide, by decide, ⟨by decide, by decide⟩, trivial, noWait, trivial⟩, ⟨by decide, by decide, ⟨by decide, by decide⟩, trivial, noWait, trivial⟩⟩
/-- The engine was reset in this tick. -/
theorem witness_InjectedWordsAndContextRegisters_reset :
    let b := { base with dbg := { base.dbg with fuseEn := true }, gone := [partEng 0] }
    b.mode ≠ .off ∧ b.dbg.bus = none ∧ b.held = [] ∧ b.isGone (partEng 0) = true ∧ b.fenced (secOf 0) = false := by decide +kernel

/-- DMA channel 3 with a set of direction `dir`, running, with one credit. -/
def dma0 (dir : Reg32) (f : Dma → Dma) : Block := base.modChan 3 (fun d => f { d with
  st := .run, credits := 1, act := { d.act with cfg := dir, count := 2 } })
/-- The premises of the issue of a beat, and of the end of a local read, in a direction. -/
def dmaGoes (dir : Reg32) : Bool :=
  let b := dma0 dir id
  dmaMayIssue b 3 && ledgered b 3 == .issue && !(dmaThrottled 3 b) && (b.chan 3).act.cfg.extractLsb' 0 2 == dir.extractLsb' 0 2 &&
    (b.chan 3).released == 0 && (b.chan 3).credits != 0
def dmaReads (dir : Reg32) : Bool :=
  let b := dma0 dir (fun d => { d with out := [{ idx := 0, stage := .localRead }] })
  decide (beatStage (b.chan 3) 0 = some .localRead) && decide (bankCheck b 0 true false 0 64 = .pass) &&
    decide (bankCheck b 1 true false 0 64 = .region)
theorem witness_DmaBeatsMoveTheirBytes_issue : dmaGoes 0 = true ∧ dmaGoes 1 = true ∧ dmaGoes 2 = true := by
  refine ⟨?_, ?_, ?_⟩ <;> decide +kernel
theorem witness_DmaBeatsMoveTheirBytes_read : dmaReads 1 = true ∧ dmaReads 2 = true := by
  refine ⟨?_, ?_⟩ <;> decide +kernel
theorem witness_DmaBeatsMoveTheirBytes_write :
    let b := dma0 0 (fun d => { d with out := [{ idx := 1, stage := .localWrite [1, 2] }] })
    beatStage (b.chan 3) 1 = some (.localWrite [1, 2]) ∧ bankCheck b (b.chan 3).act.tenant false true 64 2 = .pass ∧
      bankCheck { b with poison := [8] } (b.chan 3).act.tenant false true 64 2 = .memue := by decide +kernel
theorem witness_DmaBeatsMoveTheirBytes_settle :
    (let b := dma0 0 (fun d => { d with failed := [(1, 5)] })
     (b.chan 3).out = [] ∧ (b.chan 3).st = .run ∧ (b.chan 3).aborting = false ∧ lowestFailed (b.chan 3).failed = some (1, 5) ∧
       (b.chan 3).item = none) ∧
    (let b := dma0 0 (fun d => { d with started := true, act := { d.act with count := 0 } })
     (b.chan 3).out = [] ∧ (b.chan 3).failed = [] ∧ (b.chan 3).started = true ∧ (b.chan 3).act.count = 0) := by
  refine ⟨?_, ?_⟩ <;> decide +kernel
theorem witness_DmaChannelsAreControlledAndHandedOver :
    (let b := { base.modChan 3 (fun d => { d with arm := true }) with now := 1 }
     dmaLive b 3 = true ∧ (b.chan 3).st = .idle ∧ (b.chan 3).arm = true ∧ (b.chan 3).armAt < b.now ∧
       badSet b (b.chan 3).sh = true ∧ partnerGone b (b.chan 3).sh = false) ∧
    (let b := { base with con := { base.con with rings := [] } }.modFed (fun d => d.modPair 0 (fun q => { q with lost := true }))
     let b := writeRow0 0 { ringRec b 0 with ctl := 0x20 } b
     partnerGone b { (b.chan 3).sh with cfg := 0x20 } = true) ∧
    (let b := base.modChan 3 (fun d => { d with arm := true, sh := { d.sh with cfg := 0x3FF00000, count := 1 } })
     badSet b (b.chan 3).sh = false ∧ (b.chan 3).sh.cfg.getLsbD 5 = false) := by
  refine ⟨?_, ?_, ?_⟩ <;> decide +kernel
theorem witness_DmaChannelsAreControlledAndHandedOver_port : ∀ r, ∀ a, CanLand base .hreg (.dma 3 r) a := by
  intro r a; exact ⟨by decide, by simp [shut, winPart, ownPath, inWarm, Block.isGone, base, ready]; decide, trivial, trivial, noWait, trivial⟩
def req0 (u : HostUser) : HostReq := { user := u, addr := 0, tenant := 0, data := [], at_ := 0 }
theorem witness_HostPortsMatchAnswersToRequests :
    (let b := { base.modPort true (fun h => { h with reads := [(1023, some (req0 (.dma 3 0)))], rdGen := [(1023, 3)]
                                                     writes := [(1023, some (req0 (.dma 3 0)))], wrGen := [(1023, 3)] }) with now := 1048576 }
     Map.get none (b.port true).reads 1023 = some (req0 (.dma 3 0)) ∧
       Map.get 0 (b.port true).rdGen 1023 = (0xFFF : BitVec 12).extractLsb' 10 2 ∧
       Map.get 0 (b.port true).rdGen 1023 ≠ (0x3FF : BitVec 12).extractLsb' 10 2 ∧
       Map.get none (b.port true).writes 1023 = some (req0 (.dma 3 0)) ∧
       Map.get 0 (b.port true).wrGen 1023 = (0xFFF : BitVec 12).extractLsb' 10 2 ∧
       Map.get none (b.port true).reads 0 = none ∧ (req0 (.dma 3 0)).at_ + 1048576 ≤ b.now) ∧
    base.dbg.pActive = false ∧
    (let b := dma0 0 (fun d => { d with out := [{ idx := 0, stage := .hostRead }] })
     (req0 (.dma 3 0)).user = .dma 3 0 ∧ beatStage (b.chan 3) 0 = some .hostRead) ∧
    (let b := dma0 0 (fun d => { d with item := some (7, 1), out := [{ idx := 0, stage := .hostWrite }] })
     beatStage (b.chan 3) 0 = some .hostWrite ∧ (b.chan 3).item = some (7, 1)) := by
  refine ⟨?_, ?_, ?_, ?_⟩ <;> decide +kernel

/-- Ring 0 ACTIVE with 64 slots and a window of 64, its record changed by `f`; entry 0 with a state. -/
def ringed (f : RingRec → RingRec) (b : Block) : Block :=
  writeRow0 0 (f { ringRec b 0 with st := 1, size := 6, win := 6 }) b
def entried (st : BitVec 3) (b : Block) : Block := writeEntry 0 { entryOf b 0 with st := st, chan := 5, jhead := 0x1FFF } b
theorem witness_RingsFetchAcceptAndReportTheirHead_fetch :
    let b := (ringed id base).modRing 0 (fun q => { q with tail := 3 })
    InTurn (.descriptorFetch 0) (st b) ∧ b.mode = .service ∧ ringState (healRing 0 b) 0 = 1 ∧
      (b.ring 0).quiet = false ∧ (b.ring 0).hosterr.on = false ∧ (b.ring 0).tail = 3 ∧ (ringRec b 0).next = 0 ∧
      min (min 4 3) (min (2 ^ (ringRec b 0).win.toNat - (0 - winBase b 0).toNat) 64) = 3 ∧
      b.dbg.pActive = false ∧ (ringRec b 0).ctl.getLsbD 0 = false ∧ ((healRing 0 b).port false).reads = [] := by decide +kernel
theorem witness_RingsFetchAcceptAndReportTheirHead_commit : ∀ ctl ∈ ([0, 0x20] : List Byte),
    let b := (ringed (fun v => { v with ctl := ctl }) base).modRing 0 (fun q => { q with fetches := [{ first := 0, n := 1, left := 0 }] })
    InTurn (.descriptorCommit 0) (st b) ∧ (b.ring 0).fetches = { first := 0, n := 1, left := 0 } :: [] ∧ b.mode.retires = true ∧
      ringState b 0 = 1 ∧ (b.ring 0).hosterr.on = false ∧ (ringRec (healRing 0 b) 0).ctl.getLsbD 5 = decide (ctl ≠ 0) := by
  decide +kernel
theorem witness_RingsFetchAcceptAndReportTheirHead_accepted :
    (entryOf (entried 4 (ringed id base)) 0).st = 4 ∧ (entryOf (entried 1 (ringed id base)) 0).st = 1 := by decide +kernel
theorem witness_RingsFetchAcceptAndReportTheirHead_head :
    let b := (ringed id base).modRing 0 (fun q => { q with headDirty := true })
    InTurn (.acceptHeadWrite 0) (st b) ∧ ((healRing 0 b).ring 0).headDirty = true ∧ ((healRing 0 b).ring 0).headOut = false ∧
      (healRing 0 b).mode.retires = true ∧ ((healRing 0 b).ring 0).hosterr.on = false ∧ (healRing 0 b).dbg.pActive = false ∧
      (ringRec (healRing 0 b) 0).ctl.getLsbD 0 = false ∧ ((healRing 0 b).port false).writes = [] := by decide +kernel
/-- A doorbell on an ACTIVE ring that advances the tail by 3, and one on a ring that is NONE. -/
theorem witness_RingsFetchAcceptAndReportTheirHead_doorbell :
    (let b := healRing 0 (ringed id base)
     let v := ringRec b 0
     ringState b 0 = 1 ∧ ¬ 2 ^ 31 ≤ ((3 : Reg32) - (b.ring 0).tail).toNat ∧ ¬ 2 ^ v.size.toNat < ((3 : Reg32) - v.ret.extractLsb' 0 32).toNat) ∧
    ringState (healRing 0 base) 0 = 0 := by decide +kernel
theorem witness_RingsFetchAcceptAndReportTheirHead_port (tail : Reg32) : CanLand base .hreg (.ring 0xFFF 0) (.write tail) :=
  ⟨by decide, by decide, trivial, trivial, noWait, trivial⟩

/-- A transfer to host memory for the item in entry 0: it appends to the journal. -/
def journaled : Block := entried 2 (ringed id (dma0 1 (fun d => { d with item := some (0, 1), act := { d.act with cfg := 1 } })))
theorem witness_ItemsAreTakenCompletedRetiredAndReplayed_complete : ∀ x ∈ ([(3, 0), (4, 0x20)] : List (BitVec 3 × Byte)),
    let b := entried x.1 (ringed (fun v => { v with next := 1, ctl := x.2 }) base)
    let m := healRing 0 b
    InTurn (.completionRecordWrite 0) (st b) ∧ b.mode.retires = true ∧ (ringRec m 0).st ≠ 0 ∧
      (ringRec m 0).ctl.getLsbD 6 = false ∧ (m.ring 0).hosterr.on = false ∧ (m.ring 0).sent = [] ∧ (m.ring 0).okd = [] ∧
      (ringRec m 0).ret = 0 ∧ (ringRec m 0).next = 1 ∧ (ringRec m 0).entry 0 = 0 ∧ (entryOf (healEntry 0 m) 0).st = x.1 ∧
      (entryOf (healEntry 0 m) 0).actsets = 0 ∧ (m.fed.pair 0).lost = false ∧ ringRec (healEntry 0 m) 0 = ringRec m 0 := by
  decide +kernel
theorem witness_ItemsAreTakenCompletedRetiredAndReplayed_retire :
    let b := entried 3 (ringed id base)
    let b1 := healRing 0 b
    (ringRec b1 0).entry (ringRec b1 0).ret = 0 ∧ (entryOf (healItem 0 b1) 0).jcount = 0 ∧ (ringRec b1 0).ctl.getLsbD 5 = false := by decide +kernel
theorem witness_ItemsAreTakenCompletedRetiredAndReplayed_retry : ∀ acc ∈ ([.fetch 0 1, .head] : List RingAccess),
    let b := (ringed id base).modRing 0 (fun q => { q with retries := [{ acc := acc, tries := 1, data := [], due := some 0 }] })
    InTurn (.hostRetry 0) (st b) ∧
      (((healRing 0 b).ring 0).retries.find? (fun t => match t.due with
        | some d => decide (d ≤ (healRing 0 b).now)
        | none => false)) = some { acc := acc, tries := 1, data := [], due := some 0 } := by decide +kernel
theorem witness_ItemsAreTakenCompletedRetiredAndReplayed_replay :
    let b := (entried 5 (ringed id base)).modCon (fun c => { c with held := [0] })
    InTurn (.replay 0) (st b) ∧ 0 ∈ (healEntry 0 b).con.held ∧ (entryOf (healEntry 0 b) 0).st = 5 ∧
      (entryOf (healEntry 0 b) 0).actsets = 0 := by decide +kernel
theorem witness_ItemsAreTakenCompletedRetiredAndReplayed_refetch :
    let b := (entried 2 (ringed id base)).modCon (fun c => { c with missing := [0] })
    InTurn (.payloadRefetch 0) (st b) ∧ 0 ∈ (healEntry 0 b).con.missing ∧ 0 ∉ (healEntry 0 b).con.refetch ∧
      (entryOf (healEntry 0 b) 0).st = 2 := by decide +kernel
theorem witness_ItemsAreTakenCompletedRetiredAndReplayed_append :
    (healBeat 3 journaled).chan 3 = journaled.chan 3 ∧ ((healBeat 3 journaled).chan 3).item = some (0, 1) ∧
      dmaMayIssue (healBeat 3 journaled) 3 = true ∧ ledgered (healBeat 3 journaled) 3 = .append ∧
      InTurn (.journalAppend 3) (st journaled) := by decide +kernel
theorem witness_ItemsAreTakenCompletedRetiredAndReplayed_port (d : Reg32) :
    CanLand base .hreg (.inst 0x800) .read ∧ CanLand base .hreg (.inst 0x810) (.write d) ∧
      CanLand base .hreg (.ring 0 0xC) (.write 0x10) :=
  ⟨⟨by decide, by decide, trivial, trivial, noWait, trivial⟩, ⟨by decide, by decide, trivial, trivial, noWait, trivial⟩,
    ⟨by decide, by decide, trivial, trivial, noWait, trivial⟩⟩

/-- Journal records that are all in use. -/
def journal : List (Nat × Byte) := (List.range 8192).map (fun j => (0x4080001 + 16 * j, 0x20))
def fullOf (b : Block) : Block := { b with mem := b.mem ++ journal }
/-- The block has no journal record and no poisoned line. -/
abbrev noJournal (b : Block) : Prop := (∀ x ∈ b.mem, ¬ (0x4080001 ≤ x.1 ∧ x.1 < 0x40A0001)) ∧ b.poison = []
def full0 : Block := fullOf journaled
theorem journal_get (l : List Nat) (k : Byte) (j : Nat) (h : j ∈ l) :
    Map.get k (l.map (fun j => (0x4080001 + 16 * j, 0x20))) (0x4080001 + 16 * j) = 0x20 := by
  induction l with
  | nil => cases h
  | cons a l ih =>
    simp only [List.map_cons, Map.get]
    split
    · rfl
    · exact ih ((List.mem_cons.mp h).resolve_left (by intro e; subst e; contradiction))
theorem get_append {α : Type} (d : α) (l m : Map α) (k : Nat) (h : ∀ x ∈ l, x.1 ≠ k) : Map.get d (l ++ m) k = Map.get d m k := by
  induction l with
  | nil => rfl
  | cons a l ih =>
    rw [List.cons_append, Map.get, if_neg (h a (List.mem_cons_self ..))]
    exact ih (fun x hx => h x (List.mem_cons_of_mem _ hx))
theorem full_used (b : Block) (hn : noJournal b) (j : BitVec 13) : (jrnOf (fullOf b) j).st ≠ 0 := by
  have hp : poisoned (fullOf b) (dpr (offJrn j)) 16 = false := by
    have : (fullOf b).poison = [] := hn.2
    simp [poisoned, this]
  have hb : readByte (fullOf b) (dpr (offJrn j) + 1) = 0x20 := by
    have hl := hn.1
    have e : dpr (offJrn j) + 1 = 0x4080001 + 16 * j.toNat := by simp only [dpr, offJrn]; omega
    have hf : (fullOf b).mem = b.mem ++ journal := rfl
    rw [readByte, e, hf, get_append _ _ _ _ (fun x hx => by
      have := hl x hx; have := j.isLt; omega)]
    have hj : j.toNat ∈ List.range 8192 := by rw [List.mem_range]; exact j.isLt
    rw [journal, journal_get _ _ _ hj]
  have hs : ∀ x : Byte, (BitVec.ofNat 16 (x.toNat + 256 * 32)).extractLsb' 13 2 ≠ 0 := by decide +kernel
  have := hs (readByte (fullOf b) (dpr (offJrn j)))
  simpa [jrnOf, mread, hp, readBytes, Jrn.dec, fieldAt, ofBytes, natOfBytes, List.range_succ, hb] using this
theorem touch_same (spine wr : Bool) (a n : Nat) (b : Block) :
    (touch spine wr a n b).mem = b.mem ∧ (touch spine wr a n b).poison = b.poison := by
  unfold touch
  generalize dprLines a n = ls
  induction ls generalizing b with
  | nil => exact ⟨rfl, rfl⟩
  | cons l ls ih =>
    rw [List.foldl_cons]
    refine ⟨(ih _).1.trans ?_, (ih _).2.trans ?_⟩ <;> simp only [noteTouch, meet] <;> split <;> (try split) <;> rfl
/-- With no poisoned line the Concord unit's reads leave memory as it stands. -/
theorem heal_same (r kind idx off n) (b : Block) (h : b.poison = []) :
    (healRead r kind idx off n b).mem = b.mem ∧ (healRead r kind idx off n b).poison = [] := by
  have ht := touch_same true false (dpr off) n b
  have hp : poisoned (touch true false (dpr off) n b) (dpr off) n = false := by simp [poisoned, ht.2, h]
  simp only [healRead, hp]
  exact ⟨ht.1, ht.2.trans h⟩
theorem healItem_same (e : BitVec 13) (b : Block) (h : b.poison = []) :
    (healItem e b).mem = b.mem ∧ (healItem e b).poison = [] := by
  have h1 := heal_same (entryRing b e) 1 e (offEntry e) 32 b h
  unfold healItem
  simp only [healEntry]
  generalize healRead (entryRing b e) 1 e (offEntry e) 32 b = c at h1
  generalize itemChain c e = js
  rw [← h1.1]
  have h2 := h1.2
  clear h1
  induction js generalizing c with
  | nil => exact ⟨rfl, h2⟩
  | cons j js ih =>
    rw [List.foldl_cons]
    have h3 := heal_same (entryRing c e) 2 j (offJrn j) 16 c h2
    exact ⟨(ih _ h3.2).1.trans h3.1, (ih _ h3.2).2⟩
theorem healBeat_same (n : BitVec 8) (b : Block) (h : b.poison = []) :
    (healBeat n b).mem = b.mem ∧ (healBeat n b).poison = [] := by
  unfold healBeat
  split
  · rename_i e _ _
    have hi := healItem_same e b h
    have h4 := heal_same (entryOf b e).ring 0 ((entryOf b e).ring.setWidth 13) (offRing (entryOf b e).ring) 64 _ hi.2
    exact ⟨h4.1.trans hi.1, h4.2⟩
  · exact ⟨rfl, h⟩
theorem freeRecord_congr (b c : Block) (hm : b.mem = c.mem) (hp : b.poison = c.poison) : freeRecord b = freeRecord c := by
  unfold freeRecord jrnOf mread poisoned readBytes readByte
  rw [hm, hp]
theorem full_none (b c : Block) (hn : noJournal b) (hm : c.mem = (fullOf b).mem) (hp : c.poison = []) : freeRecord c = none := by
  rw [freeRecord_congr c (fullOf b) hm (hp.trans hn.2.symm)]
  rw [freeRecord, List.find?_eq_none]
  intro j _
  simpa using full_used b hn j
theorem witness_ItemsAreTakenCompletedRetiredAndReplayed_full :
    ((healBeat 3 full0).chan 3).item = some (0, 1) ∧ dmaMayIssue (healBeat 3 full0) 3 = true ∧
      ledgered (healBeat 3 full0) 3 = .append ∧ InTurn (.journalAppend 3) (st full0) ∧ freeRecord (healBeat 3 full0) = none := by
  refine ⟨by decide +kernel, by decide +kernel, by decide +kernel, by decide +kernel, ?_⟩
  have h := healBeat_same 3 full0 (by decide +kernel)
  exact full_none journaled _ (by decide +kernel) h.1 h.2

/-- Instance 3 has joined; port 1 is up and leads to instance 4 over one hop; the pair with it is `q`. -/
def joined0 (q : Pair) (f : Fed → Fed) : Block := base.modFed (fun d => f { d with
  instId := 3, joined := true, ports := [(1, { st := .up })], routes := [(4, mkRoute 1 1)], pairs := [(4, q)] })
/-- Three flits to instance 4 that it has not acknowledged. -/
def sent0 : Pair := { next := 3, buf := [{ num := 0, flit := 0, port := 1 }, { num := 1, flit := 0, port := 1 }, { num := 2, flit := 0, port := 1 }] }
def flit4 (ty flags : Byte) (dst : BitVec 9) (pay : List Byte) : Flit := mkFlit ty flags 4 dst 0 0 pay
theorem witness_FlitsAreForwardedAcceptedInOrderAndResent_drop : ∀ st' ∈ ([.up, .loopback] : List LinkState),
    let b := (joined0 {} id).modFed (fun d => { d with ports := [(1, { st := st' })] })
    let f := flit4 1 0 3 [] ^^^ 1
    b.mode ≠ .off ∧ (b.fed.port 1).st = st' ∧ flitGood f = false ∧ InTurn (.flitCrcDrop 1 f) (st b) := by decide +kernel
theorem witness_FlitsAreForwardedAcceptedInOrderAndResent_forward : ∀ ty ∈ ([1, 2, 3, 4, 5, 7, 9] : List Byte),
    let f := flit4 ty 0 4 []
    flitGood f = true ∧ fType f = ty.toNat ∧ fDst f ≠ 3 ∧ fHops f ≠ 0 ∧ fHops (withHops f 0) = 0 ∧ flitGood (withHops f 0) = true ∧
      fDst (withHops f 0) ≠ 3 := by decide +kernel
theorem witness_FlitsAreForwardedAcceptedInOrderAndResent_route :
    let b := joined0 {} id
    rtValid (b.fed.route 4) = true ∧ (b.fed.port (rtPort (b.fed.route 4))).carries = true ∧ rtValid (b.fed.route 5) = false := by
  decide +kernel
theorem witness_FlitsAreForwardedAcceptedInOrderAndResent_accept : ∀ ty ∈ ([1, 3, 4, 5, 7] : List Byte),
    let b := joined0 sent0 id
    let f := flit4 ty 0 3 []
    b.mode ≠ .off ∧ (b.fed.port 1).st = .up ∧ flitGood f = true ∧ fDst f = b.fed.instId ∧ b.fed.joined = true ∧
      (b.fed.pair (fSrc f)).taken = false ∧ fType f = ty.toNat ∧ InTurn (.data 1 f) (st b) ∧
      (let m := ackArrive 4 (fAck f) b
       fSeq f = (m.fed.pair 4).rxNext ∧ namedNum (m.fed.pair 4) f = some 0 ∧ freeRxSlot m.fed = some 0) ∧
      fSeq f ≠ ((joined0 { sent0 with rxNext := 1 } id).fed.pair 4).rxNext ∧ namedNum ((joined0 {} id).fed.pair 4) f = none ∧
      (joined0 sent0 (fun d => { d with joined := false })).fed.joined = false ∧
      ((joined0 { sent0 with taken := true } id).fed.pair 4).taken = true := by decide +kernel
theorem get_all (l : List Nat) (k : Nat) (h : k ∈ l) : Map.get false (l.map (fun i => (i, true))) k = true := by
  induction l with
  | nil => cases h
  | cons a l ih =>
    simp only [List.map_cons, Map.get]
    split
    · rfl
    · exact ih ((List.mem_cons.mp h).resolve_left (by intro e; simp_all))
theorem witness_FlitsAreForwardedAcceptedInOrderAndResent_busy :
    freeRxSlot { slots := (List.range 2048).map (fun i => (i, true)) } = none := by
  have : ∀ k ∈ List.range 2048, Map.get false ((List.range 2048).map (fun i => (i, true))) k = true := fun k h => get_all _ k h
  simp only [freeRxSlot, Option.map_eq_none_iff, List.find?_eq_none]
  intro k h; rw [this k h]; decide
theorem witness_FlitsAreForwardedAcceptedInOrderAndResent_resend :
    (let b := { joined0 sent0 id with now := 0x100 }
     (b.fed.pair 4).buf ≠ [] ∧ rtLost (b.fed.route 4) = false ∧ (b.fed.pair 4).resends < b.fed.maxRetx ∧
       (b.fed.pair 4).busy = none ∧ b.now < (b.fed.pair 4).sentAt + b.fed.rto ∧ (b.fed.pair 4).nakAt = none ∧
       (b.fed.port (rtPort (b.fed.route 4))).carries = true ∧ InTurn (.retransmitTimeout 4) (st b)) ∧
    (let b := { joined0 { sent0 with resends := 255, nakAt := some 1 } id with now := 0x100000 }
     b.fed.maxRetx ≤ (b.fed.pair 4).resends ∧ (b.fed.pair 4).sentAt + b.fed.rto ≤ b.now ∧
       (b.fed.pair 4).nakAt = some 1 ∧ 1 + b.fed.rto ≤ b.now) ∧
    (let b := joined0 { sent0 with busy := some (1, 0), nakAt := some 0, ackDue := some 0 } id
     (b.fed.pair 4).busy = some (1, 0) ∧ 0 ≤ b.now ∧ (b.fed.pair 4).nakAt = some 0 ∧ b.now < 0 + b.fed.rto ∧
       (b.fed.pair 4).ackDue ≠ none ∧ InTurn (.ackSend 4) (st b)) := by
  refine ⟨?_, ?_, ?_⟩ <;> decide +kernel

theorem witness_MessagesAreSentDeliveredTakenAndFreed_send :
    (let b := joined0 {} id
     b.fed.joined = true ∧ (b.fed.route 4).getLsbD 2 = true ∧ (b.fed.route 4).getLsbD 7 = false ∧ b.fed.alarm = false ∧
       rtValid (b.fed.route 4) = true ∧ rtLost (b.fed.route 4) = false ∧ (b.fed.pair 4).buf.length < 512 ∧ (b.fed.pair 4).wait = [] ∧
       (b.fed.port (rtPort (b.fed.route 4))).carries = true) ∧
    rtValid ((joined0 {} id).fed.route 5) = false ∧ (joined0 {} (fun d => { d with alarm := true })).fed.alarm = true ∧
    ((ctx0 id base).ctx (ctxNo 0 0)).chan = some 5 := by
  refine ⟨?_, ?_, ?_, ?_⟩ <;> decide +kernel
def waiting0 : TxWait := { num := 3, flit := 0, org := some 0, at_ := 0 }
theorem witness_MessagesAreSentDeliveredTakenAndFreed_full :
    let b := { joined0 { sent0 with next := 4, wait := [waiting0] } id with now := 4097 }
    (4, b.fed.pair 4) ∈ b.fed.pairs ∧ waiting0 ∈ (b.fed.pair 4).wait ∧ waiting0.org = some (orgKey .hreg) ∧
      waiting0.at_ + 4096 < b.now ∧ InTurn (.txFull .hreg) (st b) := by decide +kernel
def timed0 (alarm held : Bool) (due : Tick) : Block :=
  joined0 {} (fun d => { d with timed := [{ slot := 7, due := due, chan := 5, held := held }], alarm := alarm })
theorem witness_MessagesAreSentDeliveredTakenAndFreed_alarm :
    (timed0 true false 0).fed.alarm = true ∧ ((timed0 true false 0).tick - (0 : Tick)).toNat < 2 ^ 47 := by decide +kernel
theorem witness_MessagesAreSentDeliveredTakenAndFreed_held :
    (timed0 false true 1).fed.alarm = false ∧ (timed0 false true 1).fed.timed = [{ slot := 7, due := 1, chan := 5, held := true }] ∧
      (timed0 false true 1).fed.calmAt ≠ some (timed0 false true 1).now ∧ InTurn (.timedDelivery 7) (st (timed0 false true 1)) ∧
      ((timed0 false true 1).modFed (fun d => { d with calmAt := some 0 })).fed.calmAt = some (timed0 false true 1).now := by
  decide +kernel
theorem witness_MessagesAreSentDeliveredTakenAndFreed_early :
    ¬ ((timed0 false false 1).tick - (1 : Tick)).toNat < 2 ^ 47 ∧ (timed0 false false 1).fed.alarm = false := by decide +kernel
theorem witness_MessagesAreSentDeliveredTakenAndFreed_port : (∀ v, CanLand base .hreg (.fed 0x74) (.write v)) ∧
    CanLand base .hreg (.fed 0x80) .read ∧ ∀ v, CanLand base .hreg (.fed 0x84) (.write v) :=
  ⟨fun _ => ⟨by decide, by decide, trivial, trivial, noWait, trivial⟩, ⟨by decide, by decide, trivial, trivial, noWait, trivial⟩,
    fun _ => ⟨by decide, by decide, trivial, trivial, noWait, trivial⟩⟩

/-- Instance 3 with one port, and the master that port 1 has announced. -/
def ported (x : LinkState) (asked joined : Bool) : Block :=
  joined0 {} (fun d => { d with joined := joined, ports := [(1, { st := x, asked := asked })] })
def ann0 : Announced := { prio := 0, id := 2, hops := 0, at_ := 0 }
def announced0 : Fed := { instId := 3, joined := true, ports := [(1, { st := .up, ann := some ann0 })] }
def joinFlit (code : Byte) (i : BitVec 9) : Flit := mkFlit 8 0 5 3 0 0 ([code, 0] ++ bytesOf 2 (i.setWidth 16))
/-- The premises of a JOIN of a code from an instance that is known, which is 4, or not. -/
def joins (code : Byte) (i : BitVec 9) : Bool :=
  let b := joined0 {} id
  let f := joinFlit code i
  flitGood f && fType f == 8 && (fPay 8 f 0 1 : Byte) == code && (fPay 9 f 2 2 : BitVec 9) == i &&
    rtValid (b.fed.route i) == (i == 4) && !(b.fed.pair 5).taken && !(b.fed.pair i).taken && !(rtLost (b.fed.route i)) && b.fed.instId != i && decide (InTurn (.join 1 f) (st b))
theorem witness_InstancesJoinLeaveRouteAndElectTheirMaster_ports :
    ((ported .down false true).fed.port 1).st = .down ∧ (ported .down false true).mode ≠ .off ∧
    (∀ x ∈ ([(false, true), (true, false), (false, false)] : List (Bool × Bool)),
      let b := ported .training x.1 x.2
      (b.fed.port 1).st = .training ∧ b.fed.joined = x.2 ∧ (b.fed.port 1).asked = x.1 ∧ (b.fed.port 1).accepted = false ∧
        InTurn (.linkTrained 1) (st b)) ∧ ((ported .up false true).fed.port 1).st ≠ .down := by
  refine ⟨?_, ?_, ?_, ?_⟩ <;> decide +kernel
theorem witness_InstancesJoinLeaveRouteAndElectTheirMaster_join :
    joins 1 4 = true ∧ joins 1 5 = true ∧ joins 2 5 = true ∧ joins 3 5 = true := by refine ⟨?_, ?_, ?_, ?_⟩ <;> decide +kernel
theorem witness_InstancesJoinLeaveRouteAndElectTheirMaster_flits : ∀ ty ∈ ([6, 9] : List Byte),
    flitGood (flit4 ty 0 3 []) = true ∧ fType (flit4 ty 0 3 []) = ty.toNat ∧ fDst (flit4 ty 0 3 []) = (joined0 {} id).fed.instId ∧
      (joined0 {} id).fed.joined = true ∧ ((joined0 {} id).fed.port 1).st = .up ∧
      ((joined0 {} id).fed.pair (fSrc (flit4 ty 0 3 []))).taken = false ∧
      ((joined0 { taken := true } id).fed.pair (fSrc (flit4 ty 0 3 []))).taken = true := by decide +kernel
theorem witness_InstancesJoinLeaveRouteAndElectTheirMaster_offer :
    let b := joined0 {} id
    (5 : BitVec 9) ≠ b.fed.instId ∧ (b.fed.pair 5).taken = false ∧ rtValid (b.fed.route 5) = false ∧
      rtValid (b.fed.route 4) = true ∧ rtLost (b.fed.route 4) = false ∧ rtHops (b.fed.route 4) < 2 := by decide +kernel
theorem announced0_only : ∀ p, (announced0.port p).ann = if p = 1 then some ann0 else none := by decide +kernel
theorem witness_InstancesJoinLeaveRouteAndElectTheirMaster_elect :
    (∀ p a, (({} : Fed).port p).ann = some a → ({} : Fed).prio.toNat * 512 + ({} : Fed).instId.toNat ≤ a.prio.toNat * 512 + a.id.toNat) ∧
    (announced0.port 1).ann = some ann0 ∧ (announced0.port 1).st = .up ∧
    ann0.prio.toNat * 512 + ann0.id.toNat < announced0.prio.toNat * 512 + announced0.instId.toNat ∧ ann0.hops < 16 ∧
    ∀ o c, (announced0.port o).ann = some c → c = ann0 ∧ o = 1 := by
  refine ⟨fun p a h => ?_, by decide +kernel, by decide +kernel, by decide +kernel, by decide +kernel, fun o c h => ?_⟩
  · exact absurd h (by simp [Fed.port, Map.get])
  · rw [announced0_only] at h
    split at h
    · exact ⟨(Option.some.inj h).symm, by assumption⟩
    · cases h
theorem witness_InstancesJoinLeaveRouteAndElectTheirMaster_rounds :
    let b := { base.modFed (fun _ => announced0) with now := 196609 }
    b.fed.joined = true ∧ b.fed.annAt + 65536 ≤ b.now ∧ (b.fed.port 1).ann = some ann0 ∧ ann0.at_ + 196608 < b.now ∧
      InTurn .masterTimeout (st b) ∧ InTurn .announceRound (st b) := by decide +kernel

/-- Instance 3 follows the master over port 1, which is up. -/
def follower (f : Fed → Fed) : Block :=
  { joined0 {} (fun d => f { d with parent := some 1 }) with now := 3000000 }
theorem witness_ExchangesDisciplineTimeAndCrossingsAreRetrained_send :
    let b := follower id
    b.fed.parent = some 1 ∧ (b.fed.port 1).st = .up ∧ b.fed.master = false ∧ b.fed.syncAt + 1024 ≤ b.now ∧
      InTurn (.tsyncSend 0) (st b) ∧ (joined0 {} id).fed.parent = none := by decide +kernel
theorem witness_ExchangesDisciplineTimeAndCrossingsAreRetrained_flits : ∀ ty ∈ ([0x10, 0x11] : List Byte),
    flitGood (flit4 ty 0 3 []) = true ∧ fType (flit4 ty 0 3 []) = ty.toNat := by decide +kernel
theorem witness_ExchangesDisciplineTimeAndCrossingsAreRetrained_answer :
    (fPay 16 (flit4 0x11 0 3 []) 8 2 : BitVec 16) = (follower id).fed.xseq ∧ (follower id).fed.joined = true ∧
      (fPay 16 (flit4 0x11 0 3 []) 8 2 : BitVec 16) ≠ (follower (fun d => { d with xseq := 1 })).fed.xseq ∧
      ((follower id).fed.pair (fSrc (flit4 0x11 0 3 []))).taken = false ∧ (follower id).fed.master = false ∧
      InTurn (.tresp 1 (flit4 0x11 0 3 []) 0) (st (follower (fun d => { d with alarm := true }))) := by decide +kernel
/-- An instance that joins over port 1: its parent has accepted it, or has not. -/
theorem witness_ExchangesDisciplineTimeAndCrossingsAreRetrained_step : ∀ yes ∈ [true, false],
    let b := follower (fun d => { d with joined := false, ports := [(1, { st := .up, asked := true, accepted := yes })] })
    b.fed.joined = false ∧ (b.fed.port 1).asked = true ∧ (b.fed.port 1).accepted = yes ∧ (∀ o, (b.fed.port o).refused = false) ∧
      InTurn (.tresp 1 (flit4 0x11 0 3 []) 0) (st b) := by decide +kernel
theorem witness_ExchangesDisciplineTimeAndCrossingsAreRetrained_theta :
    ((2 : BitVec 52) - 0).toInt - ((4 : BitVec 52) - 4).toInt - (0 : BitVec 16).toInt = 2 ∧
      (0 : Int) ≤ ((16 : BitVec 52).toNat : Int) + (-16) := by decide +kernel
theorem witness_ExchangesDisciplineTimeAndCrossingsAreRetrained_alarm :
    (64 < (65 : Int).natAbs ∧ 32 < (64 : Int).natAbs ∧ (64 : Int).natAbs ≤ 64 ∧ (32 : Int).natAbs ≤ 32) ∧
    (follower id).fed.alarm = false ∧ (follower (fun d => { d with alarm := true, good := 7 })).fed.alarm = true ∧
    8 ≤ (follower (fun d => { d with alarm := true, good := 7 })).fed.good + 1 := by decide +kernel
theorem witness_ExchangesDisciplineTimeAndCrossingsAreRetrained_holdover :
    let b := follower (fun d => { d with holdSince := some 999999 })
    b.fed.holdSince = some 999999 ∧ b.fed.alarm = false ∧ 999999 + 2000000 < b.now ∧ InTurn .holdoverAlarm (st b) ∧
      (follower id).fed.holdSince = none := by decide +kernel
def cal0 : Calib := { samples := 1024, young := false, value := 51200, last := 59, trimmed := true, retrainAt := some 2999999 }
theorem witness_ExchangesDisciplineTimeAndCrossingsAreRetrained_link :
    let b := follower (fun d => { d with ports := [(1, { st := .up, cal := cal0 })] })
    let e := follower (fun d => { d with ports := [(1, { st := .loopback, cal := { cal0 with busy := true } })] })
    (b.fed.port 1).st = .up ∧ (b.fed.port 1).cal.busy = false ∧ drifted 8192 cal0 = true ∧ drifted 8192 { cal0 with last := 50 } = false ∧
      InTurn (.linkRetrain 1) (st b) ∧ (e.fed.port 1).st = .loopback ∧ (e.fed.port 1).cal.busy = true ∧
      cal0.retrainAt = some 2999999 ∧ b.now < 2999999 + 1000000 ∧ ({} : Calib).retrainAt = none := by decide +kernel
theorem witness_ExchangesDisciplineTimeAndCrossingsAreRetrained_crossing :
    let b := { follower id with xing := [(71, cal0)] }
    let t := { b with mode := .trim }
    xingLive b 71 = true ∧ Map.get none b.paused 71 = none ∧ b.mode = .service ∧ t.mode = .trim ∧ drifted 512 (b.crossing 71) = true ∧
      drifted 512 ({ cal0 with last := 50 }) = false ∧ InTurn (.crossingRetrain 71) (st b) ∧ InTurn (.canarySample 71 50) (st t) ∧
      (b.crossing 71).sampledAt.all (fun t => decide (t + 1024 ≤ b.now)) = true ∧ ¬ 2999999 + 1024 ≤ b.now ∧
      Map.get none [(63, some 4)] 63 = some 4 ∧ Map.get none [(71, some 4)] 71 = some 4 := by decide +kernel
theorem witness_ExchangesDisciplineTimeAndCrossingsAreRetrained_samples :
    (({} : Calib).young = true ∧ ({} : Calib).samples ≠ 1023) ∧ (cal0.young = false ∧ cal0.samples ≠ 0) ∧
      ({ cal0 with want := 65 } : Calib).trimmed = true := by decide

/-- Ring 0 is mirrored with instance 4, or a copy of one of instance 4's; the pair with it is `q`. -/
def mirrored0 (ctl : Byte) (q : Pair) (now : Nat) : Block :=
  { (ringed (fun v => { v with ctl := ctl, partner := 4 }) (joined0 q id)).modCon (fun c => { c with ranges := [(0, 64, 0)] }) with now := now }
/-- The premises on a MIRROR flit of instance 4 with a kind and a row. -/
def mirrors (kind row : Byte) : Bool :=
  let f := flit4 2 0 3 [kind, row, 0, 0]
  flitGood f && fType f == 2 && fDst f == 3 && (fPay 8 f 0 1 : Byte) == kind && (fPay 8 f 1 1 : Byte) == row &&
    (fPay 12 f 2 2 : BitVec 12) == 0 && fSeq f == 0 && fAck f == 0 && fSrc f == 4
theorem witness_MirroredRingsFollowTheirPartner_flit :
    mirrors 1 1 = true ∧ mirrors 1 0 = true ∧ mirrors 2 0 = true ∧ mirrors 3 0 = true := by
  refine ⟨?_, ?_, ?_, ?_⟩ <;> decide +kernel
theorem witness_MirroredRingsFollowTheirPartner_state :
    let b := mirrored0 0x40 {} 0
    let m := heardFrom 4 (ackArrive 4 0 b)
    b.mode ≠ .off ∧ (b.fed.port 1).st = .up ∧ b.fed.instId = 3 ∧ b.fed.joined = true ∧ (b.fed.pair 4).taken = false ∧
      (m.fed.pair 4).rxNext = 0 ∧ ((mirrored0 0x40 { rxNext := 1 } 0).fed.pair 4).rxNext ≠ 0 ∧
      (ringRec m 0).ctl.getLsbD 6 = true ∧ (ringRec m 0).peer = 4 ∧ (ringRec (mirrored0 0x20 {} 0) 0).ctl.getLsbD 6 = false ∧
      InTurn (.mirror 1 (flit4 2 0 3 [1, 1, 0, 0])) (st b) := by decide +kernel
theorem witness_MirroredRingsFollowTheirPartner_entry :
    (Entry.dec [0, 0, 0, 0, 0, 0, 0, 0, 0, 0, 0, 0, 0, 0, 1]).st ≠ 0 ∧ (entryOf (mirrored0 0x40 {} 0) 0).st = 0 ∧
      (entryOf (healItem 0 (entried 2 (mirrored0 0x40 {} 0))) 0).st ≠ 0 ∧
      (entryOf (healItem 0 (entried 2 (mirrored0 0x40 {} 0))) 0).csn = (Entry.dec [0, 0, 0, 0, 0, 0, 0, 0, 0, 0, 0, 0, 0, 0, 1]).csn ∧
      (Entry.dec []).st = 0 := by decide +kernel
theorem witness_MirroredRingsFollowTheirPartner_journal :
    (let b := healItem 0 (appendJrn 0 7 3 1 2 0 (entried 2 (mirrored0 0x40 {} 0)))
     findJrn b 0 2 3 = some 7 ∧ findJrn b 0 2 4 = none ∧ freeRecord b = some 0) ∧
    findJrn (healItem 0 (fullOf (mirrored0 0x40 {} 0))) 0 0 0 = none ∧
      freeRecord (healItem 0 (fullOf (mirrored0 0x40 {} 0))) = none := by
  refine ⟨by decide +kernel, by decide +kernel, ?_⟩
  have h := healItem_same 0 (fullOf (mirrored0 0x40 {} 0)) (by decide +kernel)
  exact full_none _ _ (by decide +kernel) h.1 h.2
theorem witness_MirroredRingsFollowTheirPartner_heartbeat :
    let b := mirrored0 0x20 {} 0x200000
    b.fed.joined = true ∧ (b.fed.pair 4).lost = false ∧ mirroredTo b 4 ≠ [] ∧ mirroredTo b 5 = [] ∧ rtValid (b.fed.route 4) = true ∧ rtLost (b.fed.route 4) = false ∧
      (b.fed.pair 4).beatAt + (b.fed.cfg.extractLsb' 16 8).toNat * 16384 / 8 ≤ b.now ∧
      (b.fed.pair 4).heard + (b.fed.cfg.extractLsb' 16 8).toNat * 16384 ≤ b.now ∧ InTurn (.heartbeatSend 4) (st b) ∧
      InTurn (.partnerLoss 4) (st b) ∧ ((mirrored0 0x20 { lost := true } 0).fed.pair 4).lost = true := by decide +kernel
theorem witness_MirroredRingsFollowTheirPartner_takeover :
    let b := mirrored0 0x40 {} 0x300000
    b.fed.joined = true ∧ (b.fed.pair 4).taken = false ∧ copiesOf b 4 ≠ [] ∧
      (b.fed.pair 4).heard + 2 * ((b.fed.cfg.extractLsb' 16 8).toNat * 16384) + 1048576 ≤ b.now ∧
      InTurn (.takeover 4) (st b) ∧ copiesOf b 5 = [] := by decide +kernel

/-- The Syntax core READY with a request of `req` in pair 0, which waits in its queue or runs. -/
def commanded (req : List Byte) (run : Option Running) (b : Block) : Block :=
  (b.modMbx 0 (fun m => { m with req := (List.range 16).map (fun k => (k, ofBytes 32 ((req.drop (4 * k)).take 4))) })).modSyn
    (fun y => { y with st := .ready, queue := if run.isNone then [0] else [], run := run })
/-- A request: its code, its length, and its parameters. -/
def request (opc len : Nat) (ps : List Byte) : List Byte :=
  bytesOf 2 (BitVec.ofNat 16 opc) ++ [0, 0] ++ bytesOf 2 (BitVec.ofNat 16 len) ++ [0, 0] ++ ps ++ List.replicate (56 - ps.length) 0
/-- The premises on a command that acts, queued and running. -/
def acts (opc len : Nat) (mode : Mode) (ps : List Byte → List Param) (args : List Byte) (i : Instr) : Bool :=
  let x : Running := { pair := 0, since := 0, stage := 1 }
  let q : Block := { commanded (request opc len args) none base with mode := mode }
  let r := commanded (request opc len args) (some x) base
  decide (q.mode ≠ .off) && decide (q.syn.st = .ready) && decide (q.syn.run = none) && decide (q.syn.queue = [0]) &&
    rqN (reqOf q 0) 0 2 == opc && rqN (reqOf q 0) 4 2 == len && decide (badParam (reqOf q 0) (ps (reqOf q 0)) = none) &&
    decide (InTurn i (st q)) && decide (r.syn.run = some x) && rqN (reqOf r 0) 0 2 == opc
/-- The premises on a command that is turned away for its length, its mode or a parameter. -/
def refusedAs (opc len : Nat) (ps : List Byte → List Param) (args : List Byte) : Bool :=
  let q := commanded (request opc len args) none base
  (badParam (reqOf q 0) (ps (reqOf q 0))).isSome && rqN (reqOf q 0) 0 2 == opc && rqN (reqOf q 0) 4 2 == len &&
    rqN (reqOf (commanded (request opc (len + 1) args) none base) 0) 4 2 != len
def rebinds0 (x : Option Binding) : Block :=
  (commanded [] none (withChan base)).modSyn (fun y => { y with rebinds := [{ chan := 0x7F, cause := 1 }], binds := [(0x7F, x)] })
theorem witness_MailboxesEventsAndRegistersAnswer_run :
    acts 1 0 .service (fun _ => []) [] .queryVersion = true ∧ refusedAs 1 0 (fun _ => []) [1] = true := by
  refine ⟨?_, ?_⟩ <;> decide +kernel
theorem witness_MailboxesEventsAndRegistersAnswer_late : ∀ x ∈ ([(2, 2), (0xA, 1), (0xF, 1), (0x11, 1), (1, 0)] : List (Nat × Nat)),
    let r : Running := { pair := 0, since := 0, stage := x.2 }
    let c := { commanded (request x.1 0 []) (some r) base with now := 100000000 }
    let b := c.modMbx 0 (fun m => { m with st := 2 })
    b.syn.run = some r ∧ (b.mbx 0).st = 2 ∧ (c.mbx 0).st ≠ 2 ∧ b.sup.stopped = false ∧ rqN (reqOf b 0) 0 2 = x.1 ∧ 0 + 100000000 ≤ b.now ∧ 0 + rqN (reqOf b 0) 0xA 4 ≤ b.now ∧
      0 + rqN (reqOf b 0) 0x20 4 ≤ b.now := by decide +kernel
theorem witness_MailboxesEventsAndRegistersAnswer_post :
    let b := (commanded [] none base).modSyn (fun y => { y with evq := [{ kind := 3, stamp := 0, data := [] }], beatAt := 0 })
    b.mode ≠ .off ∧ b.syn.st = .ready ∧ b.syn.posted = none ∧ b.syn.evackAt ≠ some b.now ∧ b.syn.evq.length = 1 ∧
      InTurn .eventPost (st b) ∧ b.syn.beatAt + 1000000 ≤ ({ b with now := 1000000 } : Block).now := by decide +kernel
theorem witness_MailboxesEventsAndRegistersAnswer_rebind :
    (let b := rebinds0 none
     takesCommands b ∧ b.syn.rebinds.find? (fun x => x.chan == 0x7F) = some { chan := 0x7F, cause := 1 } ∧ bindable b 0x7F = true ∧
       Map.get none b.syn.binds 0x7F = none) ∧
    ∀ x, Map.get none (rebinds0 (some x)).syn.binds 0x7F = some x := by
  refine ⟨⟨⟨by decide +kernel, by decide +kernel⟩, by decide +kernel, by decide +kernel, by decide +kernel⟩, fun x => rfl⟩
theorem witness_MailboxesEventsAndRegistersAnswer_port : ∀ a,
    CanLand base .hreg (.mbx 63 0x80) a ∧ CanLand base .hreg (.syn 0x0C) a ∧ CanLand base .hreg (portWin .hreg 0x010000) a ∧
      CanLand base .synCore (.inst 0) a := by
  intro a
  exact ⟨⟨by decide, by decide, trivial, trivial, noWait, trivial⟩, ⟨by decide, by decide, trivial, trivial, noWait, trivial⟩,
    ⟨by decide, by decide, trivial, trivial, noWait, trivial⟩, ⟨by decide, by decide, trivial, trivial, noWait, trivial⟩⟩
theorem witness_MailboxesEventsAndRegistersAnswer_window :
    base.mode ≠ .off ∧ base.syn.cfg.getLsbD 6 = true ∧ tirPair 0xB0 = some (0x16, true) ∧ shut base .hreg (.tir 0xB0) = false ∧
      shut base .hreg (tirAlias 0xB0) = false ∧ (tirAlias 0xB0).cluster = none ∧ (3 : BitVec 24).extractLsb' 0 2 ≠ 0 ∧
      ((base.modOrg 1 (fun r => { r with tirPair := some 2 })).orgRegs 1).tirPair = some 2 := by decide +kernel

def modePs : List Byte → List Param := fun _ => [(8, 1, fun v => decide (v < 8)), (9, 1, fun _ => true)]
def ringPs (r : List Byte) : List Param :=
  [(0x08, 2, fun v => decide (v < 4096)), (0x0A, 1, fun v => decide (4 ≤ v ∧ v ≤ 16)),
   (0x0B, 1, fun v => decide (v ≤ 12 ∧ v ≤ rqN r 0x0A 1)), (0x0C, 1, fun v => decide (v < 16)),
   (0x0D, 1, fun v => decide (BitVec.ofNat 8 v &&& 0xE2 = 0)), (0x0E, 2, fun _ => true), (0x10, 8, fun v => decide (v % 64 = 0)),
   (0x18, 8, fun v => decide (v % 32 = 0)), (0x20, 8, fun v => decide (v % 8 = 0)),
   (0x28, 2, fun v => decide (v % 2 ^ min (rqN r 0x2C 1) 8 = 0)),
   (0x2A, 2, fun v => decide (v = 0xFFFF ∨ v % 2 ^ min (rqN r 0x2C 1) 8 = 0)), (0x2C, 1, fun v => decide (v < 9)),
   (0x30, 4, fun _ => true)]
theorem witness_ModeSectionRingAndFederationCommands_modes :
    acts 2 2 .service modePs [7, 0xFF] .modeReq = true ∧ refusedAs 2 2 modePs [8, 0] = true ∧
      acts 5 2 .service (fun _ => [(8, 1, fun v => decide (v < 8)), (9, 1, fun v => decide (v < 2))]) [7, 1] .fenceSection = true ∧
      acts 6 1 .service (fun _ => [(8, 1, fun v => decide (v < 8))]) [7] .unfenceSection = true := by
  refine ⟨?_, ?_, ?_, ?_⟩ <;> decide +kernel
theorem witness_ModeSectionRingAndFederationCommands_rings :
    acts 7 44 .service ringPs [0xFF, 0xF, 4, 4] .ringCreate = true ∧ refusedAs 7 44 ringPs [0, 0, 4, 5] = true ∧
      acts 8 3 .quiesce (fun _ => [(8, 2, fun v => decide (v < 4096)), (0xA, 1, fun v => decide (v < 2))]) [0, 0, 1] .ringDestroy = true ∧
      acts 9 8 .service (fun _ => [(8, 2, fun v => decide (v < 4096)), (0xA, 1, fun v => decide (v < 2)),
        (0xC, 2, fun v => decide (v < 512)), (0xE, 2, fun _ => true)]) [0, 0, 1] (.ringMirror .none) = true := by
  refine ⟨?_, ?_, ?_, ?_⟩ <;> decide +kernel
theorem witness_ModeSectionRingAndFederationCommands_federation :
    acts 0xA 4 .trim (fun _ => [(8, 2, fun v => decide (v < 512)), (0xA, 1, fun _ => true),
        (0xB, 1, fun v => decide (1 ≤ v ∧ v ≤ 15))]) [0, 0, 0, 1] .federateJoin = true ∧
      acts 0xB 0 .quiesce (fun _ => []) [] .federateLeave = true ∧
      acts 0xC 8 .load (fun _ => [(8, 6, fun _ => true)]) [1] .timeSet = true := by
  refine ⟨?_, ?_, ?_⟩ <;> decide +kernel
theorem witness_ModeSectionRingAndFederationCommands_items :
    (ringRec (entried 1 (ringed (fun v => { v with next := 1 }) base)) 0).openItems = [0] := by decide +kernel
/-- A reservation that finds ring 0 and entries 0 to 63 free, and the release of a copy. -/
theorem witness_ModeSectionRingAndFederationCommands_copies :
    (let b := commanded [] none (joined0 {} id)
     takesCommands b ∧ b.fed.joined = true ∧ (4 : BitVec 9) ≠ b.fed.instId ∧ 64 ≤ freeEntries b ∧ ringState b 0 = 0 ∧
       freeRange b 64 = some 0 ∧ InTurn (.ringMirror (.reserve 4 0 [] 0)) (st b)) ∧
    (let b := commanded [] none (mirrored0 0x40 {} 0)
     takesCommands b ∧ (ringRec b 0).ctl.getLsbD 6 = true ∧ (ringRec b 0).partner.extractLsb' 0 9 = (4 : BitVec 9)) := by
  refine ⟨⟨⟨by decide +kernel, by decide +kernel⟩, ?_⟩, ⟨by decide +kernel, by decide +kernel⟩, ?_⟩ <;> decide +kernel

def be48 (x : Nat) : List Byte := (bytesOf 48 (BitVec.ofNat 384 x)).reverse
/-- An image of a header alone, of version `ver`, with a key (4, x, y) and the signature (z, z). With z the digest and the key
such that G + Q has z as its x coordinate, both factors of the check are 1 and the signature holds. -/
def image0 (ver x y z : Nat) : List Byte :=
  bytesOf 4 (0x584A574B : Reg32) ++ [1, 3, 0, 0] ++ bytesOf 4 (BitVec.ofNat 32 ver) ++ [0, 0, 0, 0, 24, 0, 0, 0, 0, 0, 0, 0] ++
    (4 :: be48 x ++ be48 y) ++ List.replicate 7 0 ++ be48 z ++ be48 z ++ be48 z
def good0 : List Byte := image0 0x00030001
  0x774e0eb65e3047cd1b5bdfa22ae721d01dc7365a42f5d9fc867df0a41abacf4cc54149bebaa1a5d31e150b4de77bb6b
  0xf31ef7a8b7719d7a0c036d65b4d15598a2c05cc797d257378c5589c1348ab9c1cead890ac58bf706b1c50a0e736eac86
  0x91f0e99fe9ba349d5aef44f0709974fc55afc680f0545016763136c094b2e12119c96c03e4af07b8e5d6c3652d81ef49
def old0 : List Byte := image0 0
  0xa10abd9ce98ab8bd5949f2c251a3b06d9e647fc082e2a6369446dbb198d6635573cca817833a9ff34fe4ec5fe35fd669
  0x1f2807db76a4a081d5eebf7dffb776f0085e6a61f39f0f3ce26ee180f1310c9eda8045fc5756ba81356c4a2c7d795ebf
  0x54fd3f2ef482e734bd8d8fddab7a680bc012ba68cb2c306f81e1b75460c5d16055e32798139395937b3cc20d4fe1b77c
/-- The block holds the digest of the image's key. -/
def keyed (l : List Byte) : Block :=
  { base with imp := { base.imp with keyValid := true, keyDig := ofBytes 384 (sha384 ((l.drop 24).take 97)) } }
def loadPs : List Byte → List Param :=
  fun _ => [(0x08, 8, fun v => decide (v % 64 = 0)), (0x10, 4, fun _ => true), (0x14, 1, fun v => decide (v < 2))]
theorem witness_ImageHeadChannelAndInjectionCommands_images :
    acts 3 13 .load loadPs [64] (.loadImage (.failed 0)) = true ∧ refusedAs 3 13 loadPs [1] = true ∧
      acts 4 13 .service loadPs [64] (.patchApply (.bytes [])) = true := by refine ⟨?_, ?_, ?_⟩ <;> decide +kernel
/-- The first checks fail one by one; the last image passes them all. -/
theorem witness_ImageHeadChannelAndInjectionCommands_checks :
    checkCommon base 0x0301 [] = some 0x10 ∧ checkCommon base 0x0301 good0 = some 0x11 ∧
      checkCommon (keyed good0) 0x0301 (good0.take 128 ++ List.replicate 144 0) = some 0x12 ∧
      checkCommon (keyed good0) 0x0301 (good0.take 176 ++ List.replicate 96 0) = some 0x13 ∧
      checkCommon (keyed old0) 0x0301 old0 = some 0x14 ∧ checkCommon (keyed good0) 0x0301 good0 = none := by
  refine ⟨?_, ?_, ?_, ?_, ?_, ?_⟩ <;> decide +kernel
/-- PATCH_APPLY of a package that takes PATCH to 1, under way. -/
def patching0 : Running := { pair := 0, since := 0, stage := 1, effect := 1 }
theorem witness_ImageHeadChannelAndInjectionCommands_package :
    ((base.clu 0).image.toNat = imgN [] 0xC 4 ∧ (base.clu 0).patch.toNat = imgN [] 0x16 2) ∧
      (base.clu 0).image.toNat ≠ imgN (List.replicate 16 1) 0xC 4 ∧ patchSettled base 0 = true ∧ cutSecs patching0 base [0] = 0 ∧
      cutSecs patching0 (base.modSec 0 (fun x => { x with fenced := true })) [0] ≠ 0 ∧
      patchSettled (clu0 (fun v => { v with pmWait := 1 }) base) 0 = false := by decide +kernel
theorem witness_ImageHeadChannelAndInjectionCommands_channels :
    acts 0xD 4 .service (fun _ => [(8, 1, fun _ => true), (9, 1, fun v => decide (v < 2)), (0xA, 2, fun _ => true)]) [255, 0]
        .headBind = true ∧
      acts 0xE 26 .load (fun _ => [(0x08, 2, fun _ => true), (0x0A, 2, fun v => decide (v ≤ 0x21FF)),
        (0x0C, 2, fun v => decide (v < 0x1000)), (0x0E, 1, fun v => decide (v < 8)), (0x10, 6, fun v => decide (v % 128 = 0)),
        (0x16, 2, fun _ => true), (0x18, 2, fun v => decide (v < 0x200)), (0x1A, 6, fun _ => true),
        (0x20, 2, fun v => decide (v < 2))]) [5, 0, 0xFF, 0x21] .channelBind = true ∧
      acts 0xF 6 .service (fun _ => [(8, 2, fun _ => true), (0xA, 4, fun v => decide (1 ≤ v ∧ v ≤ 100000000))]) [5, 0, 1]
        .channelUnbind = true ∧
      acts 0x10 2 .service (fun _ => [(8, 2, fun _ => true)]) [5] .channelWake = true ∧
      acts 0x11 28 .test (fun _ => [(0x08, 2, fun v => decide (v < 512)), (0x0A, 1, fun v => decide (v < 16)),
        (0x0B, 1, fun v => decide (v < 4)), (0x0C, 20, fun _ => true), (0x20, 4, fun v => decide (1 ≤ v ∧ v ≤ 100000000))])
        (List.replicate 24 0 ++ [1]) .inject = true := by refine ⟨?_, ?_, ?_, ?_, ?_⟩ <;> decide +kernel

/-- A block in a mode, with its supervision changed. -/
def moded (m : Mode) (f : Sup → Sup) : Block := { base with mode := m, sup := f base.sup }
def wakeDone (before : Option Mode) (trimv : Bool) : Bool :=
  let b := moded .wake (fun s => { s with fuseDone := true, before := before, trimv := trimv })
  b.sup.fuseDone && decide (∀ x : SecId, (b.sec x).clearing = false ∧ (b.sec x).reqAt = none) && !b.sup.inReset &&
    decide (b.sup.before = before) && decide (b.sup.trimv = trimv) && decide (InTurn (.wakeEnd true) (st b))
theorem witness_WakeRecoverQuiesceAndBlockResetMoveTheMode_wake :
    (moded .off id).mode = .off ∧ ((moded .off id).sec 7).ack = false ∧
      (∀ i ∈ ([0, 1, 0x120, 0x12B, 0x12C] : List Nat), (moded .wake (fun s => { s with fuseIdx := i })).sup.fuseIdx = i ∧
        (moded .wake (fun s => { s with fuseIdx := i })).sup.fuseDone = false) ∧
      (0x20A : BitVec 10).getLsbD 9 = true ∧ ((0x200 ||| 287 : BitVec 10).extractLsb' 0 9).toNat ≤ 287 ∧
      287 < ((0x200 ||| 288 : BitVec 10).extractLsb' 0 9).toNat := by decide +kernel
theorem witness_WakeRecoverQuiesceAndBlockResetMoveTheMode_ends :
    wakeDone none false = true ∧ wakeDone (some .service) true = true ∧ wakeDone (some .test) false = true ∧
      wakeDone (some .load) true = true ∧ wakeDone (some .recover) false = true := by
  refine ⟨?_, ?_, ?_, ?_, ?_⟩ <;> decide +kernel
theorem witness_WakeRecoverQuiesceAndBlockResetMoveTheMode_resets :
    (moded .service id).sup.brst = false ∧ (moded .service (fun s => { s with brst := true })).sup.brst = true ∧
      (moded .service (fun s => { s with resetAt := some (0, 2) })).sup.resetAt = some (0, 2) ∧ 0 ≤ base.now ∧
      InTurn (.blockReset false) (st (moded .service (fun s => { s with resetAt := some (0, 2) }))) ∧
      (let b := { moded .wake (fun s => { s with inReset := true, resetTick := 4 }) with now := 20 }
       b.mode = .wake ∧ b.sup.inReset = true ∧ b.sup.resetTick + 16 ≤ b.now ∧ b.sup.brst = false ∧ InTurn .warmWake (st b)) ∧
      (let b := { moded .wake (fun s => { s with inReset := true, resetTick := 4, brst := true }) with now := 5 }
       b.sup.brst = true ∧ b.sup.resetTick < b.now ∧ ¬ b.sup.resetTick < 4) := by decide +kernel
theorem witness_WakeRecoverQuiesceAndBlockResetMoveTheMode_recover :
    let b := moded .recover id
    b.sup.stopped = false ∧ b.con.held = [] ∧ b.con.refetch = [] ∧ (∀ r ∈ liveRings b, ringState b r ≠ 4) ∧
      (∀ l ∈ b.poison, repairable b l = false ∧ payBad b l = false) ∧ InTurn .recoverEnd (st b) ∧
      (let c := { b with now := 2100001 }
       c.sup.recoverSecs = 0 ∧ c.sup.recoverAt + 1100000 + 1000000 < c.now ∧ InTurn .recoverOverrun (st c)) := by decide +kernel
theorem witness_WakeRecoverQuiesceAndBlockResetMoveTheMode_quiesce :
    (let b := moded .quiesce id
     b.sup.secMask = 0 ∧ (∀ r ∈ liveRings b, (ringRec b r).next = (ringRec b r).ret) ∧
       (∀ x ∈ b.dma, x.2.st = .idle ∨ x.2.st = .error) ∧ portsIdle b = true ∧ b.con.mirWaits = [] ∧ InTurn .quiesceDone (st b)) ∧
    (let b := (moded .quiesce (fun s => { s with secMask := 1 })).modChan 3 (fun d => { d with st := .run })
     b.sup.secMask.getLsbD 0 = true ∧ ¬ (b.fenced 0 = true ∧ (b.sec 0).req = false) ∧ b.sup.secMask ≠ 0 ∧
       ¬ ∀ x ∈ b.dma, x.2.st = .idle ∨ x.2.st = .error) ∧
    (let b := (moded .quiesce (fun s => { s with secMask := 4 }))
     (∀ x : SecId, ¬ (b.sup.secMask.getLsbD x.toNat = true ∧ ¬ (b.fenced x = true ∧ (b.sec x).req = false))) ∧
       (∀ x : SecId, b.sup.secMask.getLsbD x.toNat = true → (b.sec x).powered = false) ∧ recovering b = false) := by
  refine ⟨?_, ?_, ?_⟩ <;> decide +kernel
/-- A DMA channel that runs keeps a partial QUIESCE from its end. -/
theorem witness_WakeRecoverQuiesceAndBlockResetMoveTheMode_part :
    let b := (moded .quiesce (fun s => { s with secMask := 1 })).modChan 3 (fun d => { d with st := .run })
    drainedPart b = false ∧ b.sup.secMask.getLsbD 0 = true ∧ ¬ (b.fenced 0 = true ∧ (b.sec 0).req = false) := by decide +kernel

/-- Section 0 in a power state, in a mode, at a time. -/
def powered0 (m : Mode) (now : Nat) (f : Sec → Sec) : Block := { (base.modSec 0 f) with mode := m, now := now }
theorem witness_SectionsPowerFenceAndClustersSleep_rise :
    (let b := powered0 .service 0 (fun v => { v with req := true, ack := false })
     (b.sec 0).ack = false ∧ (b.sec 0).req = true ∧ b.mode ≠ .off ∧ InTurn (.secPwrAckRise 0) (st b)) ∧
    ((powered0 .service 0 (fun v => { v with req := false, ack := false })).sec 0).req = false := by refine ⟨?_, ?_⟩ <;> decide +kernel
theorem witness_SectionsPowerFenceAndClustersSleep_fall :
    (let b := powered0 .service 0 (fun v => { v with req := false, ack := true })
     (b.sec 0).ack = true ∧ (b.sec 0).req = false ∧ b.mode ≠ .off ∧ InTurn (.secPwrAckFall 0) (st b)) ∧
    (let b := powered0 .wake 0 (fun v => { v with req := true, ack := true, fenced := true })
     (b.sec 0).ack = true ∧ (b.sec 0).req = true ∧ b.mode = .wake ∧ b.sup.before = none ∧ (b.sec 0).fenced = true) ∧
    (let b := powered0 .service 0 (fun v => { v with req := true, ack := true })
     (b.sec 0).req = true ∧ b.mode ≠ .wake) := by refine ⟨?_, ?_, ?_⟩ <;> decide +kernel
theorem witness_SectionsPowerFenceAndClustersSleep_timeout :
    (let b := powered0 .service 1000000 (fun v => { v with req := true, ack := false, reqAt := some 0 })
     (b.sec 0).reqAt = some 0 ∧ 0 + 1000000 ≤ b.now ∧ (b.sec 0).ack ≠ (b.sec 0).req ∧ InTurn (.secPwrAckTimeout 0) (st b)) ∧
    (let b := powered0 .wake 9000 (fun v => { v with req := true, ack := false })
     b.mode = .wake ∧ b.sup.before = none ∧ (b.sec 0).req = true ∧ (b.sec 0).ack = false ∧ 9000 ≤ b.now ∧
       InTurn (.wakeAckTimeout 0) (st b)) := by refine ⟨?_, ?_⟩ <;> decide +kernel
theorem witness_SectionsPowerFenceAndClustersSleep_clear : ∀ m ∈ ([.wake, .load] : List Mode),
    let b := powered0 m 0 (fun v => { v with clearing := true, powered := true })
    let b := { b with sup := { b.sup with fuseDone := true } }
    (b.sec 0).clearing = true ∧ (b.sec 0).powered = true ∧ b.sup.fuseDone = true ∧ b.sup.before = none ∧ b.mode = m ∧
      InTurn (.sectionClearEnd 0) (st b) := by decide +kernel
theorem witness_SectionsPowerFenceAndClustersSleep_fence :
    (let b := powered0 .service 5 (fun v => { v with fenceAt := some 5 })
     (b.sec 0).fenceAt = some 5 ∧ 5 ≤ b.now ∧ InTurn (.sectionFence 0) (st b)) ∧
    (∀ m ∈ ([.service, .quiesce, .recover, .load] : List Mode), (powered0 m 0 id).fenced 0 = false ∧ (powered0 m 0 id).mode = m) ∧
    base.fenced 7 = true := by refine ⟨?_, ?_, ?_⟩ <;> decide +kernel
theorem witness_SectionsPowerFenceAndClustersSleep_sleep :
    (let b := { clu0 (fun v => { v with sleepCfg := 1, idleSince := some 0 }) (ctx0 (fun c => { c with chan := none }) base) with now := 5 }
     (b.clu 0).sleepCfg.getLsbD 0 = true ∧ (b.clu 0).asleep = false ∧ clusterIdle b 0 = true ∧ (b.clu 0).trigAt ≠ some b.now ∧
       b.fenced (cluSec 0) = false ∧ b.mode ≠ .off ∧ b.paused_ 0 = false ∧ (b.clu 0).idleSince = some 0 ∧
       0 + ((b.clu 0).sleepCfg.extractLsb' 16 16).toNat * 64 ≤ b.now ∧ InTurn (.clusterSleep 0) (st b)) ∧
    (let b := clu0 (fun v => { v with asleep := true, trigAt := some 0 }) base
     (b.clu 0).asleep = true ∧ (b.clu 0).trigAt ≠ none ∧ InTurn (.clusterWake 0 3) (st b)) := by refine ⟨?_, ?_⟩ <;> decide +kernel
/-- Cluster 0 as its sleep tick 5 ends: nothing has come in the tick, a trigger has, or another tick is meant. -/
def sleeping0 (at_ : Nat) (trig : Option Nat) : Block :=
  { clu0 (fun v => { v with sleepCfg := 1, sleepAt := some at_, trigAt := trig }) (ctx0 (fun c => { c with chan := none }) base) with now := 5 }
theorem witness_SectionsPowerFenceAndClustersSleep_due :
    listedClus (sleeping0 5 none) = [0] ∧ clusterIdle (sleeping0 5 none) 0 = true ∧ ((sleeping0 5 none).clu 0).sleepAt = some 5 ∧
      ((sleeping0 5 none).clu 0).trigAt ≠ some 5 ∧ ((sleeping0 5 (some 5)).clu 0).trigAt = some 5 ∧
      ((sleeping0 4 none).clu 0).sleepAt ≠ some (sleeping0 4 none).now := by decide +kernel

theorem witness_ResetsTakeTheirScopeInTheTickAfterTheRequest :
    (let b := { eng0 (fun g => { g with ctxResetAt := some (1, 3), resetAt := some 1 }) (clu0 (fun v => { v with resetAt := some 1 })
        (base.modSec 0 (fun v => { v with resetAt := some 1 }))) with now := 1 }
     (b.eng 0).ctxResetAt = some (1, 3) ∧ 1 ≤ b.now ∧ (3 : BitVec 16).getLsbD (0 : CtxId).toNat = true ∧ (b.eng 0).resetAt = some 1 ∧
       (b.clu 0).resetAt = some 1 ∧ (b.clu 0).outAt = none ∧ (b.sec 0).resetAt = some 1 ∧ InTurn (.contextReset 0 0) (st b) ∧
       InTurn (.engineReset 0) (st b) ∧ InTurn (.clusterReset 0) (st b) ∧ InTurn (.sectionReset 0) (st b)) ∧
    engineHeld base 0 = false ∧ engineHeld (moded .wake id) 0 = true := by refine ⟨?_, ?_, ?_⟩ <;> decide +kernel
/-- A cluster that is to go OUT, in SERVICE or LOAD. -/
theorem witness_ResetsTakeTheirScopeInTheTickAfterTheRequest_out : ∀ x ∈ [true, false],
    let b := { clu0 (fun v => { v with outAt := some (1, x) }) base with now := 1 }
    (b.clu 0).outAt = some (1, x) ∧ 1 ≤ b.now ∧ (b.clu 0).state ≠ .out ∧
      (∀ m ∈ ([.service, .load] : List Mode),
        let d := { b with mode := m }.modClu 0 (fun v => { v with state := .out })
        (d.clu 0).outAt = some (1, x) ∧ (goOut 0 (d.modClu 0 (fun v => { v with outAt := none }))).mode = m) := by decide +kernel
theorem witness_ResetsTakeTheirScopeInTheTickAfterTheRequest_watchdog :
    let b := { eng0 (fun g => { g with wdDeadline := some 7 }) base with
      now := 7, imp := { base.imp with wdogs := [(0, { en := true })] } }
    wdRuns b 0 = true ∧ (b.eng 0).wdDeadline = some 7 ∧ 7 ≤ b.now ∧ b.mode ≠ .off ∧ InTurn (.watchdogBite 0) (st b) := by
  decide +kernel
theorem witness_ResetsTakeTheirScopeInTheTickAfterTheRequest_port : (∀ v, CanLand base .hreg (.inst 0x10) (.write v)) ∧
    (∀ v, CanLand base .hreg (.clu 0 0x08) (.write v)) ∧ ∀ v, CanLand base .synCore (.clu 0 0x10) (.write v) :=
  ⟨fun _ => ⟨by decide, by decide, trivial, trivial, noWait, trivial⟩,
    fun _ => ⟨by decide, by decide, ⟨by decide, by decide⟩, trivial, noWait, trivial⟩,
    fun _ => ⟨by decide, by decide, ⟨by decide, by decide⟩, trivial, noWait, trivial⟩⟩

def slot0 (f : Slot → Slot) : Slot := f { stamp := 0, at_ := 0, code := 1, info := 7 }
/-- A record of source i is held, and no other. -/
def holding (i : BitVec 11) (f : Slot → Slot) (now : Nat) : Block :=
  { base with now := now, imp := { base.imp with slots := [(i.toNat, some (slot0 f))] } }
theorem witness_FaultCollectorHoldsOrdersLevelsAndReacts_held :
    (Map.get none base.imp.slots 2047 = none) ∧
    (let b := holding 2047 id 12
     Map.get none b.imp.slots 2047 = some (slot0 id) ∧ (slot0 id).real = true ∧ (slot0 id).at_ ≤ b.now ∧
       ((2047 : BitVec 11).toNat, some (slot0 id)) ∈ b.imp.slots ∧
       (∀ p ∈ b.imp.slots, p.2 = none ∨ p = ((2047 : BitVec 11).toNat, some (slot0 id))) ∧ b.mode ≠ .off ∧
       ¬ b.now < (slot0 id).at_ + 10 + 5 * (slot0 id).queue ∧ b.imp.lastReact = none ∧ (holding 2047 id 9).now < (slot0 id).at_ + 10 + 5 * (slot0 id).queue ∧
       InTurn .faultReaction (st b)) := by refine ⟨?_, ?_⟩ <;> decide +kernel
theorem witness_FaultCollectorHoldsOrdersLevelsAndReacts_react :
    base.classCfg 3 = 2 ∧ ((2 : BitVec 2).getLsbD 0 = false) ∧
      ({ base with imp := { base.imp with classCfg := [(3, 1)] } } : Block).classCfg 3 = 1 ∧ ((1 : BitVec 2).getLsbD 0 = true) ∧
      base.fenced 7 = true ∧ base.fenced 0 = false ∧ ((clu0 (fun v => { v with state := .out }) base).clu 0).state = .out ∧
      (base.clu 0).state ≠ .out := by
  decide +kernel
theorem witness_FaultCollectorHoldsOrdersLevelsAndReacts_log :
    (1023 < 0 + 1024 ∧ 0 + 1024 ≤ 1024) ∧ ({ base.imp with logged := 1024 } : Imp).logged = 1024 ∧
      ({ base.imp with logged := 1024, rdI := 1 } : Imp).rdI = 1 := by decide +kernel
theorem witness_FaultCollectorHoldsOrdersLevelsAndReacts_pin :
    (let b := { base with now := 1004, imp := { base.imp with pulse := some (4, 1004) } }
     b.imp.pulse = some (4, 1004) ∧ 1004 ≤ b.now ∧ 4 < b.now ∧ InTurn .faultPinPulseEnd (st b)) ∧
    (let b := { base with imp := { base.imp with pinWrite := some (4, false) } }
     b.imp.pulse = none ∧ b.imp.pinWrite = some (4, false) ∧ base.imp.pinWrite = none) := by refine ⟨?_, ?_⟩ <;> decide +kernel
theorem witness_FaultCollectorHoldsOrdersLevelsAndReacts_time :
    (let b := { base with now := 2 ^ 20 * 1000 }
     (b.src 0).young = true ∧ (b.src 0).youngAt + 2 ^ ((b.src 0).cfg.extractLsb' 8 5).toNat * 1000 ≤ b.now ∧ b.mode ≠ .off ∧
       InTurn (.sourceWindowMature 0) (st b)) ∧
    (let b := { base with imp := { base.imp with synDeadline := some 0 } }
     b.imp.synEn = true ∧ b.imp.synDeadline = some 0 ∧ 0 ≤ b.now ∧ InTurn .syntaxWatchdogBite (st b)) := by
  refine ⟨?_, ?_⟩ <;> decide +kernel

theorem witness_ImperativeRegistersAreWrittenByTheSafetyPortOnly :
    Map.get none base.imp.slots 5 = none ∧ Map.get none (holding 5 id 0).imp.slots (5 : BitVec 11).toNat = some (slot0 id) ∧
      (slot0 id).real = true ∧ (slot0 id).inj = false := by decide +kernel
theorem witness_ImperativeRegistersAreWrittenByTheSafetyPortOnly_port : ∀ r a, CanLand base .ireg (.imp r) a := by
  intro r a; exact ⟨by decide, by simp [shut, winPart, ownPath, inWarm, base, ready], trivial, trivial, noWait, trivial⟩

/-- Context 0 is asked to halt at a boundary; the engine steps it, or does not. -/
def asked0 (step : Option CtxId) (request : Bool) : Block :=
  eng0 (fun g => { g with dbg := { g.dbg with mode := 1, haltReq := true, step := step } })
    (ctx0 (fun c => { c with halt := { c.halt with request := if request then some (1, 0) else none } }) base)
def stops0 (b : Block) : Bool :=
  let c := b.ctx (ctxNo 0 0)
  mustHalt b 0 && !c.halt.halted && c.chan.isSome && c.mchk.isNone && !(b.eng 0).inReset && !(Eng.dividing (b.eng 0) 0) &&
    c.act.boundary (midBit b 0) && decide (InTurn (.contextHalt 0 0) (st b))
theorem witness_DebugHaltsStepsReleasesAndMasters_halt :
    stops0 (asked0 (some 0) true) = true ∧ ((asked0 (some 0) true).eng 0).dbg.step = some 0 ∧ stops0 (asked0 none true) = true ∧
      ((asked0 none true).eng 0).dbg.step ≠ some 0 ∧ ((asked0 none true).ctx 0).halt.request = some (1, 0) ∧
      stops0 (asked0 none false) = true ∧ ((asked0 none false).ctx 0).halt.request = none := by
  refine ⟨?_, ?_, ?_, ?_, ?_, ?_, ?_⟩ <;> decide +kernel
def halted0 : Block :=
  ctx0 (fun c => { c with halt := { c.halt with halted := true } }) (eng0 (fun g => { g with dbg := { g.dbg with haltReq := true } }) base)
theorem witness_DebugHaltsStepsReleasesAndMasters_complete :
    (halted0.eng 0).dbg.haltReq = true ∧ (halted0.eng 0).halted = false ∧ (halted0.eng 0).inReset = false ∧
      (∀ k, (halted0.ctx (ctxNo 0 k)).halt.halted = true ∨ ((halted0.ctx (ctxNo 0 k)).chan = none ∧ (halted0.ctx (ctxNo 0 k)).act = .idle)) ∧
      (freezeTimers 0 (eng0 (fun g => { g with halted := true }) halted0)).imp.dbgFreeze = true ∧ halted0.imp.dbgFreeze = true ∧
      ({ halted0 with imp := { halted0.imp with dbgFreeze := false } } : Block).imp.dbgFreeze = false ∧
      InTurn (.haltComplete 0) (st halted0) := by decide +kernel
def heldLease0 : Lease := { unit := 0, owner := 0, addr := 8, expiry := 0, heldSince := some 0 }
theorem witness_DebugHaltsStepsReleasesAndMasters_leases :
    let b := { base with now := 1000000, leases := [heldLease0], dbg := { base.dbg with holdLease := true } }
    b.leases.filter (fun x => x.owner == 0) = [heldLease0] ∧ heldLease0.owner = 0 ∧ heldLease0.heldSince = some 0 ∧
      1000000 ≤ heldLease0.held + (b.now - 0) ∧ b.dbg.holdLease = true ∧ base.dbg.holdLease = false ∧ base.leases = [] ∧
      InTurn (.holdLeaseEnd 0) (st b) := by decide +kernel
theorem witness_DebugHaltsStepsReleasesAndMasters_modes : ∀ m ∈ ([0, 1, 2, 3] : List (BitVec 2)),
    ((eng0 (fun g => { g with dbg := { g.dbg with mode := m } }) base).eng 0).dbg.mode = m := by decide +kernel
/-- The debug bus master at an address, with an access under way or not. -/
def master0 (fuse : Bool) (addr : Word) (x : Option BusAccess) (b : Block) : Block :=
  { b with dbg := { b.dbg with fuseEn := fuse, maddr := addr, bus := x } }
def access0 (w : Bool) : BusAccess := { write := w, addr := 8, size := 4, data := 9, at_ := 0 }
theorem witness_DebugHaltsStepsReleasesAndMasters_master :
    (let b := master0 true 8 none base
     b.mode ≠ .off ∧ b.dbg.bus = none ∧ b.dbg.fuseEn = true ∧ areaOf b.dbg.maddr.toNat 1 = .main ∧
       InTurn (.dbgMdata .dap true 9) (st b)) ∧
    (let b := master0 true 0x80000000 none base
     areaOf b.dbg.maddr.toNat 1 ≠ .main ∧ areaOf b.dbg.maddr.toNat 1 ≠ .dpr) ∧
    (master0 false 8 none base).dbg.fuseEn = false ∧ (master0 true 8 (some (access0 true)) base).dbg.bus ≠ none ∧
    (moded .off id).mode = .off := by refine ⟨?_, ?_, ?_, ?_, ?_⟩ <;> decide +kernel
/-- How the check of an access ends in a block. -/
def ends0 (w : Bool) (b : Block) : BankCheck :=
  let t := b.dbg.mctl.extractLsb' 0 12
  bankCheck (memPerturb 8 (arrive b t (!w) w 8 4 (if w then mergeLines false 8 4 else linesOf 8 4) .ok)) t (!w) w 8 4
theorem witness_DebugHaltsStepsReleasesAndMasters_access : ∀ w ∈ [false, true],
    let b := master0 true 8 (some (access0 w)) base
    b.dbg.bus = some (access0 w) ∧ ends0 w b = .pass ∧ ends0 w { b with poison := [1] } = .memue ∧
      ends0 w (b.modSec 0 (fun v => { v with fenced := true })) = .bus ∧
      ends0 w { b with dbg := { b.dbg with mctl := 1 } } = .region ∧ b.now < (access0 w).at_ + 655360 ∧
      InTurn (.debugBusAccessDone .ok) (st b) := by decide +kernel
theorem witness_DebugHaltsStepsReleasesAndMasters_port (a : Acc32) :
    let b := master0 true 8 none base
    CanLand b .dap (engDbg 0 4) a ∧ CanLand b .dap (.clu 0 (0x1200 + 16 * 15)) a ∧ CanLand b .dap (.inst 0xB04) a := by
  exact ⟨⟨by decide, by decide, ⟨by decide, by decide⟩, trivial, noWait, rfl, rfl, by decide⟩,
    ⟨by decide, by decide, ⟨by decide, by decide⟩, trivial, noWait, rfl, rfl, by decide⟩,
    ⟨by decide, by decide, trivial, trivial, noWait, rfl, rfl, by decide⟩⟩
/-- Accesses that wait at the Debug Access Port. -/
theorem witness_DebugHaltsStepsReleasesAndMasters_waits :
    let x : HeldAcc := { org := .dap, bad := false, win := .inst 0xA10, acc := .read }
    (([x, x, x, x, x, x].filter (fun x => x.org == .dap)).length + 1 < 8) ∧ ([x, x, x, x, x, x, x].filter (fun x => x.org == .dap)).length + 1 = 8 ∧
      (base.held.filter (fun x => x.org == .dap)).length = 0 := by decide +kernel

/-- Head 255 enabled, its state changed by `f`. -/
def head0 (f : Head → Head) : Block := base.modHead 255 (fun x => f { x with en := true })
def rstev (kind arg : BitVec 64) : BitVec 64 := kind ||| 255 <<< 4 ||| arg <<< 12
/-- The fields of a message of head 255. -/
def fields0 (k : BitVec 64) : Bool :=
  let m := rstev k 9
  m.extractLsb' 28 36 == (0 : BitVec 36) && m.extractLsb' 0 4 == k.extractLsb' 0 4 && (m.extractLsb' 4 8 : HeadNo) == 255 &&
    (m.extractLsb' 12 16 : BitVec 16) == 9
def latched0 (latch pl : Bool) : Bool :=
  let b := head0 (fun h => { h with latch := latch, plEn := pl, plLatch := pl, hold := false })
  !(b.head 255).hold && (b.head 255).latch == latch && (b.head 255).plEn == pl && (b.head 255).plLatch == pl
def rcom0 : RcomMsg := { stamp := 0, at_ := 0, shadow := true, msg := 1 }
/-- A message waits at a time before, at or after its eighth tick. -/
def sends0 (t : Nat) (early : Bool) : Bool :=
  let b : Block := { base with now := t, ras := { base.ras with rcom := [rcom0] } }
  decide (b.mode ≠ .off) && decide (b.ras.sentAt ≠ some b.now) && decide (b.now < rcom0.at_ + 8) == early && decide (InTurn .rcomSend (st b))
theorem witness_RasterHeadsTakeStrobesAndSendShadowsAndCommits_messages :
    (fields0 1 = true ∧ fields0 2 = true ∧ fields0 3 = true ∧ fields0 4 = true) ∧
    ((head0 id).head 255).en = true ∧ (head0 id).mode ≠ .off ∧ (9 : BitVec 16) ≠ ((head0 id).head 255).underrun ∧
    (9 : BitVec 9) ≠ ((head0 id).head 255).clone ∧ ((rstev 5 0).extractLsb' 0 4 : BitVec 4) = 5 ∧
    InTurn (.frame (rstev 1 0)) (st (head0 id)) := by refine ⟨?_, ?_, ?_, ?_, ?_, ?_, ?_⟩ <;> decide +kernel
theorem witness_RasterHeadsTakeStrobesAndSendShadowsAndCommits_frame :
    ((head0 id).head 255).frames < 2 ∧
    (let b := head0 (fun x => { x with frames := 2, tol := 0, fper := 7 })
     2 ≤ (b.head 255).frames ∧ unexpected (b.head 255) { b.head 255 with fper := 8 } = true ∧
       unexpected (b.head 255) (b.head 255) = false) ∧
    (let h : Head := { frames := 1, l0 := some 3, fstamp := 1, lcount := 2, lstamp := 5 }
     h.l0 = some 3 ∧ ((9 : Tick) - h.fstamp).toNat < 2 ^ 32 ∧ (3 - h.fstamp).toNat < 2 ^ 32 ∧ h.lcount < 65536 ∧
       (h.lstamp - 3).toNat * 16 / (h.lcount - 1) < 2 ^ 32) := by refine ⟨?_, ?_, ?_⟩ <;> decide +kernel
theorem witness_RasterHeadsTakeStrobesAndSendShadowsAndCommits_line :
    let b := head0 (fun x => { x with chan := some 5, lcmp := 9, laq := [{ line := 9, msg := 1 }] })
    (b.head 255).chan = some 5 ∧ (9 : BitVec 16) = (b.head 255).lcmp ∧ (9 : BitVec 16) ≠ 0xFFFF ∧ ((head0 id).head 255).chan = none := by
  decide +kernel
theorem witness_RasterHeadsTakeStrobesAndSendShadowsAndCommits_latches :
    latched0 false false = true ∧ latched0 false true = true ∧ latched0 true false = true ∧ latched0 true true = true := by
  refine ⟨?_, ?_, ?_, ?_⟩ <;> decide +kernel
theorem witness_RasterHeadsTakeStrobesAndSendShadowsAndCommits_send :
    sends0 7 true = true ∧ sends0 8 false = true ∧ sends0 9 false = true ∧
      [rcom0, { rcom0 with at_ := 4 }].Pairwise (fun x y => x.at_ ≤ y.at_) := by refine ⟨?_, ?_, ?_, ?_⟩ <;> decide +kernel
theorem witness_RasterHeadsTakeStrobesAndSendShadowsAndCommits_port : ∀ a, CanLand base .hreg (.head 255 0x48) a ∧
    CanLand base .hreg (.head 255 0x3C) a ∧ CanLand base .ireg (plWin 255 0x0C) a ∧ CanLand base .ireg (plWin 255 0x10) a :=
  fun _ => ⟨⟨by decide, by decide, trivial, trivial, noWait, trivial⟩, ⟨by decide, by decide, trivial, trivial, noWait, trivial⟩,
    ⟨by decide, by decide, trivial, trivial, noWait, trivial⟩, ⟨by decide, by decide, trivial, trivial, noWait, trivial⟩⟩

theorem witness_TapInstructionsCaptureAndOutsideTestActAsBypass :
    (moded .test id).mode = .test ∧ base.mode ≠ .test ∧ InTurn .extest (st base) ∧
      ({ moded .test id with dbg := { base.dbg with tap := .highz } } : Block).dbg.tap = .highz := by decide +kernel

theorem witness_AStepRunsTheFrontCommand : ({ blk := base, pending := [.tapReset, .idcode] } : State).pending = .tapReset :: [.idcode] := rfl
theorem witness_AnIdleStepIsOneTickOfTheFabricClock :
    (st base).pending = [] ∧ (st base).blk.mode ≠ .off ∧ State.reset.blk.mode = .off ∧ State.reset.pending = [] ∧
    (discipline (endTick (base.modFed (fun d => { d with load := some 9 })))).fed.load = some 9 ∧
    (discipline (endTick base)).fed.load = none ∧
    (∀ x ∈ ([0, 3, -3] : List Int), (discipline (endTick (base.modFed (fun d => { d with adjust := x })))).fed.adjust = x) ∧
    (discipline (endTick (base.modSyn (fun y => { y with st := .failed })))).syn.st = .failed := by
  refine ⟨?_, ?_, ?_, ?_, ?_, ?_, ?_, ?_⟩ <;> decide +kernel
/-- A correction that a write in tick `w` has left, in tick 4: the timer's count is 9 under RLD 3, up-down or not. -/
def fixing0 (w : Nat) (cfg : BitVec 18) (rld : Word) : Block :=
  { base with now := 4, fab := { base.fab with fixes := [(0, 39, w)] }, clus := [(0, { timers := [(39, { cfg := cfg, count := 9, rld := rld })] })] }
theorem witness_AnIdleStepIsOneTickOfTheFabricClock_fixes :
    (fixing0 4 0 3).now ≤ 4 ∧ 3 < (fixing0 3 0 3).now ∧ ((fixing0 3 0 3).timer 0 39).updown = false ∧
      ((fixing0 3 4 3).timer 0 39).updown = true ∧ (fixing0 3 0 3).forced = false ∧
      ((fixing0 3 0 3).timer 0 39).rld.toNat < ((fixing0 3 0 3).timer 0 39).count.toNat ∧
      ((fixing0 3 0 9).timer 0 39).count.toNat ≤ ((fixing0 3 0 9).timer 0 39).rld.toNat := by decide +kernel
/-- An access that waits lands, or is one of at most four that do. -/
def waits0 : HeldAcc := { org := .hreg, bad := false, win := .clu 63 8, acc := .read }
theorem witness_AnIdleStepIsOneTickOfTheFabricClock_held :
    base.held = [] ∧ base.mode ≠ .off ∧ ({ base with held := [waits0] } : Block).held = [waits0] ∧ waits0 ∈ [waits0, waits0, waits0] ∧
      ([waits0, waits0, waits0].filter (fun y => y.org == .hreg)).length < 4 := by decide +kernel

/-- A register access of a tick that has reached its end is late; a context's reset in a block that has been reset in this tick is
discarded. -/
theorem witness_EveryCommandCompletesAndKeepsTheQueue :
    (∃ (i : Instr) (s : State), isLate (turnOf i s.blk) s.turn = true) ∧
      (∃ (i : Instr) (s : State), isLate (turnOf i s.blk) s.turn = false ∧ discarded (turnOf i s.blk) s.blk = true) ∧
      (st base).turn = 0 :=
  ⟨⟨.registerWrite .hreg 0x010000 0, { blk := base, turn := 10 ^ 40 }, by decide +kernel⟩,
    ⟨.contextReset 0 0, st (base.cut partBlock), by decide +kernel⟩, rfl⟩
theorem witness_EveryStepKeepsMemoryCanonical :
    Map.wf (fun _ => 0) (withChan base).mem = true ∧ ∃ t, step { blk := withChan base, pending := [.patrolScrub 0 .ok] } = .next t :=
  ⟨by decide +kernel, ⟨_, rfl⟩⟩

/-! ### The checks of WellFormed refuse an operand beyond each bound (R198, R227, R229, R439, R16, R245, R397) -/

theorem test_wf_timer : (Instr.timerStep 0 39).wf = true ∧ (Instr.timerStep 0 40).wf = false ∧
    (Instr.timerCompareFire 0 40).wf = false ∧ (Instr.tmrCfgWrite .hreg 0 40 0).wf = false ∧ (Instr.tmrCapLoRead .hreg 0 40).wf = false := by
  decide
theorem test_wf_bank : (Instr.eccWriteback 143).wf = true ∧ (Instr.eccWriteback 144).wf = false ∧
    (Instr.patrolScrub 144 .ok).wf = false := by decide
theorem test_wf_island : (Instr.canarySample 71 0).wf = true ∧ (Instr.canarySample 72 0).wf = false ∧
    (Instr.crossingRetrain 72).wf = false ∧ (Instr.retrainPauseEnd 72 0 0).wf = false ∧
    (Instr.retrainPauseEnd 71 0 2000).wf = true ∧ (Instr.retrainPauseEnd 71 0 2001).wf = false := by decide
theorem test_wf_table : (Instr.leaseExpiry 8 0).wf = true ∧ (Instr.leaseExpiry 9 0).wf = false := by decide
theorem test_wf_fetched : (Instr.loadImage (.failed (2 ^ 32 - 1))).wf = true ∧ (Instr.loadImage (.failed (2 ^ 32))).wf = false ∧
    (Instr.patchApply (.failed (2 ^ 32))).wf = false := by decide

/-! ### Results that the spec works out -/

/-- The block after a command that completes. -/
def after (i : Instr) (b : Block) : Block := match exec i (st b) with
  | .next t => t.blk
  | _ => {}
/-- spec/03_microword.md, an add with an immediate: add.f d1, d2, #5. -/
def addWord : MWord := MFields.word { aluop := 0x02, dst := 1, srca := 2, srcb := 0x30, imm48 := 5, setf := true }
theorem test_encode_add : addWord = 0x0000000810B000000000_40000000000000000005 ∧ (stored addWord).extractLsb' 160 10 = 0x110 := by
  decide +kernel
/-- spec/03_microword.md, a gated load inside a loop. -/
theorem test_encode_load_loop :
    let w : MWord := MFields.word { csel := 2, seq := 9, target := 0x140, dst := 7, memop := 7, mbase := 3, mmode := 1, mtag := 4, disp16 := 6 }
    w = 0x2482800070001CC90000_00000006000000000000 ∧ (stored w).extractLsb' 160 10 = 0x1C0 := by decide +kernel
/-- spec/03_microword.md, a call, its frame and a bad return: call 0x0A30 save d:0x00F0. -/
def callWord : MWord := MFields.word { seq := 2, target := 0xA30, imm48 := 0xF0 }
theorem test_encode_call : callWord = 0x01146000000000000000_000000000000000000F0 ∧ (stored callWord).extractLsb' 160 10 = 0x200 := by
  decide +kernel
/-- spec/04_datapath.md, shift counts across the width: the result, and C and N in STAT[2:1]. -/
def shifted (op : BitVec 7) (n : BitVec 8) : Word × BitVec 2 :=
  let w : MWord := MFields.word { aluop := op, dst := 1, srca := 1, aux8 := n, setf := true }
  let c := (after (.shliShriSariRoliRori 0 0) (ctx0 (fun c => { c with d := c.d.set 1 0x800000000001 }) (ready w))).ctx 0
  (c.d[1], c.stat.extractLsb' 1 2)
theorem test_shift_left : shifted 0x28 47 = (0x800000000000, 1) ∧ shifted 0x28 48 = (0, 2) ∧ shifted 0x28 49 = (0, 0) := by
  refine ⟨?_, ?_, ?_⟩ <;> decide +kernel
theorem test_shift_right_and_rotate : shifted 0x29 48 = (0, 2) ∧ shifted 0x2A 200 = (0xFFFFFFFFFFFF, 3) ∧ shifted 0x2B 49 = (3, 2) ∧
    shifted 0x2C 48 = (0x800000000001, 1) := by refine ⟨?_, ?_, ?_, ?_⟩ <;> decide +kernel
/-- spec/02_engine_contexts.md, where channel 0xD6E5 lives. -/
theorem test_channel_home : homeOf 0xD6E5 = 0x1AD ∧ csbAddr base 0xD6E5 = 0x376E500 := by decide +kernel
/-- spec/01_fabric.md, locating context 9 of engine 0x1AD. -/
theorem test_register_windows : ctxNo 0x1AD 9 = 0x1AD9 ∧ winOf 0x1D4000 = .clu 53 0 ∧ winOf 0x1D7400 = .eng 0x1AD 0 ∧
    winOf 0x096000 = .sec 6 0 := by decide +kernel
/-- spec/00_scope.md, a read-to-clear counter meeting an increment: 5, 2 more in the tick of the read, 2 left. -/
theorem test_read_to_clear :
    let v : Tally 32 := Tally.count 1 2 { old := 5 }
    v.pre 1 = 5 ∧ (v.clear 1).pre 2 = 2 := by decide

end Sys2Proof.Tests
end

/-! Every command is an effect on the block at the place of `turnOf` (R24, R25, R28): what that says of a command in turn, of a
late one and of a discarded one. -/

namespace Sys2Proof.Machine
open Sys2Proof

/-- The place and the part of every row are those of the one table `turnOf`. Six rows' effects are no function of the model with a
name of its own, and are written out. -/
theorem exec_eq_atTurn (c : Instr) : ∃ f, ∀ s, exec c s = atTurn (turnOf c) f s := by
  cases c
  case timerCompareFire c x => exact ⟨fun b => settleClu c (opTimerCompareFire c x b), fun _ => rfl⟩
  case extest => exact ⟨fun b => boundary (testOnly b .extest) b, fun _ => rfl⟩
  case idcode => exact ⟨fun b => loadIr .idcode (idcodeWord b) b, fun _ => rfl⟩
  case clamp => exact ⟨fun b => loadIr (testOnly b .clamp) 0 b, fun _ => rfl⟩
  case highz => exact ⟨fun b => loadIr (testOnly b .highz) 0 b, fun _ => rfl⟩
  case tapScan => exact ⟨fun b => loadIr (testOnly b .scan) 0 b, fun _ => rfl⟩
  all_goals exact ⟨_, fun _ => rfl⟩

/-! ### Range corrections (R207) -/

theorem corrected_eq_self (t : Turn) {b : Block} (h : fixesDue b = []) : corrected t b = b := by
  unfold corrected rangeCorrections
  rw [if_pos h, ite_self]

theorem rangeCorrect_gone (c : CluId) (x : Nat) (b : Block) : (rangeCorrect c x b).gone = b.gone := by
  unfold rangeCorrect wrapEvent
  dsimp only
  split_ifs <;> rfl

theorem rangeCorrect_paused (c : CluId) (x : Nat) (b : Block) : (rangeCorrect c x b).paused = b.paused := by
  unfold rangeCorrect wrapEvent
  dsimp only
  split_ifs <;> rfl

theorem foldl_rangeCorrect (l : List (CluId × Nat × Nat)) : ∀ b : Block,
    (l.foldl (fun b x => rangeCorrect x.1 x.2.1 b) b).gone = b.gone ∧
      (l.foldl (fun b x => rangeCorrect x.1 x.2.1 b) b).paused = b.paused := by
  induction l with
  | nil => exact fun b => ⟨rfl, rfl⟩
  | cons x l ih =>
    intro b
    obtain ⟨hg, hp⟩ := ih (rangeCorrect x.1 x.2.1 b)
    exact ⟨hg.trans (rangeCorrect_gone ..), hp.trans (rangeCorrect_paused ..)⟩

theorem corrected_gone_paused (t : Turn) (b : Block) : (corrected t b).gone = b.gone ∧ (corrected t b).paused = b.paused := by
  unfold corrected rangeCorrections
  split_ifs
  · exact ⟨rfl, rfl⟩
  · exact foldl_rangeCorrect _ _
  · exact ⟨rfl, rfl⟩

/-- Whether a command is discarded rests on the parts gone and the islands paused alone. -/
theorem discarded_corrected (t u : Turn) (b : Block) : discarded t (corrected u b) = discarded t b := by
  obtain ⟨hg, hp⟩ := corrected_gone_paused u b
  simp only [discarded, Block.inWider, Block.isGone, hg, hp]

/-! ### A command at its turn -/

section
variable {c : Instr} {s : State} {t : Block → Turn} {f : Block → Block}

/-- A command that is not late acts in the present tick. -/
theorem atTurn_of_not_late (h : isLate (t s.blk) s.turn = false) : atTurn t f s =
    .next { s with
      turn := max s.turn ((t s.blk).place.getD 0)
      blk := if discarded (t s.blk) s.blk then corrected (t s.blk) s.blk else f (corrected (t s.blk) s.blk) } := by
  simp only [atTurn, reach, h, Bool.false_eq_true, if_false, discarded_corrected]

theorem atTurn_of_late (h : isLate (t s.blk) s.turn = true) (h0 : isLate (t (tick s.blk)) 0 = false) :
    atTurn t f s = atTurn t f { s with turn := 0, blk := tick s.blk } := by
  simp only [atTurn, reach, h, h0, if_true, Bool.false_eq_true, if_false]

theorem atTurn_pending (t : Block → Turn) (f : Block → Block) (s : State) : ∃ u, atTurn t f s = .next u ∧ u.pending = s.pending := by
  refine ⟨_, rfl, ?_⟩
  change (reach t s).pending = s.pending
  unfold reach
  split <;> rfl

/-- A command's meaning in turn is its effect on the block. -/
theorem does_of_exec (h : exec c s = atTurn (turnOf c) f s) : Does c s (f s.blk) := by
  rintro ⟨hlate, hgone, hfix⟩
  rw [h, atTurn_of_not_late hlate, hgone, corrected_eq_self _ hfix]
  rfl

theorem Does.unique {b b' : Block} (h : Does c s b) (h' : Does c s b') (hturn : InTurn c s) : b = b' := by
  have he := (h hturn).symm.trans (h' hturn)
  injection he with he
  exact congrArg State.blk he

end

/-! ### A fresh tick has passed no command's place -/

theorem isLate_ack (s : SecId) : isLate (Turn.ack s) 0 = false := by
  simp [isLate, Turn.ack, place]

theorem isLate_sample (unit : Nat) (p : Option Piece) : isLate (Turn.sample unit p) 0 = false := by
  simp [isLate, Turn.sample, place]

theorem isLate_of_not_once {t : Turn} (h : t.once = false) : isLate t 0 = false := by
  unfold isLate
  cases t.place <;> simp [h]

@[simp] theorem once_inIsl (t : Turn) (i : Nat) : (t.inIsl i).once = t.once := rfl
@[simp] theorem once_at (rank origin unit : Nat) (p : Option Piece) : (Turn.at rank origin unit p).once = false := rfl
@[simp] theorem once_free (p : Option Piece) : (Turn.free p).once = false := rfl
@[simp] theorem once_reset (kind unit : Nat) (p : Piece) : (Turn.reset kind unit p).once = false := rfl
@[simp] theorem once_section (s : SecId) : (Turn.section s).once = false := rfl
@[simp] theorem once_fault (src : Nat) (p : Option Piece) : (Turn.fault src p).once = false := rfl
@[simp] theorem once_concord : Turn.concord.once = false := rfl
@[simp] theorem once_ringEnd : Turn.ringEnd.once = false := rfl
@[simp] theorem once_dma (n : BitVec 8) : (Turn.dma n).once = false := rfl
@[simp] theorem once_portTurn (o : Origin) (wr : Bool) (w : Win) (b : Block) : (portTurn o wr w b).once = false := rfl

@[simp] theorem once_ofWord (n : CtxNo) (shared : Bool) : (Turn.ofWord n shared).once = false := by
  cases shared <;> rfl
@[simp] theorem once_wordTurn (n : CtxNo) (b : Block) : (wordTurn n b).once = false := once_ofWord _ _
@[simp] theorem once_injTurn (n : CtxNo) (b : Block) : (injTurn n b).once = false := once_ofWord _ _
@[simp] theorem once_stepTurn (n : CtxNo) (b : Block) : (stepTurn n b).once = false := once_ofWord _ _

@[simp] theorem once_requestTurn (e : EngId) (t : BitVec 5) (b : Block) : (requestTurn e t b).once = false := by
  unfold requestTurn; split <;> simp
@[simp] theorem once_spillTurn (n : CtxNo) (ecc : Ecc) (b : Block) : (spillTurn n ecc b).once = false := by
  unfold spillTurn; split <;> simp
@[simp] theorem once_fillTurn (n : CtxNo) (ecc : Ecc) (b : Block) : (fillTurn n ecc b).once = false := by
  unfold fillTurn; split <;> simp
@[simp] theorem once_localTurn (n : BitVec 8) (i : Nat) (ecc : Ecc) (b : Block) : (localTurn n i ecc b).once = false := by
  unfold localTurn; split <;> simp
@[simp] theorem once_issueTurn (n : BitVec 8) (b : Block) : (issueTurn n b).once = false := by
  unfold issueTurn; split <;> simp
@[simp] theorem once_answerTurn (p : Bool) (q : Option HostReq) : (answerTurn p q).once = false := by
  unfold answerTurn; split
  · split <;> simp
  · simp
@[simp] theorem once_busTurn (b : Block) : (busTurn b).once = false := by
  unfold busTurn; split
  · split <;> simp
  · simp
@[simp] theorem once_trespTurn (p : BitVec 2) (f : Flit) (b : Block) : (trespTurn p f b).once = false := by
  unfold trespTurn; split <;> simp
@[simp] theorem once_sectionTurn (b : Block) : (sectionTurn b).once = false := by
  unfold sectionTurn; split <;> simp
@[simp] theorem once_groupTurn (c : CluId) (g : BitVec 4) (b : Block) : (groupTurn c g b).once = false := by
  unfold groupTurn; split <;> simp

/-- The inputs that are sampled once in a tick are the two edges of SEC_PWR_ACK, EVT_IN and the lanes; their places lie behind the
tick's start, and no other command is late in the place that the tick has reached. -/
theorem isLate_turnOf_zero (c : Instr) (b : Block) : isLate (turnOf c b) 0 = false := by
  cases c
  case secPwrAckRise s => exact isLate_ack s
  case secPwrAckFall s => exact isLate_ack s
  case evtInEdge n => exact isLate_sample _ _
  case laneEdge c _ => exact isLate_sample _ _
  all_goals apply isLate_of_not_once
  case patrolScrub bank ecc => by_cases h : ecc.errs = [] <;> simp [turnOf, h]
  all_goals simp [turnOf, Turn.rank1, Turn.tense, Turn.timer, Turn.requeue, Turn.syntaxRow, Turn.shared]

/-! ### Parts gone (R27) -/

theorem isGone_cut (p q : Piece) (b : Block) :
    (b.cut p).isGone q = true ↔ b.isGone q = true ∨ (p.1 ≤ q.1 ∧ q.1 + q.2 ≤ p.1 + p.2) := by
  simp [Block.cut, Block.isGone, or_comm]

/-- Settles O57: `exec` is `atTurn` of the turn's table and an effect, and the clauses say what `atTurn` does. -/
theorem everyCommandCompletesAndKeepsTheQueue : Obligations.EveryCommandCompletesAndKeepsTheQueue := by
  unfold Obligations.EveryCommandCompletesAndKeepsTheQueue
  refine ⟨fun c s => ?_, fun c s h => ?_, fun c s h hgone => ?_, fun t b h => corrected_eq_self t h, fun c s => ?_, fun c s h => ?_,
    isGone_cut⟩
  all_goals obtain ⟨f, hf⟩ := exec_eq_atTurn c
  · rw [hf]
    exact atTurn_pending _ _ _
  · rw [hf, hf]
    exact atTurn_of_late h (isLate_turnOf_zero c _)
  · rw [hf, atTurn_of_not_late h, if_pos hgone]
    rfl
  · exact fun hturn => ⟨_, does_of_exec (hf s) hturn, trivial⟩
  · rw [h]
    exact isLate_turnOf_zero c _

/-! ### A store of INST_SWEV by an AT word

A store of INST_SWEV that an AT word has made: its event carries the stamp of the word's target (R23, R219), whatever the tick
in which the store is performed. -/

/-- The store: INST_SWEV of bit 0, made by context 0 of engine 0 at the target of an AT word, tick 5. -/
def swevStore : Pend :=
  { kind := .window true, k := 0, ea := 0x80000038, data := 1, dst := 0, opc := 0, tenant := 0, priv := false, lvl := .prog
    fupc := 16, seq := 0, target := some (5, 5) }

/-- It is performed in the tick behind that target. -/
def swevBlock : Block := ({ mode := .service, tick := 6, now := 6 } : Block).modEng 0 (fun g => g.setTag 0 (some swevStore))
def swevState : State := { blk := swevBlock }

/-- The stamps of the events that wait in the fabric. -/
def eventStamps (b : Block) : List Tick := b.fab.queue.map (fun x => x.stamp)

theorem swevStore_inTurn : InTurn (.registerWrite (.ctx 0 0) 0x38 1) swevState := by
  decide +kernel

theorem swevStore_canLand : CanLand swevBlock (.ctx 0 0) (.inst 0x38) (.write 1) :=
  ⟨by decide +kernel, by decide +kernel, trivial, trivial, trivial, by decide +kernel, by decide +kernel⟩

/-- Performed, the store raises its event with the stamp of the target. -/
theorem swevStore_stamp : eventStamps (addrAccess (.ctx 0 0) 0x38 (.write 1) swevBlock) = [5] := by
  decide +kernel

/-- A plain write of the register in this tick stamps the event with the tick. -/
theorem swevWrite_stamp : eventStamps (portEnd swevBlock (.ctx 0 0) (.write 1) 0
    (nativeWrite (.ctx 0 0) (.inst 0x38) 1 (portTouch (.inst 0x38) swevBlock))) = [6] := by
  decide +kernel

/-- Refutes O43: its clause on REGISTER_WRITE says that a context's store of INST_SWEV acts on the block of the present tick; the
store of an AT word acts stamped with the word's target, tick 5, though it is performed in tick 6. -/
theorem not_mailboxesEventsAndRegistersAnswer : ¬ Obligations.MailboxesEventsAndRegistersAnswer := by
  unfold Obligations.MailboxesEventsAndRegistersAnswer
  rintro ⟨-, -, -, -, -, -, -, -, -, hport, -⟩
  have hclause := (hport swevState (.ctx 0 0) 0x38 (by decide)).1 1 swevStore_canLand
  have heq := (does_of_exec rfl).unique hclause swevStore_inTurn
  have hstamp := swevStore_stamp.symm.trans ((congrArg eventStamps heq).trans swevWrite_stamp)
  exact absurd hstamp (by decide)

end Sys2Proof.Machine

/-! The steps of the machine itself (R20, R24, R392): a command at the front of the queue, and the tick that passes where none waits. -/

namespace Sys2Proof.Machine
open Sys2Proof

/-- Settles O54: the step takes the queue apart. -/
theorem aStepRunsTheFrontCommand : Obligations.AStepRunsTheFrontCommand := by
  unfold Obligations.AStepRunsTheFrontCommand
  intro s c rest h
  unfold step
  rw [h]

/-! ### What the edge changes -/

theorem reply_frame (result detail : Nat) (data : List Byte) (b : Block) : ∃ y, reply result detail data b = { b with syn := y } := by
  unfold reply
  split
  · exact ⟨b.syn, rfl⟩
  · dsimp only
    split <;> exact ⟨_, rfl⟩

theorem badOpc_frame (b : Block) : ∃ y, badOpc b = { b with syn := y } := by
  unfold badOpc
  split_ifs
  · exact ⟨b.syn, rfl⟩
  · split
    · exact ⟨b.syn, rfl⟩
    · next m rest _ =>
      dsimp only
      split_ifs
      · exact ⟨b.syn, rfl⟩
      · obtain ⟨y, hy⟩ := reply_frame 1 0 [] (startCmd m rest b)
        exact ⟨y, hy⟩

theorem restartFailed_frame (b : Block) : ∃ y, restartFailed b = { b with syn := y } := by
  unfold restartFailed
  split
  · exact ⟨_, rfl⟩
  · exact ⟨b.syn, rfl⟩

/-- The upkeep at the edge is the Syntax core's, of the clusters' idle times, and of whether perturbation is in force. -/
theorem tickUpkeep_frame (b : Block) : ∃ y v d, tickUpkeep b = { b with syn := y, clus := v, dbg := d } := by
  obtain ⟨y, hy⟩ := restartFailed_frame b
  obtain ⟨z, hz⟩ := badOpc_frame (restartFailed b)
  rw [hy] at hz
  refine ⟨z, (noteIdle (badOpc (restartFailed b))).clus, (tickUpkeep b).dbg, ?_⟩
  unfold tickUpkeep noteIdle
  rw [hy, hz]

theorem tickUpkeep_syn (b : Block) : (tickUpkeep b).syn = (badOpc (restartFailed b)).syn := rfl

/-- Where nothing is queued, the core has no unknown command to refuse. -/
theorem badOpc_of_queue_nil {b : Block} (h : b.syn.queue = []) : badOpc b = b := by
  unfold badOpc
  rw [h, ite_self]

/-- The restart of a failed core (R427, R454). -/
theorem restartFailed_syn {b : Block} (h : b.syn.st = .failed) :
    (restartFailed b).syn.queue = [] ∧ (restartFailed b).syn.run = none ∧
      (restartFailed b).syn.st = if b.mode = .wake then .boot else .ready := by
  unfold restartFailed queueEvent queueEventAt
  rw [if_pos h]
  generalize (if b.mode = .wake then SynState.boot else SynState.ready) = st
  dsimp only
  split_ifs <;> exact ⟨rfl, rfl, rfl⟩

/-- What TICKSEC's marks leave alone at the edge. -/
theorem tickFabric_keeps (b : Block) : (tickFabric b).fixes = b.fab.fixes ∧ (tickFabric b).era = b.fab.era ∧
    (tickFabric b).drives = b.fab.drives ∧ (tickFabric b).pins = b.fab.pins := by
  unfold tickFabric
  split_ifs <;> exact ⟨rfl, rfl, rfl, rfl⟩

theorem tick_of_on {b : Block} (h : b.mode ≠ .off) : tick b = tickUpkeep (driveTo (edge (endTick b))) := if_neg h

@[simp] theorem discipline_corr (b : Block) : (discipline b).fed.corr = 0 := rfl

/-- What a tick changes of the block that its end leaves: the counters of time, the marks of the tick that is over, the fabric's
levels and marks, and the parts of the upkeep. -/
theorem tick_frame {s : Block} (h : s.mode ≠ .off) :
    let b := discipline (endTick s)
    ∃ f y v d, tick s = { b with
        now := b.now + 1, tick := nextTick b, gone := [], touched := [], fab := f
        fed := { b.fed with adjust := leftAdjust b, load := none }, syn := y, clus := v, dbg := d } ∧
      f.drives = [] ∧ f.fixes = b.fab.fixes ∧ f.era = b.fab.era + (if b.fed.load = none then 0 else 1) ∧
      f.pins = b.fab.drives.foldl (fun p x => putBit p x.1.toNat x.2) b.fab.pins := by
  rw [tick_of_on h]
  generalize endTick s = x
  obtain ⟨y, v, d, ht⟩ := tickUpkeep_frame (driveTo (edge x))
  obtain ⟨hfixes, hera, hdrives, hpins⟩ := tickFabric_keeps (discipline x)
  refine ⟨(driveTo (edge x)).fab, y, v, d, ht, rfl, hfixes, ?_, ?_⟩
  · rw [← hera]
    change (if (discipline x).fed.load.isSome then (tickFabric (discipline x)).era + 1 else (tickFabric (discipline x)).era) = _
    cases (discipline x).fed.load <;> rfl
  · rw [← hdrives, ← hpins]
    rfl

/-- A failed core is ready again after the tick, with no command queued or running. -/
theorem tick_failed {s : Block} (h : s.mode ≠ .off) (hfail : (discipline (endTick s)).syn.st = .failed) :
    (tick s).syn.queue = [] ∧ (tick s).syn.run = none ∧
      (tick s).syn.st = if (discipline (endTick s)).mode = .wake then .boot else .ready := by
  obtain ⟨hq, hr, hst⟩ := restartFailed_syn (b := driveTo (edge (endTick s))) hfail
  have hsyn : (tickUpkeep (driveTo (edge (endTick s)))).syn = (restartFailed (driveTo (edge (endTick s)))).syn := by
    rw [tickUpkeep_syn, badOpc_of_queue_nil hq]
  rw [tick_of_on h, hsyn]
  exact ⟨hq, hr, hst⟩

/-! ### TICK_NOW and the corrections left (R20, R194, R368) -/

section
variable {b : Block}

theorem clock_of_load {x : Tick} (h : b.fed.load = some x) : nextTick b = x ∧ leftAdjust b = b.fed.adjust := by
  simp [nextTick, leftAdjust, h]

theorem clock_of_zero (h : b.fed.load = none) (h0 : b.fed.adjust = 0) : nextTick b = b.tick + 1 ∧ leftAdjust b = 0 := by
  simp [nextTick, leftAdjust, h, h0]

theorem clock_of_pos (h : b.fed.load = none) (h0 : 0 < b.fed.adjust) :
    nextTick b = b.tick + 2 ∧ leftAdjust b = b.fed.adjust - 1 := by
  simp [nextTick, leftAdjust, h, h0]

theorem clock_of_neg (h : b.fed.load = none) (h0 : b.fed.adjust < 0) :
    nextTick b = b.tick ∧ leftAdjust b = b.fed.adjust + 1 := by
  simp [nextTick, leftAdjust, h, h0, h0.le]

end

/-! ### A range correction (R207) -/

@[simp] theorem timer_modTimer_same (b : Block) (c : CluId) (x : Nat) (f : Timer → Timer) :
    (b.modTimer c x f).timer c x = f (b.timer c x) := by
  simp [Block.modTimer, Block.timer, Map.mod]

@[simp] theorem on_set (now : Nat) (f : Flag) : (f.set now).on = true := by
  simp [Flag.set, Flag.on]

@[simp] theorem timer_wrapEvent (c : CluId) (x : Nat) (b : Block) (d : CluId) (y : Nat) :
    (wrapEvent c x b).timer d y = b.timer d y := by
  unfold wrapEvent
  split <;> rfl

theorem wrapEvent_fixes (c : CluId) (x : Nat) (b : Block) : (wrapEvent c x b).fab.fixes = b.fab.fixes := by
  unfold wrapEvent
  split <;> rfl

theorem rangeCorrect_fixes (c : CluId) (x : Nat) (b : Block) : (rangeCorrect c x b).fab.fixes = b.fab.fixes := by
  unfold rangeCorrect
  dsimp only
  split_ifs
  · exact wrapEvent_fixes ..
  · rfl
  · rfl
  · rfl

section
variable {b : Block} {c : CluId} {x : Nat}

theorem rangeCorrect_of_le (h : (b.timer c x).count.toNat ≤ (b.timer c x).rld.toNat) : rangeCorrect c x b = b :=
  if_neg (Nat.not_lt.2 h)

/-- In sawtooth mode the count wraps. -/
theorem rangeCorrect_sawtooth (h : (b.timer c x).rld.toNat < (b.timer c x).count.toNat)
    (hs : (b.timer c x).updown = false ∨ b.forced = true) :
    ((rangeCorrect c x b).timer c x).count = 0 ∧ ((rangeCorrect c x b).timer c x).wrap.on = true := by
  have hm : (!((b.timer c x).updown && !b.forced)) = true := by
    rcases hs with h | h <;> simp [h]
  unfold rangeCorrect
  simp only [h, hm, if_true, timer_wrapEvent, timer_modTimer_same, on_set, and_self]

/-- In up-down mode the count turns. -/
theorem rangeCorrect_updown (h : (b.timer c x).rld.toNat < (b.timer c x).count.toNat)
    (hu : (b.timer c x).updown = true) (hf : b.forced = false) :
    ((rangeCorrect c x b).timer c x).count = (b.timer c x).count ∧ ((rangeCorrect c x b).timer c x).down = true := by
  unfold rangeCorrect
  cases hd : (b.timer c x).down <;> simp [h, hu, hf, hd]

theorem fixesDue_single {w : Nat} (h : b.fab.fixes = [(c, x, w)]) : fixesDue b = if w < b.now then [(c, x, w)] else [] := by
  simp [fixesDue, h, List.filter_cons]

/-- A correction that is not due waits. -/
theorem rangeCorrections_wait {w : Nat} (h : b.fab.fixes = [(c, x, w)]) (hw : b.now ≤ w) : rangeCorrections b = b := by
  have hd := fixesDue_single h
  rw [if_neg (Nat.not_lt.2 hw)] at hd
  exact if_pos hd

/-- A correction that is due acts, and is done. -/
theorem rangeCorrections_due {w : Nat} (h : b.fab.fixes = [(c, x, w)]) (hw : w < b.now) :
    rangeCorrections b = rangeCorrect c x { b with fab := { b.fab with fixes := [] } } := by
  have hd := fixesDue_single h
  rw [if_pos hw] at hd
  simp [rangeCorrections, hd, h, hw]

end

/-! ### Accesses that wait at their ports (R512), and the deliveries of a tick (R22) -/

theorem outstanding_eq_zero {b : Block} {o : Origin} (hheld : ∀ x ∈ b.held, x.org ≠ o) (hbus : o = .dap → b.dbg.bus = none) :
    outstanding b o = 0 := by
  have h0 : b.held.filter (fun x => x.org == o) = [] := List.filter_eq_nil_iff.2 fun x hx => by simpa using hheld x hx
  by_cases ho : o = .dap
  · simp [outstanding, h0, hbus ho]
  · simp [outstanding, h0, ho]

/-- An access that is its port's first goes to it. -/
theorem portRequest_first {b : Block} {x : HeldAcc} (hon : b.mode ≠ .off) (hheld : ∀ y ∈ b.held, y.org ≠ x.org)
    (hbus : x.org = .dap → b.dbg.bus = none) : portRequest x b = firstAccess x b := by
  unfold portRequest
  rw [if_neg hon, if_pos (outstanding_eq_zero hheld hbus)]

/-- The first access of HREG's port is answered as it lands. -/
theorem portRequest_hreg_first {b : Block} (hon : b.mode ≠ .off) (hheld : b.held = []) (w : Win) (a : Acc32) :
    portRequest { org := .hreg, bad := false, win := w, acc := a } b = landAnswer .hreg false w a b :=
  portRequest_first hon (by simp [hheld]) (by simp)

/-- An access behind another of HREG waits, while the port has room. -/
theorem portRequest_hreg_behind {b : Block} {x : HeldAcc} (hon : b.mode ≠ .off) (hx : x ∈ b.held) (ho : x.org = .hreg)
    (hroom : (b.held.filter (fun y => y.org == .hreg)).length < 4) : portRequest x b = { b with held := b.held ++ [x] } := by
  have hlen : outstanding b .hreg = (b.held.filter (fun y => y.org == .hreg)).length := by simp [outstanding]
  have hpos : outstanding b .hreg ≠ 0 := by
    rw [hlen, Nat.ne_zero_iff_zero_lt, List.length_pos_iff_exists_mem]
    exact ⟨x, List.mem_filter.2 ⟨hx, by simp [ho]⟩⟩
  have hfull : portFull b .hreg = false := by
    change decide (4 ≤ outstanding b .hreg) = false
    rw [hlen]
    simpa using hroom
  simp [portRequest, holdAcc, hon, ho, hpos, hfull]

theorem repeat_eq_iterate {α : Type} (f : α → α) (n : Nat) (a : α) : Nat.repeat f n a = f^[n] a := by
  induction n with
  | zero => rfl
  | succ n ih => rw [Function.iterate_succ_apply', ← ih, Nat.repeat]

/-- The deliveries of a tick are as many CONDITION_EVENTs as stamps are due. -/
theorem deliverDue_eq_repeat (b : Block) : deliverDue b =
    Nat.repeat opConditionEvent (b.fab.queue.filter (fun x => decide (x.at_ + 6 ≤ b.now))).length b :=
  (List.foldl_const ..).trans (repeat_eq_iterate ..).symm

/-- Settles O55: what the parts of `tick` do, each by its own lemma. -/
theorem anIdleStepIsOneTickOfTheFabricClock : Obligations.AnIdleStepIsOneTickOfTheFabricClock := by
  unfold Obligations.AnIdleStepIsOneTickOfTheFabricClock
  have hidle : ∀ s : State, s.pending = [] → step s = .next { s with turn := 0, blk := tick s.blk } := by
    intro s h
    simp only [step, h, idleTick]
  refine ⟨?off, ?on, fun _ => rfl, ?fixes, ?held, deliverDue_eq_repeat⟩
  case off =>
    intro s h hoff
    rw [hidle s h, tick, if_pos hoff]
  case on =>
    intro s
    have hframe := tick_frame (s := s.blk)
    have hfailed := tick_failed (s := s.blk)
    have hcorr := discipline_corr (endTick s.blk)
    generalize discipline (endTick s.blk) = x at hframe hfailed hcorr ⊢
    intro b h hon
    obtain ⟨f, y, v, d, ht, hdrives, hfixes, hera, hpins⟩ := hframe hon
    replace hfailed := hfailed hon
    refine ⟨tick s.blk, hidle s h, ?_⟩
    rw [ht] at hfailed ⊢
    exact ⟨rfl, fun x hx => clock_of_load hx, fun hl h0 => clock_of_zero hl h0, fun hl h0 => clock_of_pos hl h0,
      fun hl h0 => clock_of_neg hl h0, rfl, rfl, rfl, rfl, rfl, rfl, rfl, rfl, rfl, rfl, rfl, rfl, rfl, hdrives, hfixes, hcorr,
      hera, hpins, hfailed⟩
  case fixes =>
    intro b c x w h
    refine ⟨rangeCorrections_wait h, fun hw => ?_⟩
    rw [rangeCorrections_due h hw]
    let b' : Block := { b with fab := { b.fab with fixes := [] } }
    refine ⟨rangeCorrect_fixes c x b', fun hle => ?_, rangeCorrect_sawtooth (b := b'), rangeCorrect_updown (b := b')⟩
    exact congrArg (fun t => t.timer c x) (rangeCorrect_of_le (b := b') hle)
  case held =>
    refine fun b => ⟨fun h => ?_, fun w a l hon h => ?_, fun x hon hx ho hroom => portRequest_hreg_behind hon hx ho hroom⟩
    · unfold landHeld
      rw [h]
      exact congrArg (fun l => { b with held := l }) h.symm
    · unfold landHeld
      rw [h, List.foldl_cons]
      exact congrArg (List.foldl _ · l) (portRequest_hreg_first (b := { b with held := [] }) hon rfl w a)

end Sys2Proof.Machine

/-! Events (R22, R213, R219..R222, R294): what an event that is raised changes, the captures of an edge, and the rows that raise one
or drive a pin. -/

namespace Sys2Proof.Machine
open Sys2Proof

/-! ### A loop over the first numbers -/

theorem times_succ {α : Type} (n : Nat) (f : Nat → α → α) (a : α) : times (n + 1) f a = f n (times n f a) := by
  simp [times, List.range_succ]

/-- What holds before a loop and is carried over each of its turns holds after it. -/
theorem times_induction {α : Type} {f : Nat → α → α} {a : α} (P : Nat → α → Prop) {n : Nat} (h0 : P 0 a)
    (hstep : ∀ i t, i < n → P i t → P (i + 1) (f i t)) : P n (times n f a) := by
  induction n with
  | zero => exact h0
  | succ n ih =>
    rw [times_succ]
    exact hstep n _ n.lt_succ_self (ih fun i t hi => hstep i t (hi.trans n.lt_succ_self))

/-- A loop of which turn `i` changes part `i` alone: each part changes as in its own turn. -/
theorem times_own {α β : Type} {f : Nat → α → α} {a : α} {n : Nat} (F : α → Prop) (part : α → Nat → β)
    (Q : Nat → β → β → Prop) (h0 : F a)
    (hstep : ∀ i t, i < n → F t → F (f i t) ∧ Q i (part t i) (part (f i t) i) ∧ ∀ j < n, j ≠ i → part (f i t) j = part t j) :
    F (times n f a) ∧ ∀ j < n, Q j (part a j) (part (times n f a) j) := by
  obtain ⟨hF, -, hQ⟩ := times_induction (f := f) (n := n)
    (fun i t => F t ∧ (∀ j < n, i ≤ j → part t j = part a j) ∧ ∀ j < i, Q j (part a j) (part t j))
    ⟨h0, fun _ _ _ => rfl, fun j hj => absurd hj j.not_lt_zero⟩ (by
      rintro i t hi ⟨hF, hlater, hdone⟩
      obtain ⟨hF', hown, hother⟩ := hstep i t hi hF
      refine ⟨hF', fun j hj hij => ?_, fun j hj => ?_⟩
      · rw [hother j hj (by omega), hlater j hj (by omega)]
      · rcases Nat.lt_succ_iff_lt_or_eq.1 hj with hlt | rfl
        · rw [hother j (by omega) (by omega)]
          exact hdone j hlt
        · rwa [hlater j hi le_rfl] at hown)
  exact ⟨hF, hQ⟩

theorem toNat_ofNat_of_lt {w i : Nat} (h : i < 2 ^ w) : (BitVec.ofNat w i).toNat = i := by
  rw [BitVec.toNat_ofNat, Nat.mod_eq_of_lt h]

theorem ofNat_ne {w i j : Nat} (hi : i < 2 ^ w) (hj : j < 2 ^ w) (h : j ≠ i) : BitVec.ofNat w j ≠ BitVec.ofNat w i := by
  rw [← BitVec.toNat_ne_iff_ne, toNat_ofNat_of_lt hi, toNat_ofNat_of_lt hj]
  exact h

/-! ### The credits of an event (R294) -/

/-- Channel `i` after the event `n`: credited where its TRIG names the event, which is not its own completion, and none has credited
it in this tick. -/
def creditedBy (n : BitVec 10) (now i : Nat) (d : Dma) : Dma :=
  if d.act.cfg.extractLsb' 20 10 = n ∧ n.toNat ≠ i ∧ d.creditAt ≠ some now then
    { dmaAddCredit now d with creditAt := some now } else d

theorem creditEvent_spec (n : BitVec 10) (b : Block) :
    (∃ m, creditEvent n b = { b with dma := m }) ∧ ∀ ch, (creditEvent n b).chan ch = creditedBy n b.now ch.toNat (b.chan ch) := by
  have key : (∃ m, creditEvent n b = { b with dma := m }) ∧
      ∀ i < 256, (creditEvent n b).chan (BitVec.ofNat 8 i) = creditedBy n b.now i (b.chan (BitVec.ofNat 8 i)) := by
    refine times_own (fun t => ∃ m, t = { b with dma := m }) (fun t i => t.chan (BitVec.ofNat 8 i))
      (fun i d d' => d' = creditedBy n b.now i d) ⟨b.dma, rfl⟩ ?_
    rintro i _ hi ⟨m, rfl⟩
    unfold creditedBy
    dsimp only
    split_ifs with hc
    · exact ⟨⟨_, rfl⟩, (chan_modChan ..).trans (if_pos rfl), fun j hj hji => (chan_modChan ..).trans (if_neg (ofNat_ne hi hj hji))⟩
    · exact ⟨⟨m, rfl⟩, rfl, fun _ _ _ => rfl⟩
  obtain ⟨hF, hQ⟩ := key
  refine ⟨hF, fun ch => ?_⟩
  have h := hQ ch.toNat ch.isLt
  rwa [BitVec.ofNat_toNat, BitVec.setWidth_eq] at h

/-! ### The pin changes of an event (R222) -/

/-- Pin `p` takes a change of the event: it selects the event in pulse or toggle mode, no write of this tick has changed its MODE or
SEL, and no event of this stamp has scheduled one. -/
def TakesChange (b : Block) (n : BitVec 10) (p : BitVec 5) : Prop :=
  (b.evtReg p).extractLsb' 0 10 = n ∧ ((b.evtReg p).extractLsb' 10 2 = 1 ∨ (b.evtReg p).extractLsb' 10 2 = 2) ∧
  Map.get 0 b.fab.evtWrit p.toNat ≠ b.now + 1 ∧
  ∀ d ∈ b.fab.sched, ¬ (d.n = p ∧ d.stamp = b.tick ∧ d.era = b.fab.era)

/-- The change that a pin takes. -/
def changeOf (b : Block) (p : BitVec 5) : PinChange :=
  { n := p, at_ := b.now + 8, stamp := b.tick, era := b.fab.era, toggle := (b.evtReg p).extractLsb' 10 2 == 2 }

/-- `l` holds the changes scheduled in `b` and those that the event schedules on the pins below `i`. -/
def SchedulesBelow (b : Block) (n : BitVec 10) (i : Nat) (l : List PinChange) : Prop :=
  ∀ c, c ∈ l ↔ c ∈ b.fab.sched ∨ (c.n.toNat < i ∧ TakesChange b n c.n ∧ c = changeOf b c.n)

/-- The changes of the pins below `i` do not keep pin `i` from its own. -/
theorem any_sched_iff {b : Block} {n : BitVec 10} {i : Nat} {l : List PinChange} (hi : i < 2 ^ 5) (h : SchedulesBelow b n i l) :
    l.any (fun c => c.n == BitVec.ofNat 5 i && c.stamp == b.tick && c.era == b.fab.era) = true ↔
      ∃ d ∈ b.fab.sched, d.n = BitVec.ofNat 5 i ∧ d.stamp = b.tick ∧ d.era = b.fab.era := by
  simp only [List.any_eq_true, Bool.and_eq_true, beq_iff_eq, h _, and_assoc]
  refine ⟨?_, fun ⟨d, hd, hsame⟩ => ⟨d, .inl hd, hsame⟩⟩
  rintro ⟨d, hd | ⟨hlt, -⟩, hsame⟩
  · exact ⟨d, hd, hsame⟩
  · rw [hsame.1, toNat_ofNat_of_lt hi] at hlt
    exact absurd hlt (lt_irrefl i)

/-- Pin `i` takes its change, which joins the list. -/
theorem SchedulesBelow.append {b : Block} {n : BitVec 10} {i : Nat} {l : List PinChange} (hi : i < 2 ^ 5)
    (h : SchedulesBelow b n i l) (ht : TakesChange b n (BitVec.ofNat 5 i)) :
    SchedulesBelow b n (i + 1) (l ++ [changeOf b (BitVec.ofNat 5 i)]) := by
  intro c
  rw [List.mem_append, List.mem_singleton, h c]
  constructor
  · rintro ((hc | ⟨hlt, hc⟩) | rfl)
    · exact .inl hc
    · exact .inr ⟨by omega, hc⟩
    · exact .inr ⟨by simp only [changeOf, toNat_ofNat_of_lt hi]; omega, ht, rfl⟩
  · rintro (hc | ⟨hlt, htk, hc⟩)
    · exact .inl (.inl hc)
    · rcases Nat.lt_succ_iff_lt_or_eq.1 hlt with hlt | heq
      · exact .inl (.inr ⟨hlt, htk, hc⟩)
      · rw [← heq, BitVec.ofNat_toNat, BitVec.setWidth_eq]
        exact .inr hc

/-- Pin `i` takes none. -/
theorem SchedulesBelow.skip {b : Block} {n : BitVec 10} {i : Nat} {l : List PinChange}
    (h : SchedulesBelow b n i l) (ht : ¬ TakesChange b n (BitVec.ofNat 5 i)) : SchedulesBelow b n (i + 1) l := by
  intro c
  rw [h c]
  refine or_congr_right ⟨fun ⟨hlt, hc⟩ => ⟨by omega, hc⟩, fun ⟨hlt, htk, hc⟩ => ⟨?_, htk, hc⟩⟩
  rcases Nat.lt_succ_iff_lt_or_eq.1 hlt with hlt | heq
  · exact hlt
  · rw [← heq, BitVec.ofNat_toNat, BitVec.setWidth_eq] at ht
    exact absurd htk ht

theorem schedEvent_spec (n : BitVec 10) (b : Block) :
    ∃ l, schedEvent n b = { b with fab := { b.fab with sched := l } } ∧ SchedulesBelow b n 32 l := by
  refine times_induction (fun i t => ∃ l, t = { b with fab := { b.fab with sched := l } } ∧ SchedulesBelow b n i l)
    ⟨b.fab.sched, rfl, fun c => by simp⟩ ?_
  rintro i _ hi ⟨l, rfl, hl⟩
  have hcond : ((b.evtReg (BitVec.ofNat 5 i)).extractLsb' 0 10 = n ∧
      ((b.evtReg (BitVec.ofNat 5 i)).extractLsb' 10 2 = 1 ∨ (b.evtReg (BitVec.ofNat 5 i)).extractLsb' 10 2 = 2) ∧
      Map.get 0 b.fab.evtWrit i ≠ b.now + 1 ∧
      ¬ (l.any (fun c => c.n == BitVec.ofNat 5 i && c.stamp == b.tick && c.era == b.fab.era) = true)) ↔
      TakesChange b n (BitVec.ofNat 5 i) := by
    simp only [any_sched_iff hi hl, TakesChange, toNat_ofNat_of_lt (w := 5) hi, not_exists, not_and]
  by_cases ht : TakesChange b n (BitVec.ofNat 5 i)
  · exact ⟨_, if_pos (hcond.2 ht), hl.append hi ht⟩
  · exact ⟨l, if_neg (mt hcond.1 ht), hl.skip ht⟩

/-! ### An event that is raised (R22, R219) -/

/-- The stamped event that waits in the fabric. -/
def stampedEvent (b : Block) (ev : Ev) : Stamped := { stamp := b.tick, at_ := b.now, era := b.fab.era, ev := ev }

/-- A numbered event joins the queue; one that fires credits channels and schedules pins. -/
theorem raise_num_spec (n : BitVec 10) (b : Block) :
    ∃ l m, raise (.num n) b = { b with
        fab := { b.fab with queue := b.fab.queue ++ [stampedEvent b (.num n)], sched := l }, dma := m } ∧
      (∀ c, c ∈ l ↔ c ∈ b.fab.sched ∨ (liveEvent n = true ∧ TakesChange b n c.n ∧ c = changeOf b c.n)) ∧
      ∀ ch, (raise (.num n) b).chan ch = if liveEvent n = true then creditedBy n b.now ch.toNat (b.chan ch) else b.chan ch := by
  let b0 : Block := { b with fab := { b.fab with queue := b.fab.queue ++ [stampedEvent b (.num n)] } }
  cases hlive : liveEvent n with
  | false =>
    have hr : raise (.num n) b = b0 := if_neg (by simp [hlive])
    exact ⟨b.fab.sched, b.dma, hr, fun c => by simp, fun ch => by rw [hr]; rfl⟩
  | true =>
    have hr : raise (.num n) b = schedEvent n (creditEvent n b0) := if_pos hlive
    obtain ⟨⟨m, hm⟩, hchan⟩ := creditEvent_spec n b0
    obtain ⟨l, hl, hsched⟩ := schedEvent_spec n (creditEvent n b0)
    rw [hm] at hl hsched hchan
    rw [hr, hm, hl]
    exact ⟨l, m, rfl, fun c => (hsched c).trans (by simp [c.n.isLt]; rfl), hchan⟩
@[simp] theorem raise_num_clu (n : BitVec 10) (b : Block) (c : CluId) : (raise (.num n) b).clu c = b.clu c := by
  obtain ⟨l, m, h, -⟩ := raise_num_spec n b
  rw [h]
  rfl

@[simp] theorem raise_num_now (n : BitVec 10) (b : Block) : (raise (.num n) b).now = b.now := by
  obtain ⟨l, m, h, -⟩ := raise_num_spec n b
  rw [h]

/-! ### Captures (R213) -/

/-- Cluster `v` after an edge: awake, each of its timers that selects it has captured. -/
def Captures (now : Nat) (sel : BitVec 6) (rising : Bool) (v v' : Clu) : Prop :=
  v' = { v with timers := v'.timers } ∧
  ∀ x, Map.get {} v'.timers x = if v.asleep = true ∨ 40 ≤ x then Map.get {} v.timers x else captured now (Map.get {} v.timers x) sel rising

/-- From `b` to `t` cluster `c` alone changes, and in it timers alone, of the first 40. -/
def TimersOf (c : CluId) (b t : Block) : Prop :=
  (∃ m, t = { b with clus := m }) ∧ (∀ d, d ≠ c → t.clu d = b.clu d) ∧ t.clu c = { b.clu c with timers := (t.clu c).timers } ∧
  ∀ x, 40 ≤ x → t.timer c x = b.timer c x

theorem timer_modTimer_ne (b : Block) (c : CluId) (f : Timer → Timer) {x y : Nat} (h : y ≠ x) :
    (b.modTimer c x f).timer c y = b.timer c y := by
  simp [Block.modTimer, Block.timer, Map.mod, Map.get_set_ne _ _ _ h]

theorem TimersOf.modTimer {c : CluId} {b t : Block} (h : TimersOf c b t) {x : Nat} (hx : x < 40) (f : Timer → Timer) :
    TimersOf c b (t.modTimer c x f) := by
  obtain ⟨⟨m, rfl⟩, hother, hown, hbeyond⟩ := h
  refine ⟨⟨_, rfl⟩, fun d hd => ?_, ?_, fun y hy => (timer_modTimer_ne _ c f (by omega)).trans (hbeyond y hy)⟩
  · exact (clu_setClu ..).trans ((if_neg hd).trans (hother d hd))
  · simp only [Block.modTimer, modClu_eq, clu_setClu_same]
    rw [hown]

/-- The timer selects the edge. -/
def selectsEdge (t : Timer) (sel : BitVec 6) (rising : Bool) : Bool :=
  t.capen && t.capsel == sel && t.capedge.getLsbD (if rising then 0 else 1)

theorem captured_of_not_selects {t : Timer} {sel : BitVec 6} {rising : Bool} (now : Nat) (h : ¬ selectsEdge t sel rising = true) :
    captured now t sel rising = t := if_neg h

/-- A timer at its reset values selects none. -/
theorem selectsEdge_default (sel : BitVec 6) (rising : Bool) : ¬ selectsEdge {} sel rising = true := by
  simp [selectsEdge, Timer.capen]

theorem captures_refl {v : Clu} (now : Nat) (sel : BitVec 6) (rising : Bool) (h : v.asleep = true ∨ v.timers = []) :
    Captures now sel rising v v := by
  refine ⟨rfl, fun x => ?_⟩
  rcases h with h | h
  · rw [if_pos (.inl h)]
  · rw [h, Map.get, captured_of_not_selects now (selectsEdge_default sel rising), ite_self]

/-- In an awake cluster the edge reaches the timers one by one. -/
theorem captureEdge_awake {c : CluId} {b : Block} (sel : BitVec 6) (rising : Bool)
    (h : ¬ ((b.clu c).asleep = true ∨ (b.clu c).timers = [])) : captureEdge c sel rising b =
      times 40 (fun x b => if selectsEdge (b.timer c x) sel rising = true then
        b.modTimer c x (fun _ => captured b.now (b.timer c x) sel rising) else b) b := by
  unfold captureEdge
  rw [if_neg (by simpa using h)]
  congr 1
  funext x t
  have hsel : ((t.timer c x).capen && (t.timer c x).capsel == sel &&
      if rising then (t.timer c x).capedge.getLsbD 0 else (t.timer c x).capedge.getLsbD 1) = selectsEdge (t.timer c x) sel rising := by
    cases rising <;> rfl
  dsimp only
  rw [hsel]
  split_ifs with hs
  · exact congrArg (fun u => t.modTimer c x fun _ => u) (if_pos hs).symm
  · rfl

theorem captureEdge_spec (c : CluId) (sel : BitVec 6) (rising : Bool) (b : Block) :
    (∃ m, captureEdge c sel rising b = { b with clus := m }) ∧ (∀ d, d ≠ c → (captureEdge c sel rising b).clu d = b.clu d) ∧
      Captures b.now sel rising (b.clu c) ((captureEdge c sel rising b).clu c) := by
  by_cases hstill : (b.clu c).asleep = true ∨ (b.clu c).timers = []
  · have hsame : captureEdge c sel rising b = b := if_pos (by simpa using hstill)
    rw [hsame]
    exact ⟨⟨b.clus, rfl⟩, fun _ _ => rfl, captures_refl b.now sel rising hstill⟩
  · have key : TimersOf c b (captureEdge c sel rising b) ∧
        ∀ x < 40, (captureEdge c sel rising b).timer c x = captured b.now (b.timer c x) sel rising := by
      rw [captureEdge_awake sel rising hstill]
      refine times_own (TimersOf c b) (fun t x => t.timer c x) (fun _ u u' => u' = captured b.now u sel rising)
        ⟨⟨b.clus, rfl⟩, fun _ _ => rfl, rfl, fun _ _ => rfl⟩ ?_
      intro x t hx ht
      have hnow : t.now = b.now := by
        obtain ⟨⟨m, rfl⟩, -⟩ := ht
        rfl
      rw [hnow]
      split_ifs with hs
      · exact ⟨ht.modTimer hx _, timer_modTimer_same .., fun y _ hy => timer_modTimer_ne _ c _ hy⟩
      · exact ⟨ht, (captured_of_not_selects b.now hs).symm, fun _ _ _ => rfl⟩
    obtain ⟨⟨hframe, hother, hown, hbeyond⟩, hcap⟩ := key
    refine ⟨hframe, hother, hown, fun x => ?_⟩
    by_cases hx : 40 ≤ x
    · rw [if_pos (.inr hx)]
      exact hbeyond x hx
    · rw [if_neg (not_or.2 ⟨fun ha => hstill (.inl ha), hx⟩)]
      exact hcap x (Nat.lt_of_not_le hx)

/-- An edge of a pin reaches the timers of every cluster. -/
theorem captureAll_spec (sel : BitVec 6) (rising : Bool) (b : Block) :
    let t := times 64 (fun i b => captureEdge (BitVec.ofNat 6 i) sel rising b) b
    (∃ m, t = { b with clus := m }) ∧ ∀ c, Captures b.now sel rising (b.clu c) (t.clu c) := by
  obtain ⟨hframe, hcap⟩ := times_own (f := fun i b => captureEdge (BitVec.ofNat 6 i) sel rising b) (a := b) (n := 64)
    (fun t => ∃ m, t = { b with clus := m }) (fun t i => t.clu (BitVec.ofNat 6 i)) (fun _ => Captures b.now sel rising)
    ⟨b.clus, rfl⟩ (by
      rintro i _ hi ⟨m, rfl⟩
      obtain ⟨⟨m', hm⟩, hother, hown⟩ := captureEdge_spec (BitVec.ofNat 6 i) sel rising { b with clus := m }
      exact ⟨⟨m', hm⟩, hown, fun j hj hji => hother _ (ofNat_ne hi hj hji)⟩)
  refine ⟨hframe, fun c => ?_⟩
  have h := hcap c.toNat c.isLt
  rwa [BitVec.ofNat_toNat, BitVec.setWidth_eq] at h

/-! ### Writes of an INST_ register -/

theorem shut_inst (b : Block) (o : Origin) (r : Nat) : shut b o (.inst r) = false := by
  simp [shut, winPart]

/-- A write of an INST_ register lands, and is performed. -/
theorem land_write_inst (o : Origin) (peek : Bool) (r : Nat) (d : Reg32) (b : Block) :
    land o peek (.inst r) (.write d) b = (nativeWrite o (.inst r) d b, some 0) := by
  change ((nativeAccess o peek (.inst r) (.write d) b).1, some (nativeAccess o peek (.inst r) (.write d) b).2) = _
  unfold nativeAccess
  rw [shut_inst]
  rfl

/-- At a port the write is answered as it lands. -/
theorem landAnswer_write_inst (o : Origin) (peek : Bool) (r : Nat) (d : Reg32) (b : Block) :
    landAnswer o peek (.inst r) (.write d) b = answerPort o 0 false (nativeWrite o (.inst r) d b) := by
  unfold landAnswer
  rw [land_write_inst]

/-- INST_SWEV's write raises the events of its bits. -/
theorem nativeWrite_swev (o : Origin) (ev : Reg32) (b : Block) : nativeWrite o (.inst 0x38) ev b = raiseSwev ev b := rfl

/-- Its effect, by the origin: the events of an AT word's store are stamped with the word's target (R219). -/
def swevEffect (ev : Reg32) (o : Origin) (b : Block) : Block := match o with
  | .ctx e k => (match (firstWindow (b.eng e) k).bind (fun x => x.2.target) with
    | some t => { raiseSwev ev { b with tick := t.1, now := t.2 } with tick := b.tick, now := b.now }
    | none => raiseSwev ev b)
  | _ => raiseSwev ev b

theorem stampedAs_of_none {p : Pend} (h : p.target = none) (f : Block → Block × Option Reg32) (b : Block) : stampedAs p f b = f b := by
  unfold stampedAs
  rw [h]

theorem stampedAs_swev {p : Pend} {t : Tick × Nat} (h : p.target = some t) (hwin : p.win = .inst 0x38)
    (f : Block → Block × Option Reg32) (b : Block) : stampedAs p f b =
      ({ (f { b with tick := t.1, now := t.2 }).1 with tick := b.tick, now := b.now }, (f { b with tick := t.1, now := t.2 }).2) := by
  unfold stampedAs
  rw [h, hwin]
  rfl

theorem firstWindow_k {g : Eng} {k : CtxId} {x : BitVec 5 × Pend} (h : firstWindow g k = some x) : x.2.k = k := by
  obtain ⟨hpend, -⟩ := List.mem_filter.1 (List.mem_of_find?_eq_some h)
  obtain ⟨i, -, hi⟩ := List.mem_filterMap.1 hpend
  split at hi
  · split at hi
    · next hk =>
      cases hi
      exact hk
    · cases hi
  · cases hi

/-- A context's store that is its first access lands: its events, and then its tag is free. -/
theorem ctxAccess_swev {e : EngId} {k : CtxId} {ev : Reg32} {b : Block} {x : BitVec 5 × Pend} (hfirst : firstWindow (b.eng e) k = some x)
    (hwin : x.2.win = .inst 0x38) (hacc : x.2.acc = some (.write ev)) : ctxAccess e k (.inst 0x38) (.write ev) b =
      settle (ctxNo e k) ((swevEffect ev (.ctx e k) b).modEng e (fun g => g.setTag x.1 none)) := by
  have hk : x.2.k = k := firstWindow_k hfirst
  have hstamped : stampedAs x.2 (land (.ctx e k) false x.2.win (.write ev)) b = (swevEffect ev (.ctx e k) b, some 0) := by
    cases ht : x.2.target with
    | none => simp only [stampedAs_of_none ht, hwin, land_write_inst, nativeWrite_swev, swevEffect, hfirst, Option.bind_some, ht]
    | some t => simp only [stampedAs_swev ht hwin, hwin, land_write_inst, nativeWrite_swev, swevEffect, hfirst, Option.bind_some, ht]
  unfold ctxAccess
  rw [hfirst]
  simp only [hwin, hacc, and_self, if_true]
  unfold performWindow
  simp only [hk, hstamped]
  rfl

/-- A write of INST_SWEV that lands. -/
theorem portAccess_swev {o : Origin} {ev : Reg32} {b : Block} (h : CanLand b o (.inst 0x38) (.write ev)) :
    portAccess o (.inst 0x38) (.write ev) b = portEnd b o (.write ev) 0 (swevEffect ev o b) := by
  obtain ⟨hon, -, -, -, hheld, hway⟩ := h
  cases o with
  | ireg => exact hway.elim
  | synCore => exact (portRequest_first hon hheld (by simp)).trans (landAnswer_write_inst ..)
  | hreg => exact (portRequest_first hon hheld (by simp)).trans (landAnswer_write_inst ..)
  | dap =>
    obtain ⟨hbus, hfuse, -⟩ := hway
    have hdap : dapAccess (.inst 0x38) (.write ev) b = landAnswer .dap (!b.dbg.side) (.inst 0x38) (.write ev) b := by
      simp [dapAccess, hfuse]
    exact (portRequest_first hon hheld fun _ => hbus).trans (hdap.trans (landAnswer_write_inst ..))
  | ctx e k =>
    have hacc : portAccess (.ctx e k) (.inst 0x38) (.write ev) b = ctxAccess e k (.inst 0x38) (.write ev) b := if_neg hon
    rw [hacc]
    dsimp only at hway
    split at hway
    · next x hfirst =>
      rw [ctxAccess_swev hfirst hway.1 hway.2]
      simp only [portEnd, hfirst]
      rfl
    · exact hway.elim

/-! ### The rows -/

/-- A change that a pin takes, field by field. -/
theorem eq_changeOf_iff (b : Block) (c : PinChange) : c = changeOf b c.n ↔
    c.at_ = b.now + 8 ∧ c.stamp = b.tick ∧ c.era = b.fab.era ∧ c.toggle = ((b.evtReg c.n).extractLsb' 10 2 == 2) := by
  obtain ⟨n, at_, stamp, era, toggle⟩ := c
  simp [changeOf]

/-- An edge of EVT_IN: the level, the event and the captures. -/
theorem opEvtInEdge_spec (n : BitVec 5) {b : Block} (hon : b.mode ≠ .off) :
    let rising := !(b.fab.evtIn.getLsbD n.toNat)
    let t := opEvtInEdge n b
    t = { raiseN ((if rising then 0x100 else 0x120) + n.toNat)
        { b with fab := { b.fab with evtIn := putBit b.fab.evtIn n.toNat rising } } with clus := t.clus } ∧
    ∀ c, Captures b.now (0x20 + n.setWidth 6) rising (b.clu c) (t.clu c) := by
  intro rising
  let b0 := raiseN ((if rising then 0x100 else 0x120) + n.toNat)
    { b with fab := { b.fab with evtIn := putBit b.fab.evtIn n.toNat rising } }
  have hop : opEvtInEdge n b = times 64 (fun i b => captureEdge (BitVec.ofNat 6 i) (0x20 + n.setWidth 6) rising b) b0 := if_neg hon
  have hclu : ∀ c, b0.clu c = b.clu c := fun c => raise_num_clu _ _ c
  have hnow : b0.now = b.now := raise_num_now _ _
  obtain ⟨⟨m, hm⟩, hcap⟩ := captureAll_spec (0x20 + n.setWidth 6) rising b0
  rw [hop]
  refine ⟨?_, fun c => ?_⟩
  · rw [hm]
  · rw [← hclu, ← hnow]
    exact hcap c

/-- The earliest change of a pin, which is due. -/
theorem opEvtOutChange_of_due {n : BitVec 5} {c : PinChange} {b : Block} (h : b.fab.sched.find? (fun c => c.n == n) = some c)
    (hdue : c.at_ ≤ b.now) : opEvtOutChange n b = { b with fab := { b.fab with
      sched := b.fab.sched.erase c
      pins := if c.toggle then b.fab.pins ^^^ BitVec.ofNat 32 (2 ^ n.toNat) else putBit b.fab.pins n.toNat true
      pulseEnd := if c.toggle then b.fab.pulseEnd else
        Map.set 0 b.fab.pulseEnd n.toNat (c.at_ + ((b.evtReg n).extractLsb' 12 8).toNat + 1) } } := by
  unfold opEvtOutChange
  rw [h]
  exact if_pos hdue

/-- TICKSEC, once in its tick. -/
theorem opTicksec_of_due {b : Block} (hon : b.mode ≠ .off) (hdue : b.tick.toNat % 1000000000 = 0 ∨ b.fab.ticksecSkip = true)
    (honce : b.fab.ticksecAt ≠ some b.now) :
    opTicksec b = raiseN 0x1E1 { b with fab := { b.fab with ticksecAt := some b.now, ticksecSkip := false } } :=
  if_pos (by simp [hon, hdue, honce])

/-- What a command in turn leaves has the property that its effect gives. -/
theorem gives_of_exec {c : Instr} {s : State} {f : Block → Block} {P : Block → Prop} (h : exec c s = atTurn (turnOf c) f s)
    (hP : P (f s.blk)) : Gives c s P := fun hturn => ⟨_, does_of_exec h hturn, hP⟩

/-- Settles O27: an event by its credits and its pin changes, and each row by its effect. -/
theorem eventsEnterTheFabricAndDriveThePins : Obligations.EventsEnterTheFabricAndDriveThePins := by
  unfold Obligations.EventsEnterTheFabricAndDriveThePins
  refine ⟨?raised, ?edge, ?change, ?pulseEnd, ?ticksec, ?swev⟩
  case raised =>
    intro b n
    obtain ⟨l, m, hr, hsched, hchan⟩ := raise_num_spec n b
    refine ⟨?_, fun c => ?_, fun ch => ?_⟩
    · rw [hr]
      rfl
    · rw [hr, hsched, eq_changeOf_iff]
      simp only [TakesChange]
      tauto
    · rw [hchan]
      cases liveEvent n <;> simp [creditedBy]
  case edge =>
    intro s n b rising hon
    exact gives_of_exec rfl (opEvtInEdge_spec n hon)
  case change =>
    intro s n c b w h hdue
    refine ⟨fun ht => ?_, fun ht => ?_⟩
    all_goals
      have hop := opEvtOutChange_of_due h hdue
      simp only [ht, if_true, Bool.false_eq_true, if_false] at hop
      exact hop ▸ does_of_exec rfl
  case pulseEnd =>
    intro s n b e h hdue
    have hop : opEvtOutPulseEnd n s.blk = _ := if_pos ⟨h, hdue⟩
    exact hop ▸ does_of_exec rfl
  case ticksec =>
    intro s b hon hdue honce
    exact opTicksec_of_due hon hdue honce ▸ does_of_exec rfl
  case swev =>
    intro ev s o h
    have hdoes : Does (.instSwev o ev) s _ := does_of_exec rfl
    rw [portAccess_swev h] at hdoes
    cases o <;> exact hdoes

end Sys2Proof.Machine

/-! ### A timeout at the Affix port of a paused cluster

A retraining pause stops the timeouts of its island (R71, R374): the timeout of a request of a paused engine changes nothing, while
the statement's clause leaves the pause out. -/

namespace Sys2Proof.Machine
open Sys2Proof

/-- An Affix request of context 0 that has not been answered. -/
def affixPend : Pend :=
  { kind := .affix, k := 0, ea := 0, data := 0, dst := 0, opc := 0, tenant := 0, priv := false, lvl := .prog, fupc := 16, seq := 0 }

/-- It waits under tag 31 of engine 0, whose island is in a retraining pause. -/
def affixPausedBlock : Block :=
  ({ mode := .service, paused := [(0, some 0)] } : Block).modEng 0 (fun g => g.setTag 31 (some affixPend))
def affixPausedState : State := { blk := affixPausedBlock }

/-- The generation of tag 31, which a timeout advances. -/
def affixGen (b : Block) : BitVec 2 := Map.get 0 (b.eng 0).tagGen 31

theorem affixPaused_inTurn : InTurn (.affixTimeout 0 31) affixPausedState := by
  decide +kernel

theorem affixPaused_tag : (affixPausedBlock.eng 0).tag 31 = some affixPend := by
  decide +kernel

/-- In the pause the request keeps its generation. -/
theorem affixGen_opAffixTimeout_paused : affixGen (opAffixTimeout 0 31 affixPausedBlock) = 0 := by
  decide +kernel

/-- Refutes O20: its clause on AFFIX_TIMEOUT says that the timeout of every Affix request that is pending frees its tag and advances
its generation; that of an engine in a retraining pause leaves the block as it is. -/
theorem not_affixRequestsAreSentAnsweredOrTimedOut : ¬ Obligations.AffixRequestsAreSentAnsweredOrTimedOut := by
  unfold Obligations.AffixRequestsAreSentAnsweredOrTimedOut
  rintro ⟨-, -, htimeout⟩
  have hclause := htimeout affixPausedState 0 31 affixPend affixPaused_tag rfl
  have heq := congrArg affixGen ((does_of_exec rfl).unique hclause affixPaused_inTurn)
  have hadvanced : affixGen (opAffixTimeout 0 31 affixPausedBlock) = 1 := heq.trans (by decide +kernel)
  exact absurd (affixGen_opAffixTimeout_paused.symm.trans hadvanced) (by decide)

end Sys2Proof.Machine

/-! Register files that are set and read again, and what a word without a result does to its own (R88, R155). -/

namespace Sys2Proof.Machine
open Sys2Proof

/-! ### The register file of a level, set and read again (R155) -/

theorem unviewCtx_view (c : Ctx) (g : Eng) (l : Lvl) : unviewCtx c (view c g l) l = c := by
  cases l <;> simp [unviewCtx, view]

theorem unviewEng_view (c : Ctx) (g : Eng) (l : Lvl) : unviewEng g (view c g l) l = g := by
  cases l <;> simp [unviewEng, view, Eng.modBank, Eng.setBank, Eng.bank]

theorem setFile_setFile (b : Block) (n : CtxNo) (l : Lvl) (v w : Ctx) :
    (b.setFile n l v).setFile n l w = b.setFile n l w := by
  simp only [Block.setFile, modEng_eq, ctx_setCtx_same, eng_setCtx, eng_setEng_same, unviewCtx_unviewCtx, setCtx_setEng,
    setEng_setEng, setCtx_setCtx, unviewEng_unviewEng]

theorem modFile_setFile (b : Block) (n : CtxNo) (l : Lvl) (v : Ctx) (f : Ctx → Ctx) (h : FileFor (b.ctx n) l v) :
    (b.setFile n l v).modFile n l f = b.setFile n l (f v) := by
  rw [Block.modFile, file_setFile b n l v h, setFile_setFile]

/-- A change of fields that every level shares goes into the file. -/
theorem modCtx_setFile (b : Block) (n : CtxNo) (l : Lvl) (v : Ctx) (f : Ctx → Ctx)
    (h : ∀ c v, f (unviewCtx c v l) = unviewCtx c (f v) l) (hb : ∀ g v, unviewEng g (f v) l = unviewEng g v l) :
    (b.setFile n l v).modCtx n f = b.setFile n l (f v) := by
  simp only [Block.setFile, modCtx_eq, modEng_eq, ctx_setCtx_same, setCtx_setCtx, h, hb]

/-- A change of the engine that leaves its banks alone comes before the file. -/
theorem modEng_setFile (b : Block) (n : CtxNo) (l : Lvl) (v : Ctx) (f : Eng → Eng)
    (h : ∀ g v, f (unviewEng g v l) = unviewEng (f g) v l) :
    (b.setFile n l v).modEng (engOf n) f = (b.modEng (engOf n) f).setFile n l v := by
  simp only [Block.setFile, modEng_eq, eng_setCtx, eng_setEng_same, setCtx_setEng, setEng_setEng, ctx_setEng, h]

theorem ctx_setFile_same (b : Block) (n : CtxNo) (l : Lvl) (v : Ctx) : (b.setFile n l v).ctx n = unviewCtx (b.ctx n) v l := by
  simp [Block.setFile, modEng_eq]
theorem ctx_setFile (b : Block) (n : CtxNo) (l : Lvl) (v : Ctx) (m : CtxNo) :
    (b.setFile n l v).ctx m = if m = n then unviewCtx (b.ctx n) v l else b.ctx m := by
  simp [Block.setFile, modEng_eq, ctx_setCtx]
theorem eng_setFile (b : Block) (n : CtxNo) (l : Lvl) (v : Ctx) (x : EngId) :
    (b.setFile n l v).eng x = if x = engOf n then unviewEng (b.eng (engOf n)) v l else b.eng x := by
  simp [Block.setFile, modEng_eq, eng_setEng]

@[simp] theorem unviewCtx_upc (c v : Ctx) (l : Lvl) : (unviewCtx c v l).upc = v.upc := by cases l <;> rfl
@[simp] theorem unviewCtx_act (c v : Ctx) (l : Lvl) : (unviewCtx c v l).act = v.act := by cases l <;> rfl
@[simp] theorem unviewCtx_latch (c v : Ctx) (l : Lvl) : (unviewCtx c v l).latch = v.latch := by cases l <;> rfl
@[simp] theorem unviewCtx_lvl (c v : Ctx) (l : Lvl) : (unviewCtx c v l).lvl = v.lvl := by cases l <;> rfl

theorem goto_setFile (b : Block) (n : CtxNo) (l : Lvl) (v : Ctx) (a : CsAddr) :
    goto n a (b.setFile n l v) = b.setFile n l { v with upc := a, act := .idle } :=
  modCtx_setFile b n l v _ (by cases l <;> intros <;> rfl) (by cases l <;> intros <;> rfl)

theorem stop_setFile (b : Block) (n : CtxNo) (l : Lvl) (v : Ctx) (x : Act) :
    stop n x (b.setFile n l v) = b.setFile n l { v with act := x } :=
  modCtx_setFile b n l v _ (by cases l <;> intros <;> rfl) (by cases l <;> intros <;> rfl)

theorem getLsbD_putBit {k : Nat} (v : BitVec k) (i : Nat) (x : Bool) (j : Nat) (hj : j < k) :
    (putBit v i x).getLsbD j = if j = i then x else v.getLsbD j := by
  have hbit : (BitVec.ofNat k (2 ^ i)).getLsbD j = decide (i = j) := by
    rw [BitVec.getLsbD_ofNat, Nat.testBit_two_pow]
    simp [hj]
  unfold putBit
  generalize BitVec.ofNat k (2 ^ i) = m at hbit
  by_cases hij : j = i
  · rw [decide_eq_true hij.symm] at hbit
    cases x <;> simp [-BitVec.getLsbD_eq_getElem, hbit, hj, if_pos hij]
  · rw [decide_eq_false (Ne.symm hij)] at hbit
    cases x <;> simp [-BitVec.getLsbD_eq_getElem, hbit, hj, if_neg hij]

theorem putBit_putBit_self {k : Nat} (v : BitVec k) (i : Nat) (x y : Bool) : putBit (putBit v i x) i y = putBit v i y := by
  apply BitVec.eq_of_getLsbD_eq
  intro j hj
  simp only [getLsbD_putBit _ _ _ _ hj]
  split <;> rfl

theorem putBit_getLsbD {k : Nat} (v : BitVec k) (i : Nat) : putBit v i (v.getLsbD i) = v := by
  apply BitVec.eq_of_getLsbD_eq
  intro j hj
  rw [getLsbD_putBit _ _ _ _ hj]
  split
  · next h => rw [h]
  · rfl

theorem setReg16_reg16 (v : Vector Word 16) (i : BitVec 4) : setReg16 v i (reg16 v i) = v := by
  simp [setReg16, reg16, Vector.get]

/-! ### Words without a result -/

/-- The word has no ALU result, no lane operation and no XFER code: of its registers it writes at most MBASE. -/
abbrev NoResult (w : MWord) : Prop := (w.aluop = 0 ∨ w.isAfx = true) ∧ w.laneop = 0 ∧ w.xfer = 0

theorem isAfx_bounds {w : MWord} (h : w.isAfx = true) : 0x70 ≤ w.aluop.toNat ∧ w.aluop.toNat < 0x80 := by
  have hop : (w.aluop.extractLsb' 4 3).toNat = 7 := by rw [eq_of_beq h]; rfl
  rw [BitVec.extractLsb'_toNat, Nat.shiftRight_eq_div_pow] at hop
  omega

theorem alu_none (op : BitVec 7) (h : op.toNat = 0 ∨ 0x70 ≤ op.toNat) (x a b accA accD c) : alu op x a b accA accD c = {} := by
  unfold alu
  split <;> first | rfl | (exfalso; omega)

/-- What the word's own W stage leaves of a register file: MBASE's write-back (R107). -/
def basedFile (s : Snap) (c : Ctx) : Ctx :=
  if s.w.isMem = true ∧ s.w.mmode = 1 then
    { c with a := setReg16 c.a s.w.mbase (reg16 c.a s.w.mbase + s.w.disp16.signExtend 48) }
  else if s.w.isMem = true ∧ s.w.mmode = 2 then { c with a := setReg16 c.a s.w.mbase s.ea } else c

/-- The sticky EARLY (R125). -/
def earlied (early : Bool) (c : Ctx) : Ctx := { c with stat := putBit c.stat 5 (c.stat.getLsbD 5 || early) }

variable {n : CtxNo} {s : Snap}

theorem NoResult.aluop {w : MWord} (h : NoResult w) : w.aluop.toNat = 0 ∨ 0x70 ≤ w.aluop.toNat := by
  obtain ⟨h | h, -⟩ := h
  · exact .inl (by rw [h]; rfl)
  · exact .inr (isAfx_bounds h).1

theorem wRegs_noResult (h : NoResult s.w) (b : Block) : wRegs b n s = basedFile s (b.file n s.lvl) := by
  have hop := h.aluop
  obtain ⟨hafx, -, hx⟩ := h
  have hflags : aluFlags s.w.aluop = false := by simp only [aluFlags, decide_eq_false_iff_not]; omega
  have hacc : aluAccDst s.w.aluop = false := by simp only [aluAccDst, decide_eq_false_iff_not]; omega
  have hdst : (aluWritesDst s.w.aluop && !s.w.isAfx) = false := by
    rcases hafx with h0 | h1
    · simp [aluWritesDst, h0]
    · simp [h1]
  unfold wRegs basedFile
  simp only [aluOf, alu_none _ hop, hflags, hacc, hdst, hx, Bool.or_false, Bool.and_false, Bool.false_and, if_false, Bool.false_eq_true,
    putBit_getLsbD, setReg16_reg16, show xferGets 0 = false from rfl, beq_iff_eq, Bool.and_eq_true]
  rfl



end Sys2Proof.Machine

/-! The effects of a word that gives no result: its registers, the request that it leaves, and the whole of its issue (R69, R70, R88). -/

namespace Sys2Proof.Machine
open Sys2Proof
section
variable {n : CtxNo} {s : Snap}

theorem mulOf_noResult (h : NoResult s.w) : mulOf s = none := by
  have hop := h.aluop
  unfold mulOf
  split <;> first | rfl | (exfalso; omega)

/-- The word's D stage meets a product that is under way (R125). -/
abbrev seesEarly (b : Block) (n : CtxNo) (w : MWord) : Bool := earlyRead w && mulInFlight (b.ctx n)

/-- The register file that a word without a result leaves. -/
def quietFile (b : Block) (n : CtxNo) (s : Snap) : Ctx := earlied (seesEarly b n s.w) (basedFile s (b.file n s.lvl))

theorem wInternal_noResult (h : NoResult s.w) (b : Block) : wInternal n s b = b.setFile n s.lvl (quietFile b n s) := by
  have hop := h.aluop
  have hflags : aluFlags s.w.aluop = false := by simp only [aluFlags, decide_eq_false_iff_not]; omega
  have hdiv : s.w.isDiv = false := by
    simp only [MWord.isDiv, Bool.or_eq_false_iff, beq_eq_false_iff_ne, ne_eq, ← BitVec.toNat_inj]
    simp; omega
  have hx : ¬ s.w.xfer = 0x0B := by rw [h.2.2]; decide
  unfold wInternal
  simp only [mulOf_noResult h, hdiv, hflags, hx, Bool.and_false, Bool.false_and, if_false, Bool.false_eq_true, wRegs_noResult h]
  rfl

@[simp] theorem basedFile_shadow (c : Ctx) : (basedFile s c).shadow = c.shadow := by unfold basedFile; split_ifs <;> rfl

theorem fileFor_of_shadow (b : Block) (n : CtxNo) (l : Lvl) {v : Ctx} (h : v.shadow = (b.file n l).shadow) : FileFor (b.ctx n) l v := by
  have hf := fileFor_file b n l
  unfold FileFor at *
  rwa [h]

theorem fileFor_quietFile (b : Block) : FileFor (b.ctx n) s.lvl (quietFile b n s) :=
  fileFor_of_shadow b n s.lvl (basedFile_shadow _)

/-- An Affix operation or an access of Affix space: its request joins the engine's Affix queue (R70). -/
def joinsAffix : PendKind → Bool
  | .affix | .affixMem _ => true
  | _ => false

/-- The request that the word leaves (R69, R70). -/
def pendOf (b : Block) (n : CtxNo) (s : Snap) (k : PendKind) : Pend :=
  { kind := k, k := ctxOf n, ea := if s.w.isAfx then s.a else s.ea
    data := if s.w.isAfx then s.b.setWidth 104 else if isAcc s.w.srcb then s.accB else s.b.setWidth 104
    dst := s.w.dst, opc := s.w.aluop.extractLsb' 0 4, tenant := reqTenant (b.ctx n) s.lvl, priv := s.priv, lvl := s.lvl
    fupc := s.upc, seq := b.seq, inj := s.inj.isSome, target := if s.w.seq = 7 then some (b.tick, b.now) else none }

/-- The engine with the request under its tag, and in the Affix queue where it belongs there. -/
def leaveRequest (w : MWord) (p : Pend) (g : Eng) : Eng :=
  { underTag w.mtag p g with afxQ := if joinsAffix p.kind then g.afxQ ++ [w.mtag] else g.afxQ }

/-- The block with the request of the word. -/
def requested (b : Block) (n : CtxNo) (s : Snap) (k : PendKind) : Block :=
  { b with seq := b.seq + 1 }.setEng (engOf n) (leaveRequest s.w (pendOf b n s k) (b.eng (engOf n)))

theorem leaveRequest_unviewEng (w : MWord) (p : Pend) (g : Eng) (v : Ctx) (l : Lvl) :
    leaveRequest w p (unviewEng g v l) = unviewEng (leaveRequest w p g) v l := by
  cases l <;> rfl

theorem tenant_unviewCtx (c v : Ctx) (l : Lvl) : (unviewCtx c v l).tenant = v.tenant := by cases l <;> rfl
theorem tenant_file (b : Block) (n : CtxNo) (l : Lvl) : (b.file n l).tenant = (b.ctx n).tenant := by
  cases l <;> rfl
theorem tenant_quietFile (b : Block) : (quietFile b n s).tenant = (b.ctx n).tenant := by
  rw [← tenant_file b n s.lvl]
  unfold quietFile earlied basedFile
  split_ifs <;> rfl

/-- The request goes under its tag in the block that the word's registers leave. -/
theorem takeTag_setFile (b : Block) (k : PendKind) :
    requested (b.setFile n s.lvl (quietFile b n s)) n s k = (requested b n s k).setFile n s.lvl (quietFile b n s) := by
  have hp : pendOf (b.setFile n s.lvl (quietFile b n s)) n s k = pendOf b n s k := by
    unfold pendOf reqTenant
    rw [ctx_setFile_same, tenant_unviewCtx, tenant_quietFile]
    rfl
  unfold requested
  rw [hp, eng_setFile, if_pos rfl, leaveRequest_unviewEng]
  have hseq : { b.setFile n s.lvl (quietFile b n s) with seq := b.seq + 1 } =
    { b with seq := b.seq + 1 }.setFile n s.lvl (quietFile b n s) := rfl
  change ({ b.setFile n s.lvl (quietFile b n s) with seq := b.seq + 1 } : Block).setEng _ _ = _
  rw [hseq]
  simp only [Block.setFile, modEng_eq, eng_setEng_same, setEng_setEng, setCtx_setEng]
  rfl

theorem wordCmps_unwatched {b : Block} (h : ∀ x ∈ engCmps b (engOf n), x.2.watches (ctxOf n) = false) :
    wordCmps n s b = b := by
  unfold wordCmps dataCmps
  simp only [matching_nil h, fire_nil, ite_self]

/-- The comparators that an engine sees are its own and its cluster's. -/
theorem engCmps_congr {b c : Block} {e : EngId} (hcmp : (b.eng e).dbg.cmp = (c.eng e).dbg.cmp) (hclu : b.clu (cluOf e) = c.clu (cluOf e)) :
    engCmps b e = engCmps c e := by
  simp only [engCmps, hcmp, hclu]

theorem laneAct_none (h : s.w.laneop = 0) (b : Block) : laneAct n s b = b := by
  unfold laneAct
  simp [h]

theorem takeTag_eq (k : PendKind) (b : Block) :
    takeTag n s k b = { b with seq := b.seq + 1 }.setEng (engOf n) (underTag s.w.mtag (pendOf b n s k) (b.eng (engOf n))) := rfl

theorem requested_eq (k : PendKind) (b : Block) : requested b n s k =
    if joinsAffix k then (takeTag n s k b).modEng (engOf n) (fun g => { g with afxQ := g.afxQ ++ [s.w.mtag] })
    else takeTag n s k b := by
  rw [takeTag_eq, modEng_eq, eng_setEng_same, setEng_setEng]
  cases k <;> rfl

theorem wExternal_request (h : NoResult s.w) {k : PendKind} (hk : requestOf s = some k) {b : Block}
    (hcmp : ∀ x ∈ engCmps b (engOf n), x.2.watches (ctxOf n) = false) : wExternal n s b = requested b n s k := by
  obtain ⟨-, hl, hx⟩ := h
  have hwatch : ∀ x ∈ engCmps (requested b n s k) (engOf n), x.2.watches (ctxOf n) = false := by
    rw [engCmps_congr (b := requested b n s k) (c := b) (by rw [requested, eng_setEng_same]; rfl) rfl]
    exact hcmp
  rw [requested_eq] at hwatch ⊢
  unfold wExternal
  simp only [hk, hl, hx, laneWritesDst, laneAct_none hl]
  cases k <;> exact wordCmps_unwatched hwatch

theorem wExternal_quiet (h : NoResult s.w) (hk : requestOf s = none) {b : Block}
    (hcmp : ∀ x ∈ engCmps b (engOf n), x.2.watches (ctxOf n) = false) : wExternal n s b = b := by
  obtain ⟨-, hl, hx⟩ := h
  unfold wExternal
  simp [hk, hl, hx, laneWritesDst, laneAct_none hl, wordCmps_unwatched hcmp]

theorem unwatched_setFile {b : Block} {l : Lvl} {v : Ctx} (hcmp : ∀ x ∈ engCmps b (engOf n), x.2.watches (ctxOf n) = false) :
    ∀ x ∈ engCmps (b.setFile n l v) (engOf n), x.2.watches (ctxOf n) = false := by
  rw [engCmps_congr (b := b.setFile n l v) (c := b) (by rw [eng_setFile, if_pos rfl]; cases l <;> rfl) rfl]
  exact hcmp

theorem earlied_earlied (c : Ctx) : { earlied true c with stat := putBit (earlied true c).stat 5 true } = earlied true c := by
  simp only [earlied, Bool.or_true, putBit_putBit_self]

/-- EARLY once set stays as it is. -/
theorem early_again (b : Block) (h : seesEarly b n s.w = true) :
    { quietFile b n s with stat := putBit (quietFile b n s).stat 5 true } = quietFile b n s := by
  unfold quietFile
  rw [h, earlied_earlied]

theorem wStage_request (h : NoResult s.w) {k : PendKind} (hk : requestOf s = some k) {b : Block}
    (hcmp : ∀ x ∈ engCmps b (engOf n), x.2.watches (ctxOf n) = false) :
    wStage n s b = (requested b n s k).setFile n s.lvl (quietFile b n s) := by
  unfold wStage
  simp only [wInternal_noResult h, wExternal_request h hk (unwatched_setFile hcmp), takeTag_setFile]
  split
  · next he => rw [modFile_setFile (requested b n s k) _ _ _ _ (fileFor_quietFile b), early_again b he]
  · rfl

theorem wStage_quiet (h : NoResult s.w) (hk : requestOf s = none) {b : Block}
    (hcmp : ∀ x ∈ engCmps b (engOf n), x.2.watches (ctxOf n) = false) :
    wStage n s b = b.setFile n s.lvl (quietFile b n s) := by
  unfold wStage
  simp only [wInternal_noResult h, wExternal_quiet h hk (unwatched_setFile hcmp)]
  split
  · next he => rw [modFile_setFile _ _ _ _ _ (fileFor_quietFile b), early_again b he]
  · rfl

/-! ### The word in the block that its selection leaves -/

theorem seesEarly_selected (b : Block) (n : CtxNo) (w : MWord) : seesEarly (selected b n) n w = seesEarly b n w := by
  rw [seesEarly, ctx_selected]
  rfl

/-- A debug step or a skipped comparator is over. -/
def stepOver (c : Ctx) : Ctx := { c with halt := { c.halt with skipCmp := false, stepping := false } }

theorem unwatched_selected {b : Block} (h : ∀ x ∈ engCmps b (engOf n), x.2.watches (ctxOf n) = false) :
    ∀ x ∈ engCmps (selected b n) (engOf n), x.2.watches (ctxOf n) = false := by
  obtain ⟨i, r1, r2, rc, cs, buf, he⟩ := lb_eng b n
  rw [engCmps_congr (b := selected b n) (c := b) (by rw [selected, eng_setCtx, eng_setEng_same, he]) rfl]
  exact h

theorem selected_setFile_eq (b : Block) (n : CtxNo) (l : Lvl) (v : Ctx) : (selected b n).setFile n l v =
    ({ granted b n with free := selFree b n }.setEng (engOf n) (unviewEng (issuedEng b n) v l)).setCtx n
      (unviewCtx (b.ctx n) v l) := by
  have hctx : unviewCtx ((selected b n).ctx n) v l = unviewCtx (b.ctx n) v l := by
    rw [ctx_selected]
    cases l <;> rfl
  have heng : (selected b n).eng (engOf n) = issuedEng b n := by rw [selected, eng_setCtx, eng_setEng_same, issuedEng]
  rw [Block.setFile, modEng_eq, hctx, heng, selected, setCtx_setEng, setEng_setEng, setCtx_setCtx]

/-- The parts that an issue changes, in a block `B` that differs from the present one in its bank's grants. -/
theorem onlyParts_set (B : Block) (f : Nat) (n : CtxNo) (c : Ctx) (g : Eng) :
    OnlyParts B (({ B with free := f }.setEng (engOf n) g).setCtx n c) n c g :=
  ⟨rfl, fun m => by rw [ctx_setCtx]; rfl, fun x => by rw [eng_setCtx, eng_setEng]; rfl⟩

/-- The whole effect of a word that leaves its context with a register file and changes its engine's other parts. -/
theorem onlyFile_setFile (b : Block) (n : CtxNo) (v : Ctx) : OnlyFile b ((selected b n).setFile n (lvlOf b n) v) n v := by
  rw [selected_setFile_eq]
  exact onlyParts_set (granted b n) (selFree b n) n _ _

end
end Sys2Proof.Machine

/-! Words that hold their sequencer operation alone: WAIT, YIELD, PARK and FENCE, and the ends of a WAIT and of a FENCE (R50..R61, R96, R235). -/

namespace Sys2Proof.Machine
open Sys2Proof
section
variable {b : Block} {n : CtxNo} {w : MWord}

/-- A context that a selection picks is idle, or between two steps of a long instruction. -/
theorem act_idle_of_selects (h : Selects b n w) : (b.ctx n).act = .idle := by
  obtain ⟨⟨hcan, -⟩, hbetween⟩ := h
  have hel : eligible b n = true := by
    simp only [canIssue, Bool.and_eq_true] at hcan
    exact hcan.1.1
  unfold eligible at hel
  cases hact : (b.ctx n).act <;> simp_all [betweenSteps]

theorem isLong_of_slots (hm : w.memop = 0) (hl : w.laneop = 0) : w.isLong = false := by
  simp [MWord.isLong, MWord.isLongMem, MWord.isShift, hm, hl]

/-- A level's file in a selected word's block: the step and the skip are over. -/
theorem stepOver_file (b : Block) (n : CtxNo) (l : Lvl) : (selected b n).file n l = stepOver (b.file n l) := by
  rw [file_selected]
  cases l <;> rfl

/-- The file that an issued word without a result and without a memory operation leaves. -/
theorem quietFile_selected (hm : w.memop = 0) : quietFile (selected b n) n (snapOf b n w none false) = stepOver (readFile b n w) := by
  have hbase : ∀ c, basedFile (snapOf b n w none false) c = c := fun c => by simp [basedFile, snapOf, MWord.isMem, hm]
  unfold quietFile
  rw [hbase, stepOver_file, show (snapOf b n w none false).w = w from rfl, seesEarly_selected]
  rfl

theorem noResult_of_seqAlone (h : SeqAlone w) : NoResult w := ⟨.inl h.1, h.2.2⟩

theorem requestOf_of_seqAlone (s : Snap) (h : SeqAlone s.w) : requestOf s = none := by
  obtain ⟨ha, hm, -⟩ := h
  simp [requestOf, MWord.isAfx, MWord.isLongMem, MWord.isMem, ha, hm]

/-- The block of an issued word after its W stage, where it gives no result. -/
abbrev quieted (b : Block) (n : CtxNo) (w : MWord) : Block := (selected b n).setFile n (lvlOf b n) (stepOver (readFile b n w))

theorem wStage_seqAlone (h : Issues b n w) (ha : SeqAlone w) : wStage n (snapOf b n w none false) (selected b n) = quieted b n w := by
  rw [wStage_quiet (s := snapOf b n w none false) (noResult_of_seqAlone ha) (requestOf_of_seqAlone _ ha)
    (unwatched_selected h.1.1.2.2.2.2), quietFile_selected ha.2.1]
  rfl

/-- A word that holds its sequencer operation alone does that operation, after its issue. -/
theorem issueAs_seqAlone (h : Issues b n w) (ha : SeqAlone w) (p : MWord → Bool) (hp : p w = true) (hat : w.seq ≠ 7) (hcall : w.seq ≠ 2)
    (hret : w.seq ≠ 3) : issueAs p n b = seqApply n (snapOf b n w none false) (quieted b n w) := by
  rw [issueAs_issues h p hp hat]
  unfold perform
  simp only [show (snapOf b n w none false).w = w from rfl, isLong_of_slots ha.2.1 ha.2.2.1, wStage_seqAlone h ha, hcall, hret]
  rfl

/-! ### What the sequencer reads -/

theorem lvl_file (b : Block) (n : CtxNo) (l : Lvl) : (b.file n l).lvl = (b.ctx n).lvl := by cases l <;> rfl
theorem upc_file (b : Block) (n : CtxNo) (l : Lvl) : (b.file n l).upc = (b.ctx n).upc := by cases l <;> rfl
theorem latch_file (b : Block) (n : CtxNo) (l : Lvl) : (b.file n l).latch = (b.ctx n).latch := by cases l <;> rfl
theorem muls_file (b : Block) (n : CtxNo) (l : Lvl) : (b.file n l).muls = (b.ctx n).muls := by cases l <;> rfl
theorem afxFlag_file (b : Block) (n : CtxNo) (l : Lvl) : (b.file n l).afxFlag = (b.ctx n).afxFlag := by cases l <;> rfl

theorem pends_unviewEng (g : Eng) (v : Ctx) (l : Lvl) (k : CtxId) : (unviewEng g v l).pends k = g.pends k := by cases l <;> rfl
theorem dividing_unviewEng (g : Eng) (v : Ctx) (l : Lvl) (k : CtxId) : (unviewEng g v l).dividing k = g.dividing k := by cases l <;> rfl
theorem muls_unviewCtx (c v : Ctx) (l : Lvl) : (unviewCtx c v l).muls = v.muls := by cases l <;> rfl
theorem afxFlag_unviewCtx (c v : Ctx) (l : Lvl) : (unviewCtx c v l).afxFlag = v.afxFlag := by cases l <;> rfl

/-- A source of R46 reads STAT, LC, the latches and the multiplies of the file, and what stands outside it. -/
theorem source_setFile (b : Block) (n : CtxNo) (l : Lvl) (v c c' : Ctx) (lq : BitVec 4) (i : BitVec 6) (hstat : c'.stat = c.stat)
    (hlc : c'.lc = c.lc) (hafx : v.afxFlag = (b.ctx n).afxFlag) (hmul : v.muls = (b.ctx n).muls) (hlatch : v.latch = (b.ctx n).latch)
    (hact : v.act.isShift = (b.ctx n).act.isShift) : source (b.setFile n l v) n c' lq i = source b n c lq i := by
  have hclu : ∀ x, (b.setFile n l v).clu x = b.clu x := fun _ => rfl
  simp only [source, ctx_setFile_same, eng_setFile, if_pos, pends_unviewEng, dividing_unviewEng, muls_unviewCtx, afxFlag_unviewCtx,
    unviewCtx_latch, unviewCtx_act, hstat, hlc, hafx, hmul, hlatch, hact, Block.lanes, Block.timer, hclu]

theorem fenceHeld_congr {b c : Block} (h : (b.eng (engOf n)).tags = (c.eng (engOf n)).tags) (cl : BitVec 3) (before : Nat) :
    fenceHeld b n cl before = fenceHeld c n cl before := by
  simp only [fenceHeld, Eng.pends, Eng.tag, h]

theorem fenceHeld_quieted (w : MWord) (cl : BitVec 3) (before : Nat) : fenceHeld (quieted b n w) n cl before = fenceHeld b n cl before := by
  obtain ⟨i, r1, r2, rc, cs, buf, he⟩ := lb_eng b n
  apply fenceHeld_congr
  rw [eng_setFile, if_pos rfl, selected, eng_setCtx, eng_setEng_same, he]
  cases lvlOf b n <;> rfl

theorem deadline_eq (now : Nat) (x : BitVec 8) : deadline now x =
    if x.toNat % 16 = 0 then none else some (now + x.toNat % 16 * 2 ^ (x.toNat / 16 + 4)) := by
  have hx := x.isLt
  have hlow : (x.extractLsb' 0 4).toNat = x.toNat % 16 := by simp [BitVec.extractLsb'_toNat]
  have hhigh : (x.extractLsb' 4 4).toNat = x.toNat / 16 := by
    rw [BitVec.extractLsb'_toNat, Nat.shiftRight_eq_div_pow]
    omega
  unfold deadline
  rw [hlow, hhigh]
  simp only [← BitVec.toNat_inj, hlow]
  rfl

/-! ### WAIT, YIELD, PARK and FENCE -/

section
variable {s : Snap}

theorem seqApply_wait (h : s.w.seq = 6) (b : Block) :
    seqApply n s b = settle n (stop n (.wait s.w.wsel s.w.lq (deadline b.now s.w.aux8) s.w.target) b) := by
  simp only [seqApply, h]; rfl

theorem seqApply_yield (h : s.w.seq = 10) (b : Block) : seqApply n s b =
    if (b.ctx n).latch.on &&& s.w.imm48.extractLsb' 0 24 ≠ 0 then goto n (s.upc + 1) b
    else stop n (.yieldOn (s.w.imm48.extractLsb' 0 24)) b := by
  simp only [seqApply, h]; rfl

theorem seqApply_park (h : s.w.seq = 11) (b : Block) : seqApply n s b = stop n (.park s.a (s.w.imm48.extractLsb' 0 9)) b := by
  simp only [seqApply, h]; rfl

theorem seqApply_fence (h : s.w.seq = 13) (b : Block) : seqApply n s b =
    if fenceHeld b n (s.w.aux8.extractLsb' 0 3) b.seq then stop n (.fence (s.w.aux8.extractLsb' 0 3) b.seq) b
    else goto n (s.upc + 1) b := by
  simp only [seqApply, h]; rfl

theorem seqApply_next (h : s.w.seq = 0) (b : Block) : seqApply n s b = goto n (s.upc + 1) b := by
  simp only [seqApply, h]; rfl
end

/-- The source of a WAIT in the block that its word leaves. -/
theorem source_waiting (h : Selects b n w) (ha : SeqAlone w) (hseq : w.seq = 6) (x : Act) (hx : x.isShift = false) :
    source ((selected b n).setFile n (lvlOf b n) (heldIn x (readFile b n w))) n (heldIn x (readFile b n w)) w.lq w.wsel =
      source b n (fileOf b n) w.lq w.wsel := by
  have hearly : earlyRead w = false := by
    obtain ⟨halu, hm, hl, hxfer⟩ := ha
    simp [earlyRead, MWord.readsA, MWord.readsB, halu, hm, hl, hxfer, hseq, aluReadsA, aluReadsB, MWord.isMem, isStoreOp, MWord.isLongMem,
      xferSets]
  have hread : (readFile b n w).stat = (fileOf b n).stat := by
    simp only [readFile, hearly, Bool.false_and, Bool.or_false, putBit_getLsbD]
  rw [source_setFile (c := (selected b n).file n (lvlOf b n)), source_selected]
  · rw [stepOver_file]; exact hread
  · rw [stepOver_file]; rfl
  · rw [ctx_selected]; exact afxFlag_file b n _
  · rw [ctx_selected]; exact muls_file b n _
  · rw [ctx_selected]; exact latch_file b n _
  · rw [ctx_selected, act_idle_of_selects h]; exact hx

/-- The file in which a WAIT that its source ends leaves the context (R50). -/
def waitOver (src : BitVec 6) (c : Ctx) : Ctx := { c with
  stat := putBit c.stat 8 false, upc := c.upc + 1, act := .idle
  latch := if 40 ≤ src.toNat then c.latch.drop (BitVec.ofNat 24 (2 ^ (src.toNat - 40))) else c.latch }

theorem waitDone_setFile (B : Block) (l : Lvl) (v : Ctx) (src : BitVec 6) (hv : FileFor (B.ctx n) l v) (hl : v.lvl = l) :
    waitDone n src (B.setFile n l v) = B.setFile n l (waitOver src v) := by
  subst hl
  unfold waitDone
  simp only [ctx_setFile_same, unviewCtx_lvl, modFile_setFile B n v.lvl v _ hv]
  split
  · next h40 =>
    rw [modCtx_setFile _ _ _ _ _ (by cases v.lvl <;> intros <;> rfl) (by cases v.lvl <;> intros <;> rfl)]
    simp only [waitOver, h40, if_true]
  · next h40 => simp only [waitOver, h40, if_false]

theorem settle_setFile (B : Block) (l : Lvl) (v : Ctx) {src : BitVec 6} {lq : BitVec 4} {d : Option Nat} {t : CsAddr}
    (hv : FileFor (B.ctx n) l v) (hl : v.lvl = l) (hact : v.act = .wait src lq d t) : settle n (B.setFile n l v) =
      B.setFile n l (if source (B.setFile n l v) n v lq src then waitOver src v else v) := by
  unfold settle
  simp only [ctx_setFile_same, unviewCtx_act, unviewCtx_lvl, hact, hl, file_setFile B n l v hv]
  split
  · exact waitDone_setFile B l v src hv hl
  · rfl

theorem fileFor_selected (b : Block) (n : CtxNo) (l : Lvl) (v : Ctx) (h : v.shadow = (b.file n l).shadow) :
    FileFor ((selected b n).ctx n) l v :=
  fileFor_of_shadow _ _ _ (by rw [h, stepOver_file]; rfl)


theorem now_quieted (b : Block) (n : CtxNo) (w : MWord) : (quieted b n w).now = b.now := by
  simp only [quieted, Block.setFile, modEng_eq, selected, granted, setCtx_now, setEng_now]
theorem seq_quieted (b : Block) (n : CtxNo) (w : MWord) : (quieted b n w).seq = b.seq := by
  simp only [quieted, Block.setFile, modEng_eq, selected, granted, setCtx_seq, setEng_seq]
theorem word_snapOf (b : Block) (n : CtxNo) (w : MWord) (i : Option Nat) (p : Bool) : (snapOf b n w i p).w = w := rfl

theorem goto_quieted (b : Block) (n : CtxNo) (w : MWord) (a : CsAddr) :
    goto n a (quieted b n w) = (selected b n).setFile n (lvlOf b n) (goneTo a (readFile b n w)) := goto_setFile _ _ _ _ _

theorem stop_quieted (b : Block) (n : CtxNo) (w : MWord) (x : Act) :
    stop n x (quieted b n w) = (selected b n).setFile n (lvlOf b n) (heldIn x (readFile b n w)) := stop_setFile _ _ _ _ _

theorem upc_snapOf (b : Block) (n : CtxNo) (w : MWord) (i : Option Nat) (p : Bool) : (snapOf b n w i p).upc = (b.ctx n).upc :=
  upc_file b n _

/-- The file of a context that WAIT's source lets pass. -/
def passed (b : Block) (n : CtxNo) (w : MWord) : Ctx := { readFile b n w with
  stat := putBit (readFile b n w).stat 8 false
  latch := if 40 ≤ w.wsel.toNat then (readFile b n w).latch.drop (BitVec.ofNat 24 (2 ^ (w.wsel.toNat - 40)))
    else (readFile b n w).latch }

theorem waitOver_heldIn (b : Block) (n : CtxNo) (w : MWord) (x : Act) :
    waitOver w.wsel (heldIn x (readFile b n w)) = goneTo ((b.ctx n).upc + 1) (passed b n w) := by
  rw [← upc_file b n (lvlOf b n)]
  rfl

/-- A WAIT passes where its source is true, and else stops with its timeout (R50, R51). -/
theorem issueAs_wait (h : Issues b n w) (ha : SeqAlone w) (hseq : w.seq = 6) : issueAs rowWait n b =
    (selected b n).setFile n (lvlOf b n) (if source b n (fileOf b n) w.lq w.wsel then goneTo ((b.ctx n).upc + 1) (passed b n w)
      else heldIn (.wait w.wsel w.lq (deadline b.now w.aux8) w.target) (readFile b n w)) := by
  rw [issueAs_seqAlone h ha rowWait (by simp [rowWait, hseq]) (by simp [hseq]) (by simp [hseq]) (by simp [hseq]),
    seqApply_wait (s := snapOf b n w none false) hseq, stop_quieted,
    now_quieted, word_snapOf, settle_setFile (selected b n) (lvlOf b n) (heldIn (.wait w.wsel w.lq (deadline b.now w.aux8) w.target) (readFile b n w))
      (fileFor_selected b n _ _ rfl) (lvl_file b n _) rfl, source_waiting h.1 ha hseq _ rfl]
  split
  · rw [waitOver_heldIn]
  · rfl

/-- YIELD passes where a latch of its mask is set (R55). -/
theorem issueAs_yield (h : Issues b n w) (ha : SeqAlone w) (hseq : w.seq = 10) : issueAs rowYield n b =
    (selected b n).setFile n (lvlOf b n) (if (b.ctx n).latch.on &&& w.imm48.extractLsb' 0 24 ≠ 0
      then goneTo ((b.ctx n).upc + 1) (readFile b n w) else heldIn (.yieldOn (w.imm48.extractLsb' 0 24)) (readFile b n w)) := by
  have hlatch : ((quieted b n w).ctx n).latch = (b.ctx n).latch := by
    rw [ctx_setFile_same, unviewCtx_latch]
    exact latch_file b n _
  rw [issueAs_seqAlone h ha rowYield (by simp [rowYield, hseq]) (by simp [hseq]) (by simp [hseq]) (by simp [hseq]),
    seqApply_yield (s := snapOf b n w none false) hseq, goto_quieted, stop_quieted, hlatch, upc_snapOf]
  split
  · rw [if_pos ‹_›]
  · rw [if_neg ‹_›]; rfl

/-- PARK stops the context with its wake tick and mask (R61). -/
theorem issueAs_park (h : Issues b n w) (ha : SeqAlone w) (hseq : w.seq = 11) : issueAs rowPark n b =
    (selected b n).setFile n (lvlOf b n) (heldIn (.park (srcA b n w) (w.imm48.extractLsb' 0 9)) (readFile b n w)) := by
  rw [issueAs_seqAlone h ha rowPark (by simp [rowPark, hseq]) (by simp [hseq]) (by simp [hseq]) (by simp [hseq]),
    seqApply_park (s := snapOf b n w none false) hseq, stop_quieted]
  rfl

/-- FENCE stops while an earlier access of a selected class is pending (R235). -/
theorem issueAs_fence (h : Issues b n w) (ha : SeqAlone w) (hseq : w.seq = 13) : issueAs rowFence n b =
    (selected b n).setFile n (lvlOf b n) (if fenceHeld b n (w.aux8.extractLsb' 0 3) b.seq
      then heldIn (.fence (w.aux8.extractLsb' 0 3) b.seq) (readFile b n w) else goneTo ((b.ctx n).upc + 1) (readFile b n w)) := by
  rw [issueAs_seqAlone h ha rowFence (by simp [rowFence, hseq]) (by simp [hseq]) (by simp [hseq]) (by simp [hseq]),
    seqApply_fence (s := snapOf b n w none false) hseq, goto_quieted, stop_quieted, seq_quieted, fenceHeld_quieted,
    upc_snapOf]
  split
  · rw [if_pos ‹_›]; rfl
  · rw [if_neg ‹_›]

/-- Without a pause, a WAIT whose source is false and whose deadline has come goes on at the word's target, with TMO (R50, R52). -/
theorem opWaitTimeout_eq {src : BitVec 6} {lq : BitVec 4} {d : Nat} {target : CsAddr} (hact : (b.ctx n).act = .wait src lq (some d) target)
    (hsrc : source b n (fileOf b n) lq src = false) (hd : d ≤ b.now) (hpause : b.paused_ (cluOf (engOf n)) = false) :
    opWaitTimeout n b = b.setFile n (lvlOf b n) { fileOf b n with stat := putBit (fileOf b n).stat 8 true, upc := target, act := .idle } := by
  have hsettle : settle n b = b := by simp only [settle, hact, hsrc, Bool.false_eq_true, if_false]
  unfold opWaitTimeout
  simp only [hsettle, hact, hd, hpause, decide_true, Bool.not_false, Bool.and_self, if_true]
  exact goto_setFile _ _ _ _ _

/-- The parts that a change of a context's file changes. -/
theorem onlyParts_setFile (b : Block) (n : CtxNo) (l : Lvl) (v : Ctx) :
    OnlyParts b (b.setFile n l v) n (unviewCtx (b.ctx n) v l) (unviewEng (b.eng (engOf n)) v l) :=
  ⟨rfl, ctx_setFile b n l v, eng_setFile b n l v⟩

end

/-- Settles O10: each word acts on its register file alone (`issueAs_wait` to `issueAs_fence`), and so do the ends. -/
theorem waitYieldParkAndFenceStopOrPassTheContext : Obligations.WaitYieldParkAndFenceStopOrPassTheContext := by
  unfold Obligations.WaitYieldParkAndFenceStopOrPassTheContext
  refine ⟨fun s e k w h ha => ⟨fun hseq => ?wait, fun hseq => ?yield, fun hseq => ?park, fun hseq => ?fence⟩,
    fun s e k cl before hact hfree => ?fenceEnd, fun s e k src lq d target hact hsrc hd hpause => ?timeout⟩
  case wait =>
    refine gives_of_exec rfl ?_
    rw [issueAs_wait h ha hseq, deadline_eq]
    split
    · exact onlyFile_setFile ..
    · exact onlyFile_setFile ..
  case yield =>
    refine gives_of_exec rfl ?_
    rw [issueAs_yield h ha hseq]
    exact onlyFile_setFile ..
  case park =>
    refine gives_of_exec rfl ?_
    rw [issueAs_park h ha hseq]
    exact onlyFile_setFile ..
  case fence =>
    refine gives_of_exec rfl ?_
    rw [issueAs_fence h ha hseq]
    exact onlyFile_setFile ..
  case fenceEnd =>
    have hdoes : Does (.fenceComplete e k) s (opFenceComplete (ctxNo e k) s.blk) := does_of_exec rfl
    simpa only [opFenceComplete, hact, hfree, Bool.false_eq_true, if_false, goto, modCtx_eq] using hdoes
  case timeout =>
    have he : engOf (ctxNo e k) = e := engOf_ctxNo e k
    refine gives_of_exec rfl ?_
    rw [opWaitTimeout_eq hact hsrc hd (by rw [he]; exact hpause)]
    have hparts := onlyParts_setFile s.blk (ctxNo e k) (lvlOf s.blk (ctxNo e k))
      { fileOf s.blk (ctxNo e k) with stat := putBit (fileOf s.blk (ctxNo e k)).stat 8 true, upc := target, act := .idle }
    rw [he] at hparts
    exact hparts

end Sys2Proof.Machine

/-! Blocks that agree: a register file set to what it is, and the operations that keep the agreement. -/

namespace Sys2Proof.Machine
open Sys2Proof

section
variable {t v x : Block}

theorem Agree.trans (h : Agree t v) (h' : Agree v x) : Agree t x := by
  obtain ⟨hframe, hctx, heng⟩ := h
  obtain ⟨hframe', hctx', heng'⟩ := h'
  exact ⟨by rw [hframe, hframe'], fun m => (hctx m).trans (hctx' m), fun e => (heng e).trans (heng' e)⟩

theorem Agree.symm (h : Agree t v) : Agree v t := by
  obtain ⟨hframe, hctx, heng⟩ := h
  exact ⟨by rw [hframe], fun m => (hctx m).symm, fun e => (heng e).symm⟩

theorem Agree.setCtx (h : Agree t v) (n : CtxNo) (c : Ctx) : Agree (t.setCtx n c) (v.setCtx n c) := by
  obtain ⟨hframe, hctx, heng⟩ := h
  refine ⟨?_, fun m => ?_, heng⟩
  · rw [hframe]; rfl
  · rw [ctx_setCtx, ctx_setCtx, hctx]

theorem Agree.setEng (h : Agree t v) (e : EngId) (g : Eng) : Agree (t.setEng e g) (v.setEng e g) := by
  obtain ⟨hframe, hctx, heng⟩ := h
  refine ⟨?_, hctx, fun m => ?_⟩
  · rw [hframe]; rfl
  · rw [eng_setEng, eng_setEng, heng]

theorem Agree.modCtx (h : Agree t v) (n : CtxNo) (f : Ctx → Ctx) : Agree (t.modCtx n f) (v.modCtx n f) := by
  rw [modCtx_eq, modCtx_eq, h.2.1]
  exact h.setCtx _ _

theorem Agree.modEng (h : Agree t v) (e : EngId) (f : Eng → Eng) : Agree (t.modEng e f) (v.modEng e f) := by
  rw [modEng_eq, modEng_eq, h.2.2]
  exact h.setEng _ _

theorem agree_setCtx_self (b : Block) (n : CtxNo) : Agree (b.setCtx n (b.ctx n)) b :=
  ⟨rfl, fun m => by rw [ctx_setCtx]; split <;> simp [*], fun _ => rfl⟩

theorem agree_setEng_self (b : Block) (e : EngId) : Agree (b.setEng e (b.eng e)) b :=
  ⟨rfl, fun _ => rfl, fun m => by rw [eng_setEng]; split <;> simp [*]⟩

/-- A register file that is set to what it is changes nothing by number. -/
theorem agree_setFile_file (b : Block) (n : CtxNo) (l : Lvl) : Agree (b.setFile n l (b.file n l)) b := by
  have h : b.setFile n l (b.file n l) = (b.setEng (engOf n) (b.eng (engOf n))).setCtx n (b.ctx n) := by
    rw [Block.setFile, modEng_eq, Block.file, unviewCtx_view, unviewEng_view]
  rw [h]
  exact ((agree_setEng_self b (engOf n)).setCtx n (b.ctx n)).trans (agree_setCtx_self b n)

theorem OnlyParts.of_agree {b : Block} {n : CtxNo} {c : Ctx} {g : Eng} (h : Agree t v) (hv : OnlyParts b v n c g) : OnlyParts b t n c g := by
  obtain ⟨hframe, hctx, heng⟩ := hv
  obtain ⟨hframe', hctx', heng'⟩ := h
  exact ⟨by rw [hframe', hframe], fun m => (hctx' m).trans (hctx m), fun m => (heng' m).trans (heng m)⟩
end

/-! ### AT (R53, R54) -/

section
variable {b : Block} {n : CtxNo} {w : MWord}

/-- A word that issues acts, and an AT word with it. -/
theorem issueAs_at (h : Issues b n w) (hseq : w.seq = 7) : issueAs rowAtW n b = atIssue n (snapOf b n w none false) (selected b n) := by
  obtain ⟨hsel, hcond, hfault⟩ := h
  rw [issueAs_selects hsel rowAtW (by simp [rowAtW, hseq])]
  unfold act
  rw [dropTag_selected hsel.2]
  simp only [snap_lvl, word_snapOf, cond_selected, hcond, wordFault_selected, hfault, hseq, Bool.not_true, Bool.and_false, if_true,
    Bool.false_eq_true, if_false]

/-- The D stage alone leaves the file that the word's operands leave. -/
theorem agree_noteEarly (b : Block) (n : CtxNo) (s : Snap) :
    Agree (noteEarly n s b) (b.setFile n s.lvl (earlied (seesEarly b n s.w) (b.file n s.lvl))) := by
  unfold noteEarly
  split
  · next h =>
    rw [show seesEarly b n s.w = true from h, Block.modFile]
    simp only [earlied, Bool.or_true]
    exact ⟨rfl, fun _ => rfl, fun _ => rfl⟩
  · next h =>
    rw [show seesEarly b n s.w = false from Bool.eq_false_iff.2 h]
    simp only [earlied, Bool.or_false, putBit_getLsbD]
    exact (agree_setFile_file b n s.lvl).symm

theorem agree_quieted (b : Block) (n : CtxNo) (w : MWord) : Agree (noteEarly n (snapOf b n w none false) (selected b n)) (quieted b n w) := by
  have h := agree_noteEarly (selected b n) n (snapOf b n w none false)
  rw [word_snapOf, seesEarly_selected, stepOver_file] at h
  exact h

theorem wExternal_seqAlone {s : Snap} (ha : SeqAlone s.w) (b : Block) : wExternal n s b = b := by
  have hreq := requestOf_of_seqAlone s ha
  obtain ⟨-, hm, hl, hx⟩ := ha
  unfold wExternal
  simp [hreq, hm, hl, hx, laneWritesDst, laneAct_none hl, wordCmps, MWord.isMem]

theorem ctxOf_ctxNo (e : EngId) (k : CtxId) : ctxOf (ctxNo e k) = k := by
  unfold ctxOf ctxNo
  ext i hi
  rw [BitVec.getElem_extractLsb', BitVec.getLsbD_append]
  simp [hi]

theorem tick_selected (b : Block) (n : CtxNo) : (selected b n).tick = b.tick := by
  simp only [selected, granted, setCtx_tick, setEng_tick]

/-- An AT word whose target is reached acts at once, with LATE (R53). -/
theorem atIssue_reached (h : Issues b n w) (ha : SeqAlone w) (hr : reached b.tick (srcA b n w) = true) :
    atIssue n (snapOf b n w none false) (selected b n) =
      (selected b n).setFile n (lvlOf b n)
        (goneTo ((b.ctx n).upc + 1) { readFile b n w with stat := putBit (readFile b n w).stat 9 true }) := by
  have hfor := fileFor_selected b n (lvlOf b n) (stepOver (readFile b n w)) rfl
  have hr' : reached b.tick (snapOf b n w none false).a = true := hr
  unfold atIssue
  rw [tick_selected, if_pos hr', wStage_seqAlone h ha, upc_snapOf]
  simp only [quieted, snap_lvl, modFile_setFile _ _ _ _ _ hfor, goto_setFile]
  rfl

/-- Before its target it waits (R53). -/
theorem agree_atIssue_waiting (hr : reached b.tick (srcA b n w) = false) :
    Agree (atIssue n (snapOf b n w none false) (selected b n)) ((selected b n).setFile n (lvlOf b n)
      (heldIn (.atWait (snapOf b n w none false) (srcA b n w) (decide ((srcA b n w - b.tick).toNat < 16))) (readFile b n w))) := by
  have hr' : ¬ reached b.tick (snapOf b n w none false).a = true := Bool.eq_false_iff.1 hr
  unfold atIssue
  rw [tick_selected, if_neg hr', ← stop_quieted]
  exact (agree_quieted b n w).modCtx n _

theorem wordFaultAt_of_noLane {s : Snap} (hl : s.w.laneop = 0) (b : Block) (n : CtxNo) (timed : Bool) :
    wordFaultAt timed b n s = wordFault b n s := by
  have hlane : (timed && laneWritesDst s.w.laneop) = (false && laneWritesDst s.w.laneop) := by
    rw [hl]
    cases timed <;> rfl
  unfold wordFault wordFaultAt
  simp only [hlane]

/-- What a due AT word reads when it is selected again. -/
def reread (b : Block) (n : CtxNo) (r : Snap) : Snap := { snapOf b n r.w r.inj false with priv := r.priv }

theorem quietFile_reread {r : Snap} (hm : r.w.memop = 0) : quietFile b n (reread b n r) = readFile b n r.w := by
  have hbase : ∀ c, basedFile (reread b n r) c = c := fun c => by simp [basedFile, reread, snapOf, MWord.isMem, hm]
  rw [quietFile, hbase]
  rfl

theorem claimTag_seqAlone {s : Snap} (ha : SeqAlone s.w) (b : Block) : claimTag n s b = b := by
  simp [claimTag, MWord.takesTag, MWord.isMem, MWord.isAfx, ha.1, ha.2.1]

/-- Its selection before the target holds it for its release (R54). -/
theorem opAtDue_eq {r : Snap} {a : Tick} {late : Bool} (hact : (b.ctx n).act = .atWait r a late) (ha : SeqAlone r.w)
    (hfirst : allCtx.find? (fun j => atReady b (ctxNo (engOf n) j)) = some (ctxOf n)) (hfault : wordFault b n (reread b n r) = none) :
    opAtDue n b = b.setFile n (lvlOf b n) { readFile b n r.w with act := .atDue (reread b n r) a late } := by
  have hfault' : wordFaultAt true b n (reread b n r) = none := (wordFaultAt_of_noLane (s := reread b n r) ha.2.2.1 b n true).trans hfault
  have hdue : opAtDue n b =
      stop n (.atDue (reread b n r) a late) (claimTag n (reread b n r) (wInternal n (reread b n r) b)) := by
    unfold opAtDue
    simp only [hact, if_pos hfirst]
    split
    · next hsome => exact absurd (hfault'.symm.trans hsome) nofun
    · rfl
  rw [hdue, claimTag_seqAlone (s := reread b n r) ha, wInternal_noResult (s := reread b n r) (noResult_of_seqAlone ha), quietFile_reread ha.2.1, stop_setFile]
  rfl

theorem affixFull_of_slots (halu : w.aluop = 0) (hm : w.memop = 0) (b : Block) (n : CtxNo) : affixFull b n w = false := by
  simp [affixFull, MWord.isAfx, MWord.isMem, halu, hm]

/-- At its target the word goes on, with LATE where its release is late (R53, R368). -/
theorem agree_opAtTarget {r : Snap} {a : Tick} {late : Bool} (hact : (b.ctx n).act = .atDue r a late) (ha : SeqAlone r.w)
    (hr : reached b.tick a = true) (hpause : b.paused_ (cluOf (engOf n)) = false) :
    Agree (opAtTarget n b) (b.setFile n r.lvl { b.file n r.lvl with
      stat := if late || !(onTime b a) then putBit (b.file n r.lvl).stat 9 true else (b.file n r.lvl).stat
      upc := r.upc + 1, act := .idle }) := by
  have hlane : laneFault b n r = none := by simp [laneFault, laneWritesDst, ha.2.2.1]
  unfold opAtTarget
  simp only [hact, hr, hpause, affixFull_of_slots ha.1 ha.2.1, hlane, wExternal_seqAlone ha, Bool.not_true, Bool.or_self, Bool.false_eq_true,
    if_false]
  split
  · rw [Block.modFile, goto_setFile]
    exact ⟨rfl, fun _ => rfl, fun _ => rfl⟩
  · rw [← goto_setFile b n r.lvl (b.file n r.lvl)]
    exact ((agree_setFile_file b n r.lvl).modCtx n _).symm

end

/-- Settles O14: the word's issue by its target (`atIssue_reached`, `agree_atIssue_waiting`), its selection, and its release. -/
theorem atHoldsItsWordForTheTargetTick : Obligations.AtHoldsItsWordForTheTargetTick := by
  unfold Obligations.AtHoldsItsWordForTheTargetTick
  refine ⟨fun s e k w h ha hseq => ?issue, fun s e k r a late hact ha hfirst hfault => ?due,
    fun s e k r a late hact ha hreached hpause => ?target⟩
  all_goals refine gives_of_exec rfl ?_
  case issue =>
    rw [issueAs_at h hseq]
    split
    · next hr =>
      rw [atIssue_reached h ha hr]
      exact onlyFile_setFile ..
    · next hr => exact OnlyParts.of_agree (agree_atIssue_waiting (Bool.eq_false_iff.2 hr)) (onlyFile_setFile ..)
  case due =>
    have he : engOf (ctxNo e k) = e := engOf_ctxNo e k
    rw [opAtDue_eq hact ha (by rw [he, ctxOf_ctxNo]; exact hfirst) hfault]
    have hparts := onlyParts_setFile s.blk (ctxNo e k) (lvlOf s.blk (ctxNo e k)) { readFile s.blk (ctxNo e k) r.w with
      act := .atDue (reread s.blk (ctxNo e k) r) a late }
    rw [he] at hparts
    exact hparts
  case target =>
    have he : engOf (ctxNo e k) = e := engOf_ctxNo e k
    have hparts := OnlyParts.of_agree (agree_opAtTarget hact ha hreached (by rw [he]; exact hpause)) (onlyParts_setFile ..)
    rw [he] at hparts
    exact hparts

end Sys2Proof.Machine

/-! Words that leave a request: scalar memory words and Affix words (R38, R69, R70, R106, R107, R223). -/

namespace Sys2Proof.Machine
open Sys2Proof

section
variable {b : Block} {n : CtxNo} {w : MWord}

/-- The word holds one operation that leaves a request, and SEQ NEXT. -/
abbrev RequestAlone (w : MWord) : Prop := NoResult w ∧ w.isLong = false ∧ w.seq = 0

/-- The request that a word leaves in the block of its selection is the one that its operands give in the present block. -/
theorem pendOf_selected (hseq : w.seq = 0) (k : PendKind) :
    pendOf (selected b n) n (snapOf b n w none false) k = requestUnder b n w k := by
  have htarget : ¬ (snapOf b n w none false).w.seq = 7 := by rw [word_snapOf, hseq]; decide
  have hseqNo : (selected b n).seq = b.seq := by simp only [selected, granted, setCtx_seq, setEng_seq]
  unfold pendOf requestUnder
  rw [if_neg htarget, hseqNo, upc_snapOf]
  simp only [snapOf, Bool.or_false, ctx_selected]
  rfl

theorem setSeq_setCtx_setEng (B : Block) (f q : Nat) (e : EngId) (g : Eng) (n : CtxNo) (c : Ctx) :
    ({ ({ B with free := f }.setEng e g).setCtx n c with seq := q } : Block) = ({ B with free := f, seq := q }.setEng e g).setCtx n c := rfl

/-- The block in which the word has left its request. -/
theorem requested_selected_setFile (hseq : w.seq = 0) (k : PendKind) (v : Ctx) :
    (requested (selected b n) n (snapOf b n w none false) k).setFile n (lvlOf b n) v =
      ({ granted b n with free := selFree b n, seq := b.seq + 1 }.setEng (engOf n)
        (unviewEng (leaveRequest w (requestUnder b n w k) (issuedEng b n)) v (lvlOf b n))).setCtx n
        (unviewCtx (b.ctx n) v (lvlOf b n)) := by
  have hseqNo : (selected b n).seq = b.seq := by simp only [selected, granted, setCtx_seq, setEng_seq]
  have heng : (selected b n).eng (engOf n) = issuedEng b n := by rw [selected, eng_setCtx, eng_setEng_same, issuedEng]
  have hblock : ({ selected b n with seq := b.seq + 1 } : Block) =
    ({ granted b n with free := selFree b n, seq := b.seq + 1 }.setEng (engOf n) (issuedEng b n)).setCtx n (stepOver (b.ctx n)) :=
    setSeq_setCtx_setEng (granted b n) _ _ _ _ _ _
  have hctx : unviewCtx (stepOver (b.ctx n)) v (lvlOf b n) = unviewCtx (b.ctx n) v (lvlOf b n) := by cases lvlOf b n <;> rfl
  unfold requested
  rw [pendOf_selected hseq, hseqNo, heng, word_snapOf, hblock]
  simp only [Block.setFile, modEng_eq, setCtx_setEng, setEng_setEng, setCtx_setCtx, eng_setCtx, eng_setEng_same, ctx_setCtx_same, hctx]

/-- The whole effect of a word that leaves a request. -/
theorem wordEffect_requested (hseq : w.seq = 0) (k : PendKind) (v : Ctx) :
    WordEffect b ((requested (selected b n) n (snapOf b n w none false) k).setFile n (lvlOf b n) v) n v
      (leaveRequest w (requestUnder b n w k)) (fun c => c) 1 := by
  rw [requested_selected_setFile hseq]
  refine ⟨rfl, fun m => ?_, fun x => ?_, fun x => ?_⟩
  · rw [ctx_setCtx]; rfl
  · rw [eng_setCtx, eng_setEng]; rfl
  · rw [ite_self]; rfl

/-- A word that leaves a request goes on behind it. -/
theorem issueAs_request (h : Issues b n w) (ha : RequestAlone w) {k : PendKind} (hk : requestOf (snapOf b n w none false) = some k)
    (p : MWord → Bool) (hp : p w = true) : issueAs p n b = (requested (selected b n) n (snapOf b n w none false) k).setFile n (lvlOf b n)
      { quietFile (selected b n) n (snapOf b n w none false) with upc := (b.ctx n).upc + 1, act := .idle } := by
  obtain ⟨hres, hlong, hseq⟩ := ha
  rw [issueAs_issues h p hp (by rw [hseq]; decide)]
  unfold perform
  simp only [word_snapOf, hlong, hseq, wStage_request (s := snapOf b n w none false) hres hk (unwatched_selected h.1.1.2.2.2.2)]
  rw [seqApply_next (s := snapOf b n w none false) hseq, upc_snapOf]
  exact goto_setFile _ _ _ _ _

/-- An access that passes its checks lies in one area (R223, R224). -/
theorem areaOf_ne_none {s : Snap} (h : wordFault b n s = none) (hm : s.w.isMem = true) (hl : s.w.isLongMem = false) :
    areaOf s.ea.toNat (opSize s.w.memop) ≠ .none := by
  intro harea
  have hmap : mapFault b s.priv s.w.memop s.ea.toNat (opSize s.w.memop) = some (5, 1) := by simp [mapFault, harea]
  unfold wordFault wordFaultAt at h
  simp only [hm, hl, hmap, Bool.not_false, Bool.and_self, if_true] at h
  repeat' split at h
  all_goals exact absurd h nofun

/-- The area of an access that lies in one (R223). -/
def kindAt (op : BitVec 6) (a : Nat) : PendKind :=
  if decide (0x100000000 ≤ a) then .affixMem op else if 0x80000000 ≤ a then .window (op == 0x12) else .mem op

theorem requestOf_of_mem {s : Snap} (hafx : s.w.isAfx = false) (hm : s.w.isMem = true) (hl : s.w.isLongMem = false)
    (harea : areaOf s.ea.toNat (opSize s.w.memop) ≠ .none) : requestOf s = some (kindAt s.w.memop s.ea.toNat) := by
  unfold requestOf
  simp only [hafx, hl, hm, Bool.false_eq_true, if_false, if_true]
  unfold areaOf at harea ⊢
  unfold kindAt
  simp only [decide_eq_true_eq]
  split_ifs at harea ⊢ <;> first | rfl | omega | (exact absurd rfl harea)

/-- The file that a memory word leaves: MBASE is written back in modes 1 and 2 (R107). -/
theorem quietFile_mem (hm : w.isMem = true) :
    quietFile (selected b n) n (snapOf b n w none false) = stepOver (withBase b n w (readFile b n w)) := by
  have hea : w.mmode = 2 → effAddr b n (fileOf b n) w = reg16 (fileOf b n).a w.mbase + w.disp16.signExtend 48 := by
    intro h2
    simp [effAddr, h2]
  unfold quietFile
  rw [stepOver_file, word_snapOf, seesEarly_selected]
  unfold basedFile withBase
  simp only [word_snapOf, hm, true_and]
  by_cases h1 : w.mmode = 1
  · rw [if_pos h1, if_pos (.inl h1)]; rfl
  · by_cases h2 : w.mmode = 2
    · rw [if_neg h1, if_pos h2, if_pos (.inr h2), show (snapOf b n w none false).ea = effAddr b n (fileOf b n) w from rfl, hea h2]; rfl
    · rw [if_neg h1, if_neg h2, if_neg (by tauto)]; rfl

end

/-- A word whose one operation is a scalar memory operation. -/
abbrev ScalarAlone (w : MWord) : Prop := MemAlone w ∧ w.isMem = true ∧ w.isLongMem = false

section
variable {b : Block} {n : CtxNo} {w : MWord}

/-- A scalar memory word leaves its request, of the kind of its area, and goes on. -/
theorem wordEffect_scalar (h : Issues b n w) (ha : ScalarAlone w) (p : MWord → Bool) (hp : p w = true) :
    WordEffect b (issueAs p n b) n (goneTo ((b.ctx n).upc + 1) (withBase b n w (readFile b n w)))
      (leaveRequest w (requestUnder b n w (kindAt w.memop (effAddr b n (fileOf b n) w).toNat))) (fun v => v) 1 := by
  obtain ⟨⟨halu, hl, hx, hseq⟩, hm, hlm⟩ := ha
  have hafx : w.isAfx = false := by simp [MWord.isAfx, halu]
  have hlong : w.isLong = false := by simp [MWord.isLong, MWord.isShift, hlm, hl]
  have hreq := requestOf_of_mem (s := snapOf b n w none false) hafx hm hlm (areaOf_ne_none h.2.2 hm hlm)
  rw [issueAs_request h ⟨⟨.inl halu, hl, hx⟩, hlong, hseq⟩ hreq p hp, quietFile_mem hm]
  exact wordEffect_requested hseq _ _

/-- An Affix word leaves its request and goes on (R70). -/
theorem wordEffect_afx (h : Issues b n w) (hm : w.memop = 0) (hl : w.laneop = 0) (hx : w.xfer = 0) (hseq : w.seq = 0)
    (hafx : w.isAfx = true) :
    WordEffect b (issueAs rowAfx n b) n (goneTo ((b.ctx n).upc + 1) (readFile b n w))
      (leaveRequest w (requestUnder b n w .affix)) (fun v => v) 1 := by
  have hreq : requestOf (snapOf b n w none false) = some .affix := by simp [requestOf, snapOf, hafx]
  rw [issueAs_request h ⟨⟨.inr hafx, hl, hx⟩, isLong_of_slots hm hl, hseq⟩ hreq rowAfx hafx, quietFile_selected hm]
  exact wordEffect_requested hseq _ _

/-- The request joins the Affix queue where its address lies in Affix space. -/
theorem leaveRequest_kindAt (op : BitVec 6) (a : Nat) (g : Eng) : leaveRequest w (requestUnder b n w (kindAt op a)) g =
    { underTag w.mtag (requestUnder b n w (kindAt op a)) g with
      afxQ := if decide (0x100000000 ≤ a) then g.afxQ ++ [w.mtag] else g.afxQ } := by
  have hjoin : joinsAffix (kindAt op a) = decide (0x100000000 ≤ a) := by
    unfold kindAt
    by_cases h1 : 0x100000000 ≤ a
    · simp [joinsAffix, h1]
    · by_cases h2 : 0x80000000 ≤ a <;> simp [joinsAffix, h1, h2]
  unfold leaveRequest
  rw [show (requestUnder b n w (kindAt op a)).kind = kindAt op a from rfl, hjoin]

end

/-- The memory operations but the long ones (R106). -/
def scalarOps : List (BitVec 6) :=
  [1, 2, 3, 4, 5, 6, 7, 8, 9, 0x0A, 0x10, 0x11, 0x12, 0x13, 0x14, 0x15, 0x18, 0x19, 0x1A]

theorem scalarOps_are_scalar : ∀ op ∈ scalarOps, (op != 0) = true ∧ decide (0x20 ≤ op.toNat ∧ op.toNat ≤ 0x24) = false := by
  decide

/-- Command `i` is the row of the word's memory operation. -/
abbrev MemRow (w : MWord) (i : Instr) (n : CtxNo) : Prop :=
  w.memop ∈ scalarOps ∧ ∃ p : MWord → Bool, p w = true ∧ ∀ s, exec i s = atTurn (turnOf i) (issueAs p n) s

/-- Settles O16: the request that a word leaves is the one that its operands give (`wordEffect_scalar`, `wordEffect_afx`). -/
theorem memoryAndAffixWordsLeaveTheirRequestUnderTheTag : Obligations.MemoryAndAffixWordsLeaveTheirRequestUnderTheTag := by
  unfold Obligations.MemoryAndAffixWordsLeaveTheirRequestUnderTheTag
  refine ⟨fun s e k w i h ha hi => ?mem, fun s e k w h hm hl hx hseq hafx => ?afx⟩
  case mem =>
    have hrow : MemRow w i (ctxNo e k) := by
      rcases hi with ⟨hop, rfl⟩ | ⟨hop, rfl⟩ | ⟨hop, rfl⟩ | ⟨hop, rfl⟩ | ⟨hop, rfl⟩ | ⟨hop, rfl⟩ | ⟨hop, rfl⟩ | ⟨hop, rfl⟩ |
        ⟨hop, rfl⟩ | ⟨hop, rfl⟩ | ⟨hop, rfl⟩
      · exact ⟨by rcases hop with h | h <;> simp [scalarOps, h], rowLd1Ld1s, by simpa [rowLd1Ld1s] using hop, fun _ => rfl⟩
      · exact ⟨by rcases hop with h | h <;> simp [scalarOps, h], rowLd2Ld2s, by simpa [rowLd2Ld2s] using hop, fun _ => rfl⟩
      · exact ⟨by rcases hop with h | h <;> simp [scalarOps, h], rowLd4Ld4s, by simpa [rowLd4Ld4s] using hop, fun _ => rfl⟩
      · exact ⟨by simp [scalarOps, hop], rowLd6, by simpa [rowLd6] using hop, fun _ => rfl⟩
      · exact ⟨by rcases hop with h | h <;> simp [scalarOps, h], rowLd8Ld8s, by simpa [rowLd8Ld8s] using hop, fun _ => rfl⟩
      · exact ⟨by simp [scalarOps, hop], rowLd12, by simpa [rowLd12] using hop, fun _ => rfl⟩
      · exact ⟨by rcases hop with h | h | h | h <;> simp [scalarOps, h], rowSt1St2St4St6, by rcases hop with h | h | h | h <;> simp [rowSt1St2St4St6, h], fun _ => rfl⟩
      · exact ⟨by rcases hop with h | h <;> simp [scalarOps, h], rowSt8St12, by simpa [rowSt8St12] using hop, fun _ => rfl⟩
      · exact ⟨by simp [scalarOps, hop], rowLr6, by simpa [rowLr6] using hop, fun _ => rfl⟩
      · exact ⟨by simp [scalarOps, hop], rowSc6, by simpa [rowSc6] using hop, fun _ => rfl⟩
      · exact ⟨by simp [scalarOps, hop], rowRel, by simpa [rowRel] using hop, fun _ => rfl⟩
    obtain ⟨hop, p, hp, hexec⟩ := hrow
    refine gives_of_exec (hexec s) ?_
    have heffect := wordEffect_scalar h ⟨ha, scalarOps_are_scalar _ hop⟩ p hp
    rwa [funext (leaveRequest_kindAt w.memop (effAddr s.blk (ctxNo e k) (fileOf s.blk (ctxNo e k)) w).toNat)] at heffect
  case afx => exact gives_of_exec rfl (wordEffect_afx h hm hl hx hseq hafx)

end Sys2Proof.Machine

/-! An answered load, LR6 or SC6: what its banks find, and what it writes (R36, R39, R106, R230, R242). -/

namespace Sys2Proof.Machine
open Sys2Proof

/-! ### What a read of lines changes (R242, R250, R440) -/

/-- Only the records, the units' error counts, the lines that wait for their write-back and the poisoned lines differ. -/
abbrev LinesRead (b t : Block) : Prop := t = { b with imp := t.imp, units := t.units, wbs := t.wbs, poison := t.poison }

theorem LinesRead.trans {a b c : Block} (h : LinesRead a b) (h' : LinesRead b c) : LinesRead a c := by
  unfold LinesRead at *
  rw [h', h]

theorem LinesRead.dbg {b t : Block} (h : LinesRead b t) : t.dbg = b.dbg := by rw [h]

theorem linesRead_detect (src code : Nat) (info : BitVec 24) (b : Block) : LinesRead b (detect src code info b) := rfl

theorem linesRead_eccEvent (a : Nat) (k : LineErr) (b : Block) : LinesRead b (eccEvent a k b) := by
  unfold eccEvent
  split
  · rfl
  · rfl
  · rfl

theorem linesRead_eccFrom (k : Ecc) (ls : List Nat) : ∀ (i : Nat) (b : Block), LinesRead b (eccFrom k i ls b) := by
  induction ls with
  | nil => exact fun _ _ => rfl
  | cons l ls ih =>
    intro i b
    rw [eccFrom]
    split
    · exact (linesRead_eccEvent _ _ b).trans (ih _ _)
    · exact ih _ _

theorem linesRead_eccAt (ls : List Nat) (k : Ecc) (b : Block) : LinesRead b (eccAt ls k b) := linesRead_eccFrom k ls 0 b

theorem linesRead_arrive (b : Block) (t : Tenant) (rd wr : Bool) (a n : Nat) (ls : List Nat) (k : Ecc) :
    LinesRead b (arrive b t rd wr a n ls k) := by
  have hrecords : ∀ (l : List Nat) (b : Block), LinesRead b (l.foldl (fun b x => regionRecord x b) b) := by
    intro l
    induction l with
    | nil => exact fun _ => rfl
    | cons x l ih => exact fun b => (linesRead_detect _ _ _ b).trans (ih _)
  exact (linesRead_eccAt _ k b).trans (hrecords _ _)

/-! ### The answer -/

theorem memPerturb_off {b : Block} (h : b.dbg.pActive = false) (a : Nat) : memPerturb a b = b := by
  simp [memPerturb, h]

section
variable {s : State} {e : EngId} {t : BitVec 5} {ecc : Ecc} {p : Pend} {op : BitVec 6}

/-- An access of a tag that holds no access of the register window goes to the banks. -/
theorem opLoadResponse_mem {b : Block} (htag : (b.eng e).tag t = some p) (hkind : p.kind = .mem op) :
    opLoadResponse e t ecc b = opMemoryLoadResult e t ecc b := by
  have hwindow : tagWindow b e t = false := by simp [tagWindow, htag, Pend.acc, hkind]
  simp [opLoadResponse, hwindow]

/-- The block in which the load has arrived at its banks. -/
abbrev arrived (b : Block) (p : Pend) (op : BitVec 6) (ecc : Ecc) : Block :=
  arrive b p.tenant true (op == 0x19) p.ea.toNat (opSize op) (linesOf p.ea.toNat (opSize op)) ecc

/-- The banks give the load its bytes. -/
abbrev Answers (b : Block) (e : EngId) (t : BitVec 5) (ecc : Ecc) (p : Pend) (op : BitVec 6) : Prop :=
  (b.eng e).tag t = some p ∧ p.kind = .mem op ∧ (isLoadOp op = true ∨ op = 0x19) ∧
    bankBehind b e p.seq (banksOf b p.ea.toNat (opSize op)) = false ∧ b.dbg.pActive = false ∧
    bankCheck (arrived b p op ecc) p.tenant true (op == 0x19) p.ea.toNat (opSize op) = .pass

/-- The block and the bytes of the read. -/
abbrev readOut (b : Block) (p : Pend) (op : BitVec 6) (ecc : Ecc) : Block × List Byte :=
  portARead p.ea.toNat (opSize op) (arrived b p op ecc)

/-- The result `f` goes into the file of the request's level, and the tag is free. -/
abbrev landed (e : EngId) (t : BitVec 5) (p : Pend) (f : Ctx → Ctx) (m : Block) : Block :=
  let m' := m.setFile (ctxNo e p.k) p.lvl (f (m.file (ctxNo e p.k) p.lvl))
  settle (ctxNo e p.k) (m'.setEng e ((m'.eng e).setTag t none))

theorem inFenced_of_pass {b : Block} {u : Tenant} {rd wr : Bool} {a n : Nat} (h : bankCheck b u rd wr a n = .pass) : inFenced b a n = false := by
  unfold bankCheck at h
  cases hf : inFenced b a n
  · rfl
  · simp [hf] at h

/-- The file with the result of a load in it: an accumulator takes the 8 and 12 bytes of a load (R106). -/
def loadInto (p : Pend) (op : BitVec 6) (l : List Byte) (c : Ctx) : Ctx :=
  if isAcc p.dst && decide (8 ≤ op.toNat ∧ op.toNat ≤ 0x0A) then writeAcc c p.dst (loadAcc op l) else writeDst p.priv c p.dst (loadValue op l)

/-- What an answered load does: SC6 stores where its reservation holds, LR6 reserves, and the result goes to DST. -/
theorem opLoadResponse_eq {b : Block} (h : Answers b e t ecc p op) : opLoadResponse e t ecc b =
    let x := readOut b p op ecc
    let ok := scHolds x.1 (ctxNo e p.k) p.ea.toNat
    if op = 0x19 then landed e t p (fun c => writeDst p.priv c p.dst (if ok then 1 else 0))
      (if ok then bankWrite (ctxNo e p.k) p.ea.toNat (bytesOf 6 p.data) x.1 else x.1)
    else landed e t p (loadInto p op x.2) (if op = 0x18 then loadReserve (ctxNo e p.k) p.ea.toNat x.1 else x.1) := by
  obtain ⟨htag, hkind, hload, hbehind, hactive, hpass⟩ := h
  have hop : (isLoadOp op || op == 0x19) = true := by
    rcases hload with h | h <;> simp [h]
  have hquiet : (arrived b p op ecc).dbg.pActive = false := by
    rw [(linesRead_arrive b _ _ _ _ _ _ _).dbg]
    exact hactive
  rw [opLoadResponse_mem htag hkind]
  unfold opMemoryLoadResult
  simp only [htag, hkind, hop, hbehind, memPerturb_off hquiet, inFenced_of_pass hpass, hpass, Bool.not_true, Bool.or_self,
    Bool.false_eq_true, if_false, ne_eq, not_true_eq_false, modEng_eq]
  rfl

theorem opLoadResponse_load {b : Block} (h : Answers b e t ecc p op) (hsc : op ≠ 0x19) (hlr : op ≠ 0x18) :
    opLoadResponse e t ecc b = landed e t p (loadInto p op (readOut b p op ecc).2) (readOut b p op ecc).1 := by
  rw [opLoadResponse_eq h]
  simp only [if_neg hsc, if_neg hlr]

/-- A load of 6 bytes or less writes a register. -/
theorem loadInto_short (h : ¬ (8 ≤ op.toNat ∧ op.toNat ≤ 0x0A)) (l : List Byte) :
    loadInto p op l = fun c => writeDst p.priv c p.dst (loadValue op l) := by
  funext c
  simp only [loadInto, h, decide_false, Bool.and_false, Bool.false_eq_true, if_false]

theorem loadInto_acc (hacc : isAcc p.dst = true) (h : 8 ≤ op.toNat ∧ op.toNat ≤ 0x0A) (l : List Byte) :
    loadInto p op l = fun c => writeAcc c p.dst (loadAcc op l) := by
  funext c
  rw [loadInto, hacc, decide_eq_true h]
  rfl
end

/-- Settles O17: what an answered load does (`opLoadResponse_eq`), operation by operation. -/
theorem anAnsweredLoadWritesItsDestinationAndFreesItsTag : Obligations.AnAnsweredLoadWritesItsDestinationAndFreesItsTag := by
  unfold Obligations.AnAnsweredLoadWritesItsDestinationAndFreesItsTag
  intro s e t ecc p op htag hkind hop n a size hbehind hactive b1 hpass b bytes free put putAcc
  have hans : Answers s.blk e t ecc p op := ⟨htag, hkind, hop, hbehind, hactive, hpass⟩
  have hdoes : Does (.memoryLoadResult e t ecc) s (opLoadResponse e t ecc s.blk) := does_of_exec rfl
  refine ⟨fun h => ?unsigned, fun h => ?one, fun h => ?two, fun h => ?four, fun h hacc => ?acc, fun h hacc => ?accSigned, fun h => ?lr6,
    fun h => ?sc6⟩
  case unsigned =>
    rcases h with rfl | rfl | rfl | rfl <;>
    · rw [opLoadResponse_load hans (by decide) (by decide), loadInto_short (by decide)] at hdoes
      exact hdoes
  case acc =>
    rcases h with rfl | rfl <;>
    · rw [opLoadResponse_load hans (by decide) (by decide), loadInto_acc hacc (by decide)] at hdoes
      exact hdoes
  case accSigned =>
    subst h
    rw [opLoadResponse_load hans (by decide) (by decide), loadInto_acc hacc (by decide)] at hdoes
    exact hdoes
  case lr6 =>
    subst h
    rw [opLoadResponse_eq hans] at hdoes
    simp only [loadInto_short (p := p) (op := 0x18) (by decide)] at hdoes
    exact hdoes
  case sc6 =>
    subst h
    rw [opLoadResponse_eq hans] at hdoes
    cases hok : scHolds b n a
    · simp only [show scHolds (readOut s.blk p 0x19 ecc).1 (ctxNo e p.k) p.ea.toNat = false from hok] at hdoes
      exact hdoes
    · simp only [show scHolds (readOut s.blk p 0x19 ecc).1 (ctxNo e p.k) p.ea.toNat = true from hok] at hdoes
      exact hdoes
  case one | two | four =>
    subst h
    rw [opLoadResponse_load hans (by decide) (by decide), loadInto_short (by decide)] at hdoes
    exact hdoes

end Sys2Proof.Machine

/-! An access of a register that lands: at a port, or of a context's word (R225, R432, R477, R479, R511, R512). -/

namespace Sys2Proof.Machine
open Sys2Proof

/-- The effect of a native access. -/
def nativeEffect (o : Origin) (peek : Bool) (w : Win) (a : Acc32) (b : Block) : Block := match a with
  | .read => if peek then b else nativeClear o w b
  | .write d => nativeWrite o w d b

/-- What it returns. -/
def nativeValue (o : Origin) (w : Win) (a : Acc32) (b : Block) : Reg32 := match a with
  | .read => nativeRead b o w
  | .write _ => 0

/-- The register is a native one: it is none of the Tirnis window. -/
abbrev Win.isNative (w : Win) : Prop := ∀ r, w ≠ .tir r

/-- The window is open, and its cluster is awake. -/
abbrev Open (b : Block) (o : Origin) (w : Win) : Prop :=
  shut b o w = false ∧ ∀ c, w.cluster = some c → shut b o (.clu c 0) = false ∧ (b.clu c).asleep = false

theorem nativeAccess_open {b : Block} {o : Origin} {w : Win} (h : shut b o w = false) (peek : Bool) (a : Acc32) :
    nativeAccess o peek w a b = (nativeEffect o peek w a b, nativeValue o w a b) := by
  unfold nativeAccess
  rw [h]
  cases a <;> rfl

/-- A wake trigger leaves every window as it is. -/
theorem shut_portTouch (b : Block) (o : Origin) (w : Win) : shut (portTouch w b) o w = shut b o w := by
  have hpart : winPart (portTouch w b) o w = winPart b o w := by
    unfold portTouch
    cases w with
    | clu c r => simp only [Win.cluster, trigger, modClu_eq, winPart, clu_setClu_same]
    | _ => rfl
  unfold shut
  rw [hpart]
  unfold portTouch
  cases w.cluster <;> rfl

theorem land_open {b : Block} {o : Origin} {w : Win} (h : Open b o w) (hw : w.isNative) (peek : Bool) (a : Acc32) :
    land o peek w a b = (nativeEffect o peek w a (portTouch w b), some (nativeValue o w a (portTouch w b))) := by
  obtain ⟨hshut, hclu⟩ := h
  have hnative := nativeAccess_open ((shut_portTouch b o w).trans hshut) peek a
  have hpair := congrArg (fun x : Block × Reg32 => (x.1, some x.2)) hnative
  cases w with
  | tir r => exact absurd rfl (hw r)
  | clu c r =>
    obtain ⟨hc, hawake⟩ := hclu c rfl
    have hawake' : ((trigger c b).clu c).asleep = false := by simp only [trigger, modClu_eq, clu_setClu_same, hawake]
    unfold land
    simp only [reached_, Win.cluster, hshut, hc, hawake', Bool.or_self, Bool.false_eq_true, if_false]
    exact hpair
  | eng e r =>
    obtain ⟨hc, hawake⟩ := hclu (cluOf e) rfl
    have hawake' : ((trigger (cluOf e) b).clu (cluOf e)).asleep = false := by simp only [trigger, modClu_eq, clu_setClu_same, hawake]
    unfold land
    simp only [reached_, Win.cluster, hshut, hc, hawake', Bool.or_self, Bool.false_eq_true, if_false]
    exact hpair
  | _ => exact hpair

theorem landAnswer_open {b : Block} {o : Origin} {w : Win} (h : Open b o w) (hw : w.isNative) (peek : Bool) (a : Acc32) :
    landAnswer o peek w a b = answerPort o (nativeValue o w a (portTouch w b)) false (nativeEffect o peek w a (portTouch w b)) := by
  unfold landAnswer
  rw [land_open h hw]

theorem stampedAs_of_win {p : Pend} (h : p.win ≠ .inst 0x38) (f : Block → Block × Option Reg32) (b : Block) : stampedAs p f b = f b := by
  unfold stampedAs
  split
  · next hwin => exact absurd hwin h
  · rfl

/-- A context's access that is its first lands, and its tag is free. -/
theorem ctxAccess_open {e : EngId} {k : CtxId} {w : Win} {a : Acc32} {b : Block} {x : BitVec 5 × Pend}
    (hfirst : firstWindow (b.eng e) k = some x) (hwin : x.2.win = w) (hacc : x.2.acc = some a) (h : Open b (.ctx e k) w) (hw : w.isNative)
    (hswev : w ≠ .inst 0x38) : ctxAccess e k w a b =
      portEnd b (.ctx e k) a (nativeValue (.ctx e k) w a (portTouch w b)) (nativeEffect (.ctx e k) false w a (portTouch w b)) := by
  have hk : x.2.k = k := firstWindow_k hfirst
  subst hwin
  have hland := (stampedAs_of_win hswev (land (.ctx e k) false x.2.win a) b).trans (land_open h hw false a)
  unfold ctxAccess
  rw [hfirst]
  simp only [hacc, and_self, if_true]
  unfold performWindow
  simp only [hk, hland, portEnd, hfirst]

/-- The access of the Debug Access Port reads without side effect where DBG_CTL.SIDE is 0 (R479). -/
abbrev peeks (b : Block) (o : Origin) : Bool := decide (o = .dap) && !b.dbg.side

theorem open_of_canLand {b : Block} {o : Origin} {w : Win} {a : Acc32} (h : CanLand b o w a) : Open b o w := by
  obtain ⟨-, hshut, hclu, -⟩ := h
  refine ⟨hshut, fun c hc => ?_⟩
  rw [hc] at hclu
  exact hclu

theorem isNative_of_canLand {b : Block} {o : Origin} {w : Win} {a : Acc32} (h : CanLand b o w a) : w.isNative := by
  obtain ⟨-, -, -, htir, -⟩ := h
  rintro r rfl
  exact htir

/-- An access that lands has its native effect, and is answered. -/
theorem portAccess_lands {b : Block} {o : Origin} {w : Win} {a : Acc32} (h : CanLand b o w a) (hswev : w ≠ .inst 0x38) :
    portAccess o w a b =
      portEnd b o a (nativeValue o w a (portTouch w b)) (nativeEffect o (peeks b o) w a (portTouch w b)) := by
  have hopen := open_of_canLand h
  have hw := isNative_of_canLand h
  obtain ⟨hon, -, -, -, hheld, hway⟩ := h
  cases o with
  | ireg =>
    cases w with
    | imp r => exact (portRequest_first hon hheld (by simp)).trans (landAnswer_open hopen hw _ _)
    | _ => exact hway.elim
  | synCore => exact (portRequest_first hon hheld (by simp)).trans (landAnswer_open hopen hw _ _)
  | hreg => exact (portRequest_first hon hheld (by simp)).trans (landAnswer_open hopen hw _ _)
  | dap =>
    obtain ⟨hbus, hfuse, hdata⟩ := hway
    have hdap : dapAccess w a b = landAnswer .dap (!b.dbg.side) w a b := by
      simp [dapAccess, hfuse, hdata]
    exact (portRequest_first hon hheld fun _ => hbus).trans (hdap.trans (landAnswer_open hopen hw _ _))
  | ctx e k =>
    have hacc : portAccess (.ctx e k) w a b = ctxAccess e k w a b := if_neg hon
    rw [hacc]
    dsimp only at hway
    split at hway
    · next x hfirst => exact ctxAccess_open hfirst hway.1 hway.2 hopen hw hswev
    · exact hway.elim

/-- A row whose command is a write of a register. -/
theorem portWrite_of {i : Origin → Instr} {w : Win} {d : Reg32} {f : Origin → Block → Block}
    (hexec : ∀ o s, exec (i o) s = atTurn (turnOf (i o)) (portAccess o w (.write d)) s) (hswev : w ≠ .inst 0x38)
    (hf : ∀ o b, nativeWrite o w d b = f o b) : PortWrite i w d f := by
  intro s o h
  have hdoes := does_of_exec (hexec o s)
  rw [portAccess_lands h hswev] at hdoes
  simpa only [nativeEffect, nativeValue, hf] using hdoes

/-- A row whose command is a read of a register. -/
theorem portRead_of {i : Origin → Instr} {w : Win} {v : Origin → Block → Reg32} {f : Origin → Block → Block}
    (hexec : ∀ o s, exec (i o) s = atTurn (turnOf (i o)) (portAccess o w .read) s) (hswev : w ≠ .inst 0x38)
    (hv : ∀ o b, nativeRead b o w = v o b) (hf : ∀ o b, nativeClear o w b = f o b) : PortRead i w v f := by
  intro s o h
  have hdoes := does_of_exec (hexec o s)
  rw [portAccess_lands h hswev] at hdoes
  simpa only [nativeEffect, nativeValue, hf, hv, Bool.and_eq_true, decide_eq_true_eq, Bool.not_eq_true'] using hdoes

end Sys2Proof.Machine

/-! The timers' rows: steps, compares, writes of their registers, the release, and the end of a WAIT (R199 to R213). -/

namespace Sys2Proof.Machine
open Sys2Proof

/-! ### Steps (R204, R205) -/

section
variable {ud : Bool} {now : Nat} {t : Timer}

theorem countStep_up (hdir : ud = false ∨ t.down = false) (h : t.count.toNat < t.rld.toNat) :
    countStep ud now t = ({ t with count := t.count + 1 }, false) := by
  rcases hdir with hd | hd
  · simp [countStep, hd, h]
  · cases ud <;> simp [countStep, hd, h]

theorem countStep_wrap (hdir : ud = false ∨ (t.down = false ∧ t.rld = 0)) (h : t.rld.toNat ≤ t.count.toNat) : countStep ud now t =
    ({ t with count := 0, wrap := t.wrap.set now, armed := true, armedAt := now, down := t.down && !ud }, true) := by
  have hlt : ¬ t.count.toNat < t.rld.toNat := Nat.not_lt.2 h
  rcases hdir with hd | ⟨hd, hr⟩
  · simp [countStep, hd, hlt]
  · cases ud <;> simp [countStep, hd, hr]

theorem countStep_turn (hud : ud = true) (hd : t.down = false) (hr : t.rld ≠ 0) (h : t.rld.toNat ≤ t.count.toNat) : countStep ud now t =
    ({ t with count := t.count - 1, down := true, armed := true, armedAt := now }, false) := by
  have hlt : ¬ t.count.toNat < t.rld.toNat := Nat.not_lt.2 h
  have hr' : ¬ t.rld = 0#48 := hr
  simp [countStep, hud, hd, hr', hlt]

theorem countStep_down (hud : ud = true) (hd : t.down = true) (hc : t.count ≠ 0) : countStep ud now t = ({ t with count := t.count - 1 }, false) := by
  have hc' : ¬ t.count = 0#48 := hc
  simp [countStep, hud, hd, hc']

theorem countStep_zero (hud : ud = true) (hd : t.down = true) (hc : t.count = 0) : countStep ud now t =
    ({ t with count := if t.rld = 0 then 0 else 1, wrap := t.wrap.set now, armed := true, armedAt := now, down := t.down && !ud }, true) := by
  simp [countStep, hud, hd, hc]
end

/-- The step of a running timer whose residue has reached 2^p. -/
theorem opTimerStep_due {b : Block} {c : CluId} {x : BitVec 6} (hx : x.toNat < 40) (hrun : b.running c x.toNat = true)
    (hdue : 2 ^ (b.timer c x.toNat).p.toNat ≤ b.now - (b.timer c x.toNat).base) {t : Timer} {w : Bool}
    (h : countStep ((b.timer c x.toNat).updown && !b.forced) b.now (b.timer c x.toNat) = (t, w)) :
    opTimerStep c x b =
      let m := b.modTimer c x.toNat (fun _ => { t with
        base := (b.timer c x.toNat).base + 2 ^ (b.timer c x.toNat).p.toNat, p := (b.timer c x.toNat).presc })
      if w then wrapEvent c x.toNat m else m := by
  unfold opTimerStep
  simp only [hx, hrun, hdue, h, decide_true, Bool.and_self, if_true]

/-! ### Writes of TMR_CFG (R199, R204, R208) -/

theorem modTimer_const (b : Block) (c : CluId) (x : Nat) (f : Timer → Timer) :
    b.modTimer c x f = b.modTimer c x (fun _ => f (b.timer c x)) := rfl

/-- RUN is bit 0: a value that has it keeps it when it is set. -/
theorem or_one_of_bit0 {v : BitVec 18} (h : v.getLsbD 0 = true) : v ||| 1 = v := by
  apply BitVec.eq_of_getLsbD_eq
  intro i hi
  by_cases h0 : i = 0
  · subst h0; simp [h]
  · have : (1#18).getLsbD i = false := by simp [BitVec.getLsbD_one, h0]
    rw [BitVec.getLsbD_or]
    simp [this]

/-- The timer with TMR_CFG's value `v`, whose residue is `res` where it ran. -/
def configured (now res : Nat) (v : BitVec 18) (t : Timer) : Timer :=
  if v.getLsbD 0 && !t.run then { t with cfg := v, base := now, held := 0, p := v.extractLsb' 4 4, armedAt := max t.armedAt now }
  else if v.getLsbD 0 then { t with cfg := v }
  else { t with cfg := v, held := (if t.run then res else t.held), p := v.extractLsb' 4 4 }

/-- RUN that the write sets starts the residue at 0; RUN that it does not set holds it (R204). -/
theorem configured_eq (now res : Nat) (v : BitVec 18) (t : Timer) :
    (if ({ t with cfg := v } : Timer).run && !t.run then startTimer now now { t with cfg := v }
     else if !({ t with cfg := v } : Timer).run then
      { t with cfg := v, held := if t.run then res else t.held, p := ({ t with cfg := v } : Timer).presc } else { t with cfg := v }) =
    configured now res v t := by
  unfold configured
  change (if (v.getLsbD 0 && !t.run) = true then startTimer now now { t with cfg := v } else if (!v.getLsbD 0) = true then _ else _) = _
  by_cases h : (v.getLsbD 0 && !t.run) = true
  · rw [if_pos h, if_pos h, startTimer, or_one_of_bit0 (Bool.and_eq_true_iff.1 h).1]
    rfl
  · rw [if_neg h, if_neg h]
    cases v.getLsbD 0 <;> rfl

theorem configured_down (now res : Nat) (v : BitVec 18) (t : Timer) : (configured now res v t).down = t.down := by
  unfold configured
  split_ifs <;> rfl

theorem configured_updown (now res : Nat) (v : BitVec 18) (t : Timer) : (configured now res v t).updown = v.getLsbD 2 := by
  unfold configured
  split_ifs <;> rfl

theorem writeTmrCfg_eq {b : Block} {c : CluId} {x : Nat} (hx : x < 40) (d : Reg32) : writeTmrCfg c x d b =
    let t := b.timer c x
    let v : BitVec 18 := d.extractLsb' 0 18 &&& (if x < 8 then 0x3FEF7 else 0x3FFF7)
    let t1 := configured b.now (b.residue c x) v t
    let b1 := b.modTimer c x (fun _ =>
      if t.down && !(v.getLsbD 2 && !b.forced) then { t1 with down := false, armed := true, armedAt := b.now } else t1)
    if x < 8 then b1 else freezeTimer (mkEng c (BitVec.ofNat 3 ((x - 8) / 4))) x b1 := by
  unfold writeTmrCfg
  rw [if_neg (Nat.not_le.2 hx)]
  simp only [configured_eq, configured_down, configured_updown]
  by_cases h8 : x < 8
  · simp only [h8, Nat.not_le.2 h8, if_true, if_false]
    exact modTimer_const b c x _
  · simp only [h8, Nat.le_of_not_lt h8, if_true, if_false]
    exact congrArg _ (modTimer_const b c x _)

/-- The access of a timer's register is one of its word in the cluster's window. -/
theorem nativeWrite_cfg (o : Origin) (c : CluId) {x : Nat} (hx : x < 40) (d : Reg32) (b : Block) :
    nativeWrite o (.clu c (0x800 + 0x18 * x)) d b = writeTmrCfg c x d b := by
  have h1 : ¬ 0x800 + 0x18 * x < 0x400 := by omega
  have h2 : ¬ 0x800 + 0x18 * x < 0x800 := by omega
  have h3 : 0x800 + 0x18 * x < 0xC00 := by omega
  have h4 : 0x800 + 0x18 * x - 0x800 = 0x18 * x := by omega
  have h5 : 0x18 * x < 0x3C0 := by omega
  simp only [nativeWrite, cluWrite, h1, h2, h3, h4, timerWrite, h5, if_true, if_false, Nat.mul_mod_right]
  rw [Nat.mul_div_cancel_left x (by decide)]

/-! ### The wide commit (R200, R201, R207) -/

theorem nativeWrite_whi (o : Origin) (c : CluId) (d : BitVec 16) (b : Block) :
    nativeWrite o (.clu c 0xBC8) (d.setWidth 32) b =
      let sel := Map.get 0 (b.clu c).wsel (orgKey o)
      commitItem c (sel.extractLsb' 0 6).toNat (sel.extractLsb' 8 2).toNat (d ++ Map.get 0 (b.clu c).wlo (orgKey o) : BitVec 48) b := by
  have hlow : (d.setWidth 32).extractLsb' 0 16 = d := by
    apply BitVec.eq_of_toNat_eq
    have hd := d.isLt
    rw [BitVec.extractLsb'_toNat, BitVec.toNat_setWidth, Nat.shiftRight_zero]
    omega
  change wideCommit (orgKey o) c (d.setWidth 32) b = _
  unfold wideCommit
  rw [hlow]

theorem commitItem_eq {c : CluId} {x : Nat} {item : BitVec 2} {v : Word} {b : Block} : commitItem c x item.toNat v b =
    if 40 ≤ x then b
    else if item = 0 then setCmp c x v b
    else if item = 1 then askCorrect c x (b.modTimer c x (fun t => { t with rld := v }))
    else if item = 2 then askCorrect c x (b.modTimer c x (fun t => { t with
        count := v, base := b.now, held := 0, armed := true, armedAt := b.now }))
    else b := by
  have hcases : item = 0 ∨ item = 1 ∨ item = 2 ∨ item = 3 := by
    revert item; decide
  unfold commitItem
  rcases hcases with rfl | rfl | rfl | rfl <;> rfl

theorem rangeCorrect_wraps {b : Block} {c : CluId} {x : Nat} (hlt : (b.timer c x).rld.toNat < (b.timer c x).count.toNat)
    (hud : ((b.timer c x).updown && !b.forced) = false) : rangeCorrect c x b = wrapEvent c x (b.modTimer c x (fun t =>
      { t with count := 0, wrap := t.wrap.set b.now, base := b.now, held := 0, armed := true, armedAt := b.now })) := by
  simp only [rangeCorrect, hlt, hud, Bool.not_false, if_true]

theorem rangeCorrect_turns {b : Block} {c : CluId} {x : Nat} (hlt : (b.timer c x).rld.toNat < (b.timer c x).count.toNat)
    (hud : ((b.timer c x).updown && !b.forced) = true) : rangeCorrect c x b = if (b.timer c x).down then b
      else b.modTimer c x (fun t => { t with down := true, armed := true, armedAt := b.now }) := by
  simp only [rangeCorrect, hlt, hud, Bool.not_true, Bool.false_eq_true, if_true, if_false]
  cases (b.timer c x).down <;> rfl

/-! ### The capture read (R213) -/

theorem nativeRead_capLo (o : Origin) (c : CluId) {x : Nat} (hx : x < 40) (b : Block) :
    nativeRead b o (.clu c (0x800 + 0x18 * x + 0x10)) = lo32 (b.timer c x).cap := by
  have h1 : ¬ 0x800 + 0x18 * x + 0x10 < 0x400 := by omega
  have h2 : ¬ 0x800 + 0x18 * x + 0x10 < 0x800 := by omega
  have h3 : 0x800 + 0x18 * x + 0x10 < 0xC00 := by omega
  have h4 : 0x800 + 0x18 * x + 0x10 - 0x800 = 0x18 * x + 0x10 := by omega
  have h5 : 0x18 * x + 0x10 < 0x3C0 := by omega
  have h6 : (0x18 * x + 0x10) % 0x18 = 0x10 := by omega
  have h7 : (0x18 * x + 0x10) / 0x18 = x := by omega
  simp only [nativeRead, cluRead, h1, h2, h3, h4, timerRead, h5, h6, h7, if_true, if_false]

theorem nativeClear_capLo (o : Origin) (c : CluId) {x : Nat} (hx : x < 40) (b : Block) :
    nativeClear o (.clu c (0x800 + 0x18 * x + 0x10)) b = b.modTimer c x (fun t => { t with capf := t.capf.clear b.now }) := by
  have h0 : ¬ 0x800 + 0x18 * x + 0x10 = 0x42C := by omega
  have h1 : 0x800 ≤ 0x800 + 0x18 * x + 0x10 ∧ 0x800 + 0x18 * x + 0x10 < 0xC00 := by omega
  have h2 : 0x800 + 0x18 * x + 0x10 - 0x800 = 0x18 * x + 0x10 := by omega
  have h3 : 0x18 * x + 0x10 < 0x3C0 ∧ (0x18 * x + 0x10) % 0x18 = 0x10 := by omega
  have h4 : (0x18 * x + 0x10) / 0x18 = x := by omega
  simp only [nativeClear, cluClear, h0, h1, h2, timerClear, h3, h4, and_self, if_true, if_false]

/-! ### The release (R212) -/

/-- What the release does to an armed timer. -/
def releasedTimer (now : Nat) (r : Timer) : Timer :=
  if r.run then { r with cfg := r.cfg &&& 0x3FFFD }
  else { r with cfg := (r.cfg &&& 0x3FFFD) ||| 1, base := now, held := 0, p := r.presc }

/-- A pass over the timers of a cluster that changes those that `p` tells, each by `u`. -/
theorem eachTimer_spec (c : CluId) (p : Timer → Bool) (u : Nat → Timer → Timer) (b : Block) :
    let t := times 40 (fun x b => if p (b.timer c x) then b.modTimer c x (u b.now) else b) b
    TimersOf c b t ∧ ∀ x < 40, t.timer c x = if p (b.timer c x) then u b.now (b.timer c x) else b.timer c x := by
  refine times_own (TimersOf c b) (fun t x => t.timer c x) (fun _ r r' => r' = if p r then u b.now r else r)
    ⟨⟨b.clus, rfl⟩, fun _ _ => rfl, rfl, fun _ _ => rfl⟩ ?_
  intro x t hx ht
  have hnow : t.now = b.now := by
    obtain ⟨⟨m, rfl⟩, -⟩ := ht
    rfl
  rw [hnow]
  by_cases hp : p (t.timer c x) = true
  · simp only [hp, if_true]
    exact ⟨ht.modTimer hx _, timer_modTimer_same .., fun y _ hy => timer_modTimer_ne _ c _ hy⟩
  · simp only [hp]
    exact ⟨ht, rfl, fun _ _ _ => rfl⟩

/-- Cluster `v` after a release: each of its armed timers runs. -/
def Releases (now : Nat) (v v' : Clu) : Prop :=
  v' = { v with timers := v'.timers } ∧
  ∀ x, Map.get {} v'.timers x = if 40 ≤ x ∨ v.asleep = true ∨ (Map.get {} v.timers x).arm = false then Map.get {} v.timers x
    else releasedTimer now (Map.get {} v.timers x)

theorem releases_refl {v : Clu} (now : Nat) (h : v.asleep = true ∨ v.timers = []) : Releases now v v := by
  refine ⟨rfl, fun x => ?_⟩
  rcases h with h | h
  · rw [if_pos (.inr (.inl h))]
  · have harm : (Map.get {} v.timers x).arm = false := by
      rw [h, Map.get]
      rfl
    rw [if_pos (.inr (.inr harm))]

/-- The turn of a cluster in the release. -/
def releaseClu (c : CluId) (b : Block) : Block :=
  if (b.clu c).asleep || (b.clu c).timers = [] then b
  else times 40 (fun x b =>
    if (b.timer c x).arm then b.modTimer c x (releasedTimer b.now) else b) b

/-- Clearing ARM leaves PRESC as it is. -/
theorem presc_mask (v : BitVec 18) : (v &&& 0x3FFFD).extractLsb' 4 4 = v.extractLsb' 4 4 := by
  have hmask : (0x3FFFD : BitVec 18).extractLsb' 4 4 = BitVec.allOnes 4 := by decide
  rw [BitVec.extractLsb'_and, hmask, BitVec.and_allOnes]

theorem releaseTimers_eq (b : Block) : releaseTimers b = times 64 (fun i b => releaseClu (BitVec.ofNat 6 i) b) b := by
  have hstart : ∀ now t, (if Timer.run t then { t with cfg := t.cfg &&& 0x3FFFD } else startTimer now 0 { t with cfg := t.cfg &&& 0x3FFFD }) =
      releasedTimer now t := fun now t => by
    have hpresc : ({ t with cfg := t.cfg &&& 0x3FFFD } : Timer).presc = t.presc := presc_mask t.cfg
    unfold releasedTimer startTimer
    rw [hpresc, Nat.max_zero]
  unfold releaseTimers releaseClu
  simp only [hstart]

theorem releaseClu_spec (c : CluId) (b : Block) :
    (∃ m, releaseClu c b = { b with clus := m }) ∧ (∀ d, d ≠ c → (releaseClu c b).clu d = b.clu d) ∧
      Releases b.now (b.clu c) ((releaseClu c b).clu c) := by
  by_cases hstill : (b.clu c).asleep = true ∨ (b.clu c).timers = []
  · have hsame : releaseClu c b = b := if_pos (by simpa using hstill)
    rw [hsame]
    exact ⟨⟨b.clus, rfl⟩, fun _ _ => rfl, releases_refl b.now hstill⟩
  · obtain ⟨⟨hframe, hother, hown, hbeyond⟩, hrel⟩ := eachTimer_spec c Timer.arm releasedTimer b
    have hloop : releaseClu c b = times 40 (fun x b => if (b.timer c x).arm then b.modTimer c x (releasedTimer b.now) else b) b :=
      if_neg (by simpa using hstill)
    rw [hloop]
    refine ⟨hframe, hother, hown, fun x => ?_⟩
    by_cases hx : 40 ≤ x
    · rw [if_pos (.inl hx)]
      exact hbeyond x hx
    · refine (hrel x (Nat.lt_of_not_le hx)).trans ?_
      have hawake : ¬ (b.clu c).asleep = true := fun h => hstill (.inl h)
      change _ = if 40 ≤ x ∨ (b.clu c).asleep = true ∨ (b.timer c x).arm = false then b.timer c x else releasedTimer b.now (b.timer c x)
      cases (b.timer c x).arm <;> simp [hx, hawake]

/-- The release reaches the timers of every cluster. -/
theorem releaseTimers_spec (b : Block) :
    (∃ m, releaseTimers b = { b with clus := m }) ∧ ∀ c, Releases b.now (b.clu c) ((releaseTimers b).clu c) := by
  rw [releaseTimers_eq]
  obtain ⟨hframe, hrel⟩ := times_own (f := fun i b => releaseClu (BitVec.ofNat 6 i) b) (a := b) (n := 64)
    (fun t => ∃ m, t = { b with clus := m }) (fun t i => t.clu (BitVec.ofNat 6 i)) (fun _ => Releases b.now)
    ⟨b.clus, rfl⟩ (by
      rintro i _ hi ⟨m, rfl⟩
      obtain ⟨⟨m', hm⟩, hother, hown⟩ := releaseClu_spec (BitVec.ofNat 6 i) { b with clus := m }
      exact ⟨⟨m', hm⟩, hown, fun j hj hji => hother _ (ofNat_ne hi hj hji)⟩)
  refine ⟨hframe, fun c => ?_⟩
  have h := hrel c.toNat c.isLt
  rwa [BitVec.ofNat_toNat, BitVec.setWidth_eq] at h

/-- A loop that commutes with a change of the state. -/
theorem times_commute {α : Type} {f : Nat → α → α} (r : α → α) (h : ∀ i a, f i (r a) = r (f i a)) (n : Nat) (a : α) :
    times n f (r a) = r (times n f a) := by
  induction n with
  | zero => rfl
  | succ n ih => rw [times_succ, times_succ, ih, h]

theorem creditEvent_clus (n : BitVec 10) (b : Block) (m : Map Clu) :
    creditEvent n { b with clus := m } = { creditEvent n b with clus := m } := by
  refine times_commute (fun b : Block => { b with clus := m }) (fun i a => ?_) 256 b
  dsimp only
  split_ifs <;> first | rfl | (exfalso; contradiction)

theorem schedEvent_clus (n : BitVec 10) (b : Block) (m : Map Clu) :
    schedEvent n { b with clus := m } = { schedEvent n b with clus := m } := by
  refine times_commute (fun b : Block => { b with clus := m }) (fun i a => ?_) 32 b
  dsimp only
  split_ifs <;> first | rfl | (exfalso; contradiction)

/-- The block in which the event waits in the fabric. -/
def queuedEvent (n : BitVec 10) (b : Block) : Block := { b with fab := { b.fab with queue := b.fab.queue ++ [stampedEvent b (.num n)] } }

theorem raise_num_eq (n : BitVec 10) (b : Block) :
    raise (.num n) b = if liveEvent n then schedEvent n (creditEvent n (queuedEvent n b)) else queuedEvent n b := rfl

theorem raiseN_clus (n : Nat) (b : Block) (m : Map Clu) : raiseN n { b with clus := m } = { raiseN n b with clus := m } := by
  unfold raiseN
  rw [raise_num_eq, raise_num_eq]
  cases liveEvent (BitVec.ofNat 10 n)
  · rfl
  · simp only [if_true]
    rw [← schedEvent_clus, ← creditEvent_clus]
    rfl

theorem clu_clus (b : Block) (m : Map Clu) (c : CluId) : ({ b with clus := m } : Block).clu c = Map.get {} m c.toNat := rfl
theorem frame_clus (b : Block) (m : Map Clu) : ({ b with clus := m } : Block) = { b with clus := ({ b with clus := m } : Block).clus } := rfl

/-- The fabric after a release: its GO is over, and its GOAT where that fell due; GOLATE where it came late. -/
def goReleased (b : Block) : Block := { b with fab := { b.fab with
  goAt := none, goatAt := if goatDue b then none else b.fab.goatAt, goatLate := !(goatDue b) && b.fab.goatLate
  golate := b.fab.golate.setIf b.now (goatDue b && b.fab.goatLate) } }

/-- A release that is due raises its event, and starts the armed timers. -/
theorem opTimerGoRelease_spec {b : Block} (h : goDue b = true) : ∃ m, opTimerGoRelease b = { raiseN 0x1E0 (goReleased b) with clus := m } ∧
    ∀ c, Releases b.now (b.clu c) ((opTimerGoRelease b).clu c) := by
  obtain ⟨⟨m, hm⟩, hrel⟩ := releaseTimers_spec b
  rw [hm] at hrel
  have hop : opTimerGoRelease b = { raiseN 0x1E0 (goReleased b) with clus := m } := by
    unfold opTimerGoRelease
    rw [if_pos h, hm, ← raiseN_clus]
    rfl
  refine ⟨m, hop, fun c => ?_⟩
  rw [hop, clu_clus (raiseN 0x1E0 (goReleased b)) m c]
  exact hrel c

theorem goDue_iff {b : Block} : goDue b = true ↔ (∃ n, b.fab.goAt = some n ∧ n ≤ b.now) ∨
    ∃ n, b.fab.goatAt = some n ∧ n < b.now ∧ reached b.tick b.fab.goTick = true := by
  unfold goDue
  cases b.fab.goAt <;> cases b.fab.goatAt <;> simp

/-! ### The end of a WAIT (R50) -/

/-- A WAIT whose source is true ends in its file alone. -/
theorem settle_true {b : Block} {n : CtxNo} {src : BitVec 6} {lq : BitVec 4} {dl : Option Nat} {tg : CsAddr}
    (hact : (b.ctx n).act = .wait src lq dl tg) (hsrc : source b n (fileOf b n) lq src = true) :
    settle n b = b.setFile n (lvlOf b n) (waitOver src (fileOf b n)) := by
  unfold settle
  simp only [hact, hsrc, if_true, waitDone, Block.modFile]
  split
  · rw [modCtx_setFile _ _ _ _ _ (by cases (b.ctx n).lvl <;> intros <;> rfl) (by cases (b.ctx n).lvl <;> intros <;> rfl)]
    simp only [waitOver, ‹40 ≤ src.toNat›, if_true]
  · simp only [waitOver, ‹¬ 40 ≤ src.toNat›, if_false]

/-- Settles O26: each row by what its operation does to the timer, and to the context of a WAIT. -/
theorem timersCountCompareAndRelease : Obligations.TimersCountCompareAndRelease := by
  unfold Obligations.TimersCountCompareAndRelease
  refine ⟨?step, ?compare, fun c x d hx => ?cfg, fun c d => ?whi, ?range, fun c x hx => ?capLo, ?go, ?goat, ?release, ?settle⟩
  case step =>
    intro s c x b i t ud t' wrapped hx hrun hdue
    have hdoes : Does (.timerStep c x) s (opTimerStep c x s.blk) := does_of_exec rfl
    have hstep : ∀ {r : Timer} {w : Bool}, countStep ud b.now t = (r, w) → Does (.timerStep c x) s _ :=
      fun h => (opTimerStep_due hx hrun hdue h) ▸ hdoes
    refine ⟨fun hdir hlt => ?_, fun hdir hle => ?_, fun hud hd hr hle => ?_, fun hud hd hc => ?_, fun hud hd hc => ?_⟩
    · exact hstep (countStep_up hdir hlt)
    · exact hstep (countStep_wrap hdir hle)
    · exact hstep (countStep_turn hud hd hr hle)
    · exact hstep (countStep_down hud hd hc)
    · exact hstep (countStep_zero hud hd hc)
  case compare =>
    intro s c x b t hx hrun harmed hat hholds
    have hfire : opTimerCompareFire c x b = compareEvent c x.toNat
        (b.modTimer c x.toNat (fun t => { t with cmpf := t.cmpf.set b.now, armed := false })) :=
      if_pos (by simp only [hx, hrun, show (b.timer c x.toNat).armed = true from harmed, show (b.timer c x.toNat).armedAt < b.now from hat,
        show compareHolds (b.timer c x.toNat) = true from hholds, decide_true, Bool.and_self])
    have hdoes := does_of_exec (c := .timerCompareFire c x) (s := s) (f := fun b => settleClu c (opTimerCompareFire c x b)) rfl
    rwa [show opTimerCompareFire c x s.blk = _ from hfire] at hdoes
  case cfg =>
    refine portWrite_of (fun o s => ?_) (by simp) (fun o b => ?_)
    · rw [← show tmrOff x = 0x800 + 0x18 * x.toNat from if_pos hx]
      rfl
    · rw [nativeWrite_cfg o c hx, writeTmrCfg_eq hx]
      rfl
  case whi =>
    refine portWrite_of (fun o s => rfl) (by simp) (fun o b => ?_)
    rw [nativeWrite_whi]
    dsimp only
    rw [commitItem_eq]
    rfl
  case range =>
    intro b c x t ud
    exact ⟨rangeCorrect_of_le, rangeCorrect_wraps, rangeCorrect_turns⟩
  case capLo =>
    refine portRead_of (fun o s => ?_) (by simp) (fun o b => nativeRead_capLo o c hx b) (fun o b => nativeClear_capLo o c hx b)
    rw [← show tmrOff x = 0x800 + 0x18 * x.toNat from if_pos hx]
    rfl
  case go => exact portWrite_of (fun o s => rfl) (by simp) (fun o b => rfl)
  case goat => exact portWrite_of (fun o s => rfl) (by simp) (fun o b => rfl)
  case release =>
    intro s b goat hdue
    refine gives_of_exec rfl ?_
    obtain ⟨m, hm, hrel⟩ := opTimerGoRelease_spec (goDue_iff.2 hdue)
    refine ⟨?_, hrel⟩
    rw [hm]
    exact frame_clus (raiseN 0x1E0 (goReleased b)) m
  case settle =>
    intro b n src lq dl tg hact
    refine ⟨fun hsrc => ?_, fun hsrc => ?_⟩
    · simp only [settle, hact, hsrc, Bool.false_eq_true, if_false]
    · rw [settle_true hact hsrc]
      exact onlyParts_setFile ..

end Sys2Proof.Machine

/-! The control store's rows: a machine check, the repair of a word and its end, the generations and their activation, the read
of a word (R68, R169, R178 to R191). -/

namespace Sys2Proof.Machine
open Sys2Proof

/-! ### A machine check (R187, R188) -/

theorem withdraw_frame (n : CtxNo) (b : Block) : ∃ v, withdraw n b = { b with clus := v } := by
  unfold withdraw
  split <;> exact ⟨_, rfl⟩

/-- The context as a wait abandoned leaves it. -/
def idled (c : Ctx) : Ctx :=
  { c with act := .idle, excs := if c.act.stepWaits then c.excs.filter (fun x => !(heldTrap c x)) else c.excs }

theorem modCtx_idled {b : Block} {v : Map Clu} {g : Map Eng} (n : CtxNo) {t : Block} (h : t = { b with clus := v, engs := g }) :
    t.modCtx n idled = ({ b with clus := v, engs := g }).setCtx n (idled (b.ctx n)) := by
  rw [h]
  rfl

theorem abandon_frame (n : CtxNo) (b : Block) : ∃ v g, abandon n b = ({ b with clus := v, engs := g }).setCtx n (idled (b.ctx n)) := by
  obtain ⟨v, hv⟩ := withdraw_frame n b
  unfold abandon
  simp only [hv]
  split
  · exact ⟨_, _, modCtx_idled n rfl⟩
  · split <;> exact ⟨_, _, modCtx_idled n rfl⟩
  · exact ⟨_, _, modCtx_idled n rfl⟩

@[simp] theorem abandon_now (n : CtxNo) (b : Block) : (abandon n b).now = b.now := by
  obtain ⟨v, g, h⟩ := abandon_frame n b
  rw [h]
  rfl

theorem ctx_abandon (n : CtxNo) (b : Block) : (abandon n b).ctx n = idled (b.ctx n) := by
  obtain ⟨v, g, h⟩ := abandon_frame n b
  rw [h, ctx_setCtx_same]

@[simp] theorem select_now (n : CtxNo) (b : Block) : (select n b).now = b.now := by
  rw [select_eq]
  rfl

@[simp] theorem ctx_select (n : CtxNo) (b : Block) (m : CtxNo) : (select n b).ctx m = b.ctx m := by
  rw [select_eq]
  rfl

theorem holdLeases_frame (n : CtxNo) (b : Block) : ∃ l, holdLeases n b = { b with leases := l } := by
  unfold holdLeases
  split <;> exact ⟨_, rfl⟩

theorem mchkInfo_word (fa : CsAddr) (bad : BitVec 10) (lbuf : Bool) :
    mchkInfo fa bad lbuf 32 = fa.setWidth 32 ||| fld 14 bad ||| bit 24 lbuf := rfl

/-- An append, read as the fields set side by side. -/
theorem setWidth_append_or {v w : Nat} (k : Nat) (x : BitVec v) (y : BitVec w) :
    (x ++ y).setWidth k = x.setWidth k <<< w ||| y.setWidth k := by
  ext i hi
  simp only [BitVec.getElem_setWidth, BitVec.getLsbD_append, BitVec.getElem_or, BitVec.getElem_shiftLeft]
  by_cases hiw : i < w
  · simp [hiw]
  · simp [hiw, BitVec.getLsbD_of_ge y i (by omega)]

theorem or_reversed {w : Nat} (a b c d e f g h : BitVec w) :
    a ||| b ||| c ||| d ||| e ||| f ||| g ||| h = h ||| g ||| f ||| e ||| d ||| c ||| b ||| a := by
  ac_rfl

theorem ecause_fields (x : Exc) (long l2 : Bool) : ecause x long l2 = ecauseOf x x.code x.sub long l2 := by
  have hlong : ∀ p : Bool, (if p then (0x200000000 : Word) else 0) = (BitVec.ofBool p).setWidth 48 <<< 33 := by decide
  have hmult : ∀ p : Bool, (if p then (0x400000000 : Word) else 0) = (BitVec.ofBool p).setWidth 48 <<< 34 := by decide
  have hl2 : ∀ p : Bool, (if p then (0x800000000 : Word) else 0) = (BitVec.ofBool p).setWidth 48 <<< 35 := by decide
  have hzero : (0 : BitVec 12).setWidth 48 <<< 36 = (0#48) := by decide
  have hall : ecauseOf x x.code x.sub long l2 = ((0 : BitVec 12) ++ BitVec.ofBool l2 ++ BitVec.ofBool x.mult ++ BitVec.ofBool long ++
      x.tag ++ x.fupc ++ x.sub ++ x.kind ++ x.code).setWidth 48 := (BitVec.setWidth_eq _).symm
  rw [hall, ecause, hlong, hmult, hl2]

  rw [setWidth_append_or, setWidth_append_or, setWidth_append_or, setWidth_append_or, setWidth_append_or, setWidth_append_or,
    setWidth_append_or, setWidth_append_or]
  simp only [BitVec.shiftLeft_or_distrib, ← BitVec.shiftLeft_add, Nat.reduceAdd]
  rw [hzero]
  rw [BitVec.zero_or]
  exact or_reversed ..

theorem ctx_holdLeases (n : CtxNo) (b : Block) (m : CtxNo) : (holdLeases n b).ctx m = b.ctx m := by
  obtain ⟨l, h⟩ := holdLeases_frame n b
  rw [h]
  rfl

theorem eng_holdLeases (n : CtxNo) (b : Block) (e : EngId) : (holdLeases n b).eng e = b.eng e := by
  obtain ⟨l, h⟩ := holdLeases_frame n b
  rw [h]
  rfl

theorem holdLeases_now (n : CtxNo) (b : Block) : (holdLeases n b).now = b.now := by
  obtain ⟨l, h⟩ := holdLeases_frame n b
  rw [h]

theorem bankMchk_now (n : CtxNo) (m : Mchk) (b : Block) : (bankMchk n m b).now = b.now := by
  unfold bankMchk
  split <;> rfl

section
variable {n : CtxNo} {m : Mchk} {b : Block}

theorem bankMchk_prog (h : (b.ctx n).lvl = .prog) : bankMchk n m b = b := by
  simp only [bankMchk, h]

theorem bankMchk_bank1 (h : (b.ctx n).lvl = .bank1) : bankMchk n m b = b.setEng (engOf n) { b.eng (engOf n) with
    xb1 := { (b.eng (engOf n)).xb1 with ecause := m.ecause, einfo := m.einfo } } := by
  simp only [bankMchk, h, modEng_eq]

theorem bankMchk_bank2 (h : (b.ctx n).lvl = .bank2) : bankMchk n m b = b.setEng (engOf n) { b.eng (engOf n) with
    xb2 := { (b.eng (engOf n)).xb2 with ecause := m.ecause, einfo := m.einfo } } := by
  simp only [bankMchk, h, modEng_eq]

end

/-- The block with the bits `flip` of the stored word upset, and without the loop buffer that captures it. -/
def upsetIf (stored : Bool) (e : EngId) (x : CsAddr) (flip : PWord) (b : Block) : Block :=
  let b' := if stored then upset e x flip b else b
  if (b.eng e).inRange x && !(inLoop (b.eng e) x) then b'.modEng e (fun g => { g with lbBuf := [] }) else b'

theorem upset_frame (e : EngId) (x : CsAddr) (flip : PWord) (b : Block) : ∃ t g, upset e x flip b = { b with cs := t, engs := g } := by
  unfold upset
  dsimp only
  split <;> exact ⟨_, _, rfl⟩

theorem upsetIf_frame (stored : Bool) (e : EngId) (x : CsAddr) (flip : PWord) (b : Block) :
    ∃ t g, upsetIf stored e x flip b = { b with cs := t, engs := g } := by
  obtain ⟨t, g, h⟩ := upset_frame e x flip b
  unfold upsetIf
  simp only [h]
  cases stored <;> split <;> exact ⟨_, _, rfl⟩

/-- The machine check that a context takes, as it latches it. -/
def mchkOf (fa upc : CsAddr) (bad : BitVec 10) (lbuf : Bool) (c : Ctx) : Mchk :=
  { addr := fa
    einfo := mchkInfo fa bad lbuf 48
    ecause := ecause { code := 0x01, kind := 0, sub := 0, fupc := upc, lvl := c.lvl } c.act.midLong (decide (c.lvl = .bank2)) }

theorem mchkOf_eq (fa upc : CsAddr) (bad : BitVec 10) (lbuf : Bool) (c : Ctx) : mchkOf fa upc bad lbuf c =
    { addr := fa, einfo := fa.setWidth 48 ||| bad.setWidth 48 <<< 14 ||| (if lbuf then 0x1000000 else 0)
      ecause := ecauseOf { code := 1, kind := 0, sub := 0, fupc := upc, lvl := c.lvl } 1 0 c.act.midLong (c.lvl == .bank2) } := by
  rw [mchkOf, ecause_fields]
  rfl

theorem mchkHeld_lvl (n : CtxNo) (m : Mchk) (b : Block) :
    ((holdLeases n ((abandon n (select n b)).modCtx n (fun x => { x with mchk := some m }))).ctx n).lvl = (b.ctx n).lvl := by
  rw [ctx_holdLeases, modCtx_eq, ctx_setCtx_same, ctx_abandon, ctx_select]
  rfl

theorem eng_holdLeases_setCtx (n : CtxNo) (b : Block) (c : Ctx) (e : EngId) : (holdLeases n (b.setCtx n c)).eng e = b.eng e := by
  rw [eng_holdLeases, eng_setCtx]

/-- What a machine check leaves of the context, its bank and its reservation. -/
def mchkTaken (n : CtxNo) (m : Mchk) (b : Block) : Block :=
  bankMchk n m (holdLeases n ((abandon n (select n b)).modCtx n (fun x => { x with mchk := some m })))

theorem mchkTaken_now (n : CtxNo) (m : Mchk) (b : Block) : (mchkTaken n m b).now = b.now := by
  simp [mchkTaken, bankMchk_now, holdLeases_now]

theorem opMachineCheck_eq {b : Block} {e : EngId} {k : CtxId} {flip : PWord} (stored : Bool) (hcan : canIssue b (ctxNo e k) = true)
    (hupc : (b.ctx (ctxNo e k)).upc.toNat ≤ 0x21FF) (hbad : (fetchP b e (b.ctx (ctxNo e k)).upc ^^^ flip).bad ≠ 0) :
    let n := ctxNo e k
    let c := cluOf e
    let upc := (b.ctx n).upc
    let fa := fetchAddr b e upc
    let bad := (fetchP b e upc ^^^ flip).bad
    let lbuf := inLoop (b.eng e) upc
    let m := mchkTaken n (mchkOf fa upc bad lbuf (b.ctx n)) (upsetIf stored e upc flip b)
    let v := m.clu c
    opMachineCheck n flip stored b =
      detect (0x400 + c.toNat) 1 (fa.setWidth 24 ||| (engIn e).setWidth 24 <<< 14 ||| k.setWidth 24 <<< 17)
        (detect e.toNat 1 (upc.setWidth 24 ||| k.setWidth 24 <<< 14) (m.setClu c { v with
          perr := v.perr.count b.now 1
          mchk := fa.setWidth 32 ||| fld 14 bad ||| bit 24 lbuf ||| fld 25 (engIn e) ||| fld 28 k
          repairs := if v.repairs.any (fun r => r.addr == fa && !r.ended) then v.repairs else v.repairs ++ [{ addr := fa }] })) := by
  intro n c upc fa bad lbuf m v
  unfold opMachineCheck
  rw [engOf_ctxNo, ctxOf_ctxNo]
  have hcond : (canIssue b n && decide (upc.toNat ≤ 0x21FF) && bad != 0) = true := by
    rw [hcan, decide_eq_true hupc]
    exact bne_iff_ne.2 hbad
  have hnow : m.now = b.now := by
    obtain ⟨t, g, h⟩ := upsetIf_frame stored e upc flip b
    rw [mchkTaken_now, h]
  rw [if_pos hcond, ← hnow]
  rfl

/-! ### Writes of the store, and its golden copies (R68, R178) -/

theorem mem_allEngIn (i : BitVec 3) : i ∈ allEngIn := by revert i; decide

theorem cluOf_mkEng (c : CluId) (i : BitVec 3) : cluOf (mkEng c i) = c := by
  unfold cluOf mkEng
  exact BitVec.extractLsb'_append_eq_left

theorem append_parts {v w : Nat} (x : BitVec (v + w)) : x.extractLsb' w v ++ x.extractLsb' 0 w = x := by
  ext i hi
  rw [BitVec.getElem_append]
  split
  · simp [BitVec.getLsbD_eq_getElem hi]
  · rw [BitVec.getElem_extractLsb', Nat.add_sub_cancel' (by omega), BitVec.getLsbD_eq_getElem hi]

theorem mkEng_cluOf (e : EngId) : mkEng (cluOf e) (engIn e) = e := append_parts (v := 6) (w := 3) e

theorem engIn_mkEng (c : CluId) (i : BitVec 3) : engIn (mkEng c i) = i := by
  unfold engIn mkEng
  exact BitVec.extractLsb'_append_eq_right

theorem eq_mkEng_iff {e : EngId} {c : CluId} {i : BitVec 3} : e = mkEng c i ↔ cluOf e = c ∧ engIn e = i := by
  constructor
  · rintro rfl
    exact ⟨cluOf_mkEng c i, engIn_mkEng c i⟩
  · rintro ⟨rfl, rfl⟩
    exact (mkEng_cluOf e).symm

/-- Engines of a cluster changed one after another, each where what it holds asks for it. -/
theorem foldl_setEng (c : CluId) (p : Eng → Bool) (f : Eng → Eng) (l : List (BitVec 3)) (hl : l.Nodup) (b : Block) :
    ∃ g, l.foldl (fun b i => if p (b.eng (mkEng c i)) then b.setEng (mkEng c i) (f (b.eng (mkEng c i))) else b) b = { b with engs := g } ∧
      ∀ e, ({ b with engs := g } : Block).eng e = if cluOf e = c ∧ engIn e ∈ l ∧ p (b.eng e) then f (b.eng e) else b.eng e := by
  induction l generalizing b with
  | nil => exact ⟨b.engs, rfl, fun e => by simp⟩
  | cons i l ih =>
    obtain ⟨hi, hl⟩ := List.nodup_cons.1 hl
    rw [List.foldl_cons]
    by_cases hp : p (b.eng (mkEng c i)) = true
    · rw [if_pos hp]
      obtain ⟨g, hg, he⟩ := ih hl (b.setEng (mkEng c i) (f (b.eng (mkEng c i))))
      refine ⟨g, hg, fun e => (he e).trans ?_⟩
      rw [eng_setEng]
      by_cases hei : e = mkEng c i
      · simp [hei, hi, hp, cluOf_mkEng, engIn_mkEng]
      · have : ¬ (cluOf e = c ∧ engIn e = i) := fun h => hei (eq_mkEng_iff.2 h)
        simp only [hei, if_false, List.mem_cons]
        grind
    · rw [if_neg hp]
      obtain ⟨g, hg, he⟩ := ih hl b
      refine ⟨g, hg, fun e => (he e).trans ?_⟩
      by_cases hei : e = mkEng c i
      · simp [hei, hi, hp, cluOf_mkEng, engIn_mkEng]
      · have : ¬ (cluOf e = c ∧ engIn e = i) := fun h => hei (eq_mkEng_iff.2 h)
        simp only [List.mem_cons]
        grind

theorem csWrite_spec (c : CluId) (a : CsAddr) (w : PWord) (b : Block) :
    ∃ g, csWrite c a w b = { b with cs := Map.set 0 b.cs (csKey c a) w, engs := g } ∧
      ∀ e, ({ b with engs := g } : Block).eng e = if cluOf e = c ∧ (b.eng e).inRange a then { b.eng e with lbBuf := [] } else b.eng e := by
  obtain ⟨g, hg, he⟩ := foldl_setEng c (fun g => g.inRange a) (fun g => { g with lbBuf := [] }) allEngIn (by decide)
    { b with cs := Map.set 0 b.cs (csKey c a) w }
  refine ⟨g, hg, fun e => (he e).trans ?_⟩
  simp only [mem_allEngIn, true_and]
  rfl

/-- A replica's word is used where its section and its lines are right. -/
def replicaOk (b : Block) (body : BitVec 4) (a : CsAddr) (second bad : Bool) : Bool :=
  !bad && goldenOk b (goldenSec body second) && !(poisoned b (goldenAt body second a.toNat) 24)

theorem goldenWord_eq (b : Block) (body : BitVec 4) (a : CsAddr) (bad0 bad1 : Bool) : goldenWord b body a bad0 bad1 =
    if replicaOk b body a false bad0 then some (recWord (readBytes b (goldenAt body false a.toNat) 24))
    else if replicaOk b body a true bad1 then some (recWord (readBytes b (goldenAt body true a.toNat) 24)) else none := by
  unfold goldenWord replicaOk
  dsimp only
  cases bad0 <;> cases goldenOk b (goldenSec body false) <;> cases poisoned b (goldenAt body false a.toNat) 24 <;>
    cases bad1 <;> cases goldenOk b (goldenSec body true) <;> cases poisoned b (goldenAt body true a.toNat) 24 <;> rfl

theorem goldenFor_unstaged {b : Block} {v : Clu} {a : CsAddr} (bad0 bad1 : Bool)
    (h : v.stagedPm.all (fun x => 0x2000 + x.1.toNat != a.toNat) = true) : goldenFor b v a bad0 bad1 = goldenWord b v.body a bad0 bad1 := by
  have hnone : v.stagedPm.find? (fun x => 0x2000 + x.1.toNat == a.toNat) = none := by
    rw [List.find?_eq_none]
    intro x hx
    simpa using List.all_eq_true.1 h x hx
  simp only [goldenFor, hnone]

theorem goldenFor_staged {b : Block} {v : Clu} {a : CsAddr} (bad0 bad1 : Bool) {x : BitVec 9 × PWord} {l : List (BitVec 9 × PWord)}
    (hl : v.stagedPm = x :: l) (hx : 0x2000 + x.1.toNat = a.toNat) :
    goldenFor b v a bad0 bad1 = if bad0 = true ∧ bad1 = true then none else some x.2 := by
  have hfirst : v.stagedPm.find? (fun x => 0x2000 + x.1.toNat == a.toNat) = some x := by
    rw [hl, List.find?_cons_of_pos (by simpa using hx)]
  simp only [goldenFor, hfirst, Bool.and_eq_true]

/-! ### Generations (R184, R185, R189, R190) -/

theorem commitTable_gone (c : CluId) (t : Map Reg32) (r : Bool) (b : Block) : (commitTable c t r b).gone = b.gone := rfl

theorem commitGen_of_none_gone {b : Block} {c : CluId} (t : Map Reg32) (r : Bool) (h : ∀ i, b.isGone (partEng (mkEng c i)) = false) :
    commitGen c t r b = commitTable c t r b := by
  have hkeep : ∀ l : List (BitVec 3), l.foldl (fun b i => let e := mkEng c i
      if b.isGone (partEng e) then activateEngine e b else b) (commitTable c t r b) = commitTable c t r b := by
    intro l
    induction l with
    | nil => rfl
    | cons i l ih => rw [List.foldl_cons, if_neg (by rw [show (commitTable c t r b).isGone (partEng (mkEng c i)) = _ from h i]; exact nofun), ih]
  exact hkeep allEngIn

section
variable {e : EngId} {b : Block}

/-- An engine has activated the generation. -/
def activated (e : EngId) (b : Block) : Block :=
  (b.setEng e { b.eng e with lbBuf := [] }).setClu (cluOf e) { b.clu (cluOf e) with
    pmWait := putBit (b.clu (cluOf e)).pmWait (engIn e).toNat false, pmActive := putBit (b.clu (cluOf e)).pmActive (engIn e).toNat true }

theorem opPatchActivate_eq (hrun : (b.eng e).halted = false) (hsec : b.fenced (secOf e) = false)
    (hwait : (b.clu (cluOf e)).pmWait.getLsbD (engIn e).toNat = true) :
    opPatchActivate e b = if putBit (b.clu (cluOf e)).pmWait (engIn e).toNat false = 0 then generationDone (cluOf e) (activated e b) else activated e b := by
  unfold opPatchActivate activateEngine
  rw [if_neg (by simp [hrun, hsec]), if_pos hwait]
  simp only [modClu_eq, modEng_eq, clu_setClu_same, setClu_setEng, eng_setClu]
  rfl
end

theorem nativeWrite_raddr (o : Origin) (c : CluId) (a : CsAddr) (b : Block) :
    nativeWrite o (.clu c 0x40C) (a.setWidth 32) b = b.modClu c (fun v => { v with raddr := a, rbusy := true }) := by
  have ha : (a.setWidth 32).extractLsb' 0 14 = a := by
    ext i hi
    simp only [BitVec.getElem_extractLsb', BitVec.getLsbD_setWidth, Nat.zero_add, BitVec.getLsbD_eq_getElem hi, Bool.and_eq_right_iff_imp,
      decide_eq_true_eq]
    omega
  have hread : nativeWrite o (.clu c 0x40C) (a.setWidth 32) b = csRead c ((a.setWidth 32).extractLsb' 0 14) b := rfl
  rw [hread, ha]
  rfl

section
variable {c : CluId} {b : Block}

theorem generationDone_repair (h : (b.clu c).pmRepair = true) : generationDone c b =
    b.modClu c (fun v => { v with state := .loaded, pmRepair := false, repairs := endFirst v.repairs }) := by
  unfold generationDone
  rw [if_pos h]

theorem generationDone_patch (h : (b.clu c).pmRepair = false) :
    let v := b.clu c
    let b' := goldenCommit c (b.modClu c (fun v => { v with state := .loaded, patch := v.patch + 1, pmLate := false }))
    generationDone c b = if v.pmLate then queueEvent 5 ([c.setWidth 8] ++ bytesOf 2 (v.patch + 1)) b' else b' := by
  unfold generationDone
  rw [if_neg (by simp [h])]
end

section
variable (e : EngId) (b : Block)

@[simp] theorem activated_pmRepair : ((activated e b).clu (cluOf e)).pmRepair = (b.clu (cluOf e)).pmRepair := by
  rw [activated, clu_setClu_same]

@[simp] theorem activated_patch : ((activated e b).clu (cluOf e)).patch = (b.clu (cluOf e)).patch := by
  rw [activated, clu_setClu_same]

@[simp] theorem activated_pmLate : ((activated e b).clu (cluOf e)).pmLate = (b.clu (cluOf e)).pmLate := by
  rw [activated, clu_setClu_same]
end

theorem csWrite_now (c : CluId) (a : CsAddr) (w : PWord) (b : Block) : (csWrite c a w b).now = b.now := by
  obtain ⟨g, hg, -⟩ := csWrite_spec c a w b
  rw [hg]

theorem csWrite_clu (c : CluId) (a : CsAddr) (w : PWord) (b : Block) (x : CluId) : (csWrite c a w b).clu x = b.clu x := by
  obtain ⟨g, hg, -⟩ := csWrite_spec c a w b
  rw [hg]
  rfl

theorem mkPm_repair (o : CsAddr) (p : BitVec 9) : mkPm o p true = o.setWidth 32 ||| fld 14 p ||| 0xC0000000 := by
  have hbits : bit 30 true ||| bit 31 true = 0xC0000000 := by decide
  rw [mkPm, BitVec.or_assoc _ (bit 30 true), hbits]

/-! ### Repairs (R188 to R191) -/

/-- Of a list with rising indexes only one pair has a given index. -/
theorem any_find?_of_rising {α : Type} {l : Map α} (k : Nat) (p : Nat × α → Bool) (h : l.Pairwise (fun x y => x.1 < y.1)) :
    (l.find? (fun x => x.1 == k)).any p = l.any (fun x => x.1 == k && p x) := by
  induction l with
  | nil => rfl
  | cons x l ih =>
    obtain ⟨hx, hl⟩ := List.pairwise_cons.1 h
    by_cases hk : x.1 = k
    · have hrest : l.any (fun y => y.1 == k && p y) = false := by
        rw [List.any_eq_false]
        intro y hy
        have := hx y hy
        simp; omega
      rw [List.find?_cons_of_pos (by simpa using hk), List.any_cons, hrest]
      simp [hk]
    · rw [List.find?_cons_of_neg (by simpa using hk), List.any_cons, ih hl]
      simp [hk]

/-- The word was written back less than 1,000,000 ticks before. -/
def lately (v : Clu) (a : CsAddr) (now : Nat) : Bool := (v.lastRepair.find? (fun x => x.1 == a.toNat)).any (fun x => decide (now < x.2 + 1000000))

/-- The word is written back where it stands. -/
def wroteBack (c : CluId) (a : CsAddr) (g : PWord) (b : Block) : Block :=
  (detect (0x400 + c.toNat) 2 (a.setWidth 24) ((csWrite c a g b).modClu c (fun v => { v with
    lastRepair := Map.insert (Map.erase v.lastRepair a.toNat) a.toNat (csWrite c a g b).now }))).modClu c
      (fun v => { v with repairs := endFirst v.repairs })

theorem wroteBack_eq (c : CluId) (a : CsAddr) (g : PWord) (b : Block) : wroteBack c a g b =
    (detect (0x400 + c.toNat) 2 (a.setWidth 24) ((csWrite c a g b).setClu c { (csWrite c a g b).clu c with
      lastRepair := Map.insert (Map.erase (b.clu c).lastRepair a.toNat) a.toNat b.now })).modClu c
        (fun v => { v with repairs := endFirst v.repairs }) := by
  rw [wroteBack, modClu_eq (csWrite c a g b), csWrite_now, congrArg Clu.lastRepair (csWrite_clu c a g b c)]

/-- The cluster's table takes the entry of a redirected word. -/
def redirected (c : CluId) (a : CsAddr) (g : PWord) (i : Nat) (p : BitVec 9) (b : Block) : Block :=
  detect (0x400 + c.toNat) 2 (a.setWidth 24 ||| 0x4000) (commitGen c
    (Map.set 0 (b.clu c).pm i (mkPm (repairOrig (b.clu c) a).1 p true)) true (csWrite c (0x2000 + p.setWidth 14) g b))

section
variable {c : CluId} {b : Block} {r : Repair} {rb bad0 bad1 : Bool}

/-- A repair is due and may run. -/
def RepairDue (c : CluId) (b : Block) (r : Repair) : Prop :=
  (b.clu c).repairs.find? (fun r => !r.ended) = some r ∧ (b.clu c).runs = true ∧ (b.clu c).pmRepair = false ∧ (b.clu c).outAt = none

variable (h : RepairDue c b r)
include h

theorem opCsRepair_due : opCsRepair c rb bad0 bad1 b =
    (goldenFor b (b.clu c) (repairSource (b.clu c) r.addr) bad0 bad1).elim (repairFails c r.addr b) (fun g =>
      if (csWord b c r.addr).bad = 0 ∧ csWord b c r.addr = g then b.modClu c (fun v => { v with repairs := endFirst v.repairs })
      else if rb && !lately (b.clu c) r.addr b.now then wroteBack c r.addr g b
      else if (b.clu c).state ≠ .loaded then b
      else (freeEntry (b.clu c) (repairOrig (b.clu c) r.addr).2).elim (repairFails c r.addr b) (fun i =>
        (freePatchWord b c).elim (repairFails c r.addr b) (fun p => redirected c r.addr g i p b))) := by
  obtain ⟨hr, hruns, hrep, hout⟩ := h
  have hcond : (!(b.clu c).runs || (b.clu c).pmRepair || (b.clu c).outAt.isSome) = false := by rw [hruns, hrep, hout]; rfl
  unfold opCsRepair
  dsimp only
  rw [hr]
  dsimp only
  rw [hcond, if_neg Bool.false_ne_true]
  cases goldenFor b (b.clu c) (repairSource (b.clu c) r.addr) bad0 bad1 with
  | none => rfl
  | some g =>
    refine if_congr Iff.rfl rfl (if_congr ?_ rfl (if_congr Iff.rfl rfl ?_))
    · unfold lately
      cases List.find? (fun x => x.1 == r.addr.toNat) (b.clu c).lastRepair with
      | none => exact Iff.rfl
      | some x =>
        dsimp only
        rw [Option.any_some]
    · cases freeEntry (b.clu c) (repairOrig (b.clu c) r.addr).2 <;> cases freePatchWord b c <;> rfl

variable {g : PWord} (hg : goldenFor b (b.clu c) (repairSource (b.clu c) r.addr) bad0 bad1 = some g)
include hg

theorem opCsRepair_right (hw : (csWord b c r.addr).bad = 0 ∧ csWord b c r.addr = g) :
    opCsRepair c rb bad0 bad1 b = b.modClu c (fun v => { v with repairs := endFirst v.repairs }) := by
  rw [opCsRepair_due h, hg, Option.elim_some, if_pos hw]

variable (hw : ¬ ((csWord b c r.addr).bad = 0 ∧ csWord b c r.addr = g))
include hw

theorem opCsRepair_writes (hrb : rb = true) (hnot : lately (b.clu c) r.addr b.now = false) :
    opCsRepair c rb bad0 bad1 b = wroteBack c r.addr g b := by
  rw [opCsRepair_due h, hg, Option.elim_some, if_neg hw, hrb, hnot]
  rfl

variable (hno : rb = false ∨ lately (b.clu c) r.addr b.now = true)
include hno

/-- Else nothing happens before the cluster's table is at rest. -/
theorem opCsRepair_redirects : opCsRepair c rb bad0 bad1 b =
    if (b.clu c).state ≠ .loaded then b
    else (freeEntry (b.clu c) (repairOrig (b.clu c) r.addr).2).elim (repairFails c r.addr b) (fun i =>
      (freePatchWord b c).elim (repairFails c r.addr b) (fun p => redirected c r.addr g i p b)) := by
  have hkeep : (rb && !lately (b.clu c) r.addr b.now) = false := by
    rcases hno with hrb | hyes
    · rw [hrb, Bool.false_and]
    · rw [hyes, Bool.not_true, Bool.and_false]
  rw [opCsRepair_due h, hg, Option.elim_some, if_neg hw, hkeep, if_neg Bool.false_ne_true]

theorem opCsRepair_redirected (hst : (b.clu c).state = .loaded) {i : Nat} {p : BitVec 9}
    (hi : freeEntry (b.clu c) (repairOrig (b.clu c) r.addr).2 = some i) (hp : freePatchWord b c = some p) :
    opCsRepair c rb bad0 bad1 b = redirected c r.addr g i p b := by
  rw [opCsRepair_redirects h hg hw hno, if_neg (not_not.2 hst), hi, Option.elim_some, hp, Option.elim_some]

theorem opCsRepair_noRoom (hst : (b.clu c).state = .loaded)
    (hroom : freeEntry (b.clu c) (repairOrig (b.clu c) r.addr).2 = none ∨ freePatchWord b c = none) :
    opCsRepair c rb bad0 bad1 b = repairFails c r.addr b := by
  rw [opCsRepair_redirects h hg hw hno, if_neg (not_not.2 hst)]
  rcases hroom with hroom | hroom
  · rw [hroom, Option.elim_none]
  · rw [hroom]
    cases freeEntry (b.clu c) (repairOrig (b.clu c) r.addr).2 <;> rfl
end

/-! ### The end of a repair (R190) -/

/-- The contexts of a cluster that are stopped on the word at `a`. -/
def stoppedOn (c : CluId) (a : CsAddr) (b : Block) : List CtxNo :=
  ((List.range 128).map (fun i => (c ++ BitVec.ofNat 7 i : BitVec 13))).filter (fun n => (b.ctx n).mchk.map (·.addr) == some a)

theorem cluOf_engOf (n : CtxNo) : cluOf (engOf n) = n.extractLsb' 7 6 := by
  unfold cluOf engOf
  ext i hi
  simp [← Nat.add_assoc]
  intro _
  omega

theorem mem_stoppedOn {c : CluId} {a : CsAddr} {b : Block} {n : CtxNo} :
    n ∈ stoppedOn c a b ↔ cluOf (engOf n) = c ∧ (b.ctx n).mchk.map (·.addr) = some a := by
  rw [stoppedOn, List.mem_filter, List.mem_map, cluOf_engOf, beq_iff_eq]
  refine and_congr_left fun _ => ⟨?_, fun hc => ⟨(n.extractLsb' 0 7).toNat, ?_, ?_⟩⟩
  · rintro ⟨i, -, rfl⟩
    exact BitVec.extractLsb'_append_eq_left
  · exact List.mem_range.2 (n.extractLsb' 0 7).isLt
  · rw [BitVec.ofNat_toNat, BitVec.setWidth_eq, ← hc]
    exact append_parts (v := 6) (w := 7) n

theorem nodup_stoppedOn (c : CluId) (a : CsAddr) (b : Block) : (stoppedOn c a b).Nodup := by
  refine List.Nodup.filter _ (List.Nodup.map_on ?_ List.nodup_range)
  intro i hi j hj hij
  have hlow := congrArg (BitVec.extractLsb' 0 7) hij
  rw [BitVec.extractLsb'_append_eq_right, BitVec.extractLsb'_append_eq_right] at hlow
  have := congrArg BitVec.toNat hlow
  rwa [toNat_ofNat_of_lt (List.mem_range.1 hi), toNat_ofNat_of_lt (List.mem_range.1 hj)] at this

/-- What the end of a repair does with a stopped context, as the policy gives. -/
def goesOn (p : BitVec 2) (a : CsAddr) (b : Block) (n : CtxNo) : Block :=
  if (b.ctx n).mchk.map (·.addr) ≠ some a then b
  else if p = 0 then (releaseLeases n b).modCtx n (fun x => { x with mchk := none })
  else if p = 1 then requestCtxReset (engOf n) (BitVec.ofNat 16 (2 ^ (ctxOf n).toNat)) b
  else requestEngineReset (engOf n) b

theorem opCsRepairEnd_eq {c : CluId} {b : Block} {r : Repair} (h : (b.clu c).repairs.find? (fun r => r.ended) = some r) :
    opCsRepairEnd c b = (stoppedOn c r.addr b).foldl (goesOn (b.clu c).policy r.addr)
      (b.setClu c { b.clu c with repairs := (b.clu c).repairs.erase r }) := by
  simp only [opCsRepairEnd, h]
  rfl

theorem Lease.unhold_owner (t : Nat) (l : Lease) : (l.unhold t).owner = l.owner := by
  unfold Lease.unhold
  split <;> rfl

/-- Under policy 0 the stopped contexts go on, and their reservations move no more. -/
theorem foldl_goesOn_released {a : CsAddr} (l : List CtxNo) (hl : l.Nodup) (b : Block) (hstop : ∀ n ∈ l, (b.ctx n).mchk.map (·.addr) = some a) :
    ∃ t, l.foldl (goesOn 0 a) b =
        { b with ctxs := t, leases := b.leases.map (fun x => if x.owner ∈ l then x.unhold (b.now - 1) else x) } ∧
      ∀ n, ({ b with ctxs := t } : Block).ctx n = if n ∈ l then { b.ctx n with mchk := none } else b.ctx n := by
  induction l generalizing b with
  | nil => exact ⟨b.ctxs, by simp, fun n => by simp⟩
  | cons m l ih =>
    obtain ⟨hm, hl⟩ := List.nodup_cons.1 hl
    have hctx : ∀ n, (goesOn 0 a b m).ctx n = if n = m then { b.ctx n with mchk := none } else b.ctx n := by
      intro n
      rw [goesOn, if_neg (not_not.2 (hstop m (by simp))), if_pos rfl, modCtx_eq, ctx_setCtx]
      split
      · rename_i h; rw [h]; rfl
      · rfl
    obtain ⟨t, ht, hn⟩ := ih hl (goesOn 0 a b m) (fun n hn => by
      rw [hctx, if_neg (fun h : n = m => hm (h ▸ hn))]
      exact hstop n (List.mem_cons_of_mem _ hn))
    have hstep : goesOn 0 a b m = (releaseLeases m b).modCtx m (fun x => { x with mchk := none }) := by
      rw [goesOn, if_neg (not_not.2 (hstop m (by simp))), if_pos rfl]
    refine ⟨t, ?_, fun n => (hn n).trans ?_⟩
    · rw [List.foldl_cons, ht, hstep]
      have hleases : (releaseLeases m b).leases.map (fun x => if x.owner ∈ l then x.unhold (b.now - 1) else x) =
          b.leases.map (fun x => if x.owner ∈ m :: l then x.unhold (b.now - 1) else x) := by
        simp only [releaseLeases, List.map_map]
        refine List.map_congr_left fun x _ => ?_
        by_cases hx : x.owner = m
        · simp [hx, Lease.unhold_owner, hm]
        · simp [hx]
      rw [← hleases]
      rfl
    · rw [hctx]
      by_cases hnm : n = m
      · simp [hnm, hm]
      · simp [hnm]

/-- Where each stopped context asks something of its engine, each engine takes what its own contexts ask. -/
theorem foldl_goesOn_engs {p : BitVec 2} {a : CsAddr} {t : Nat} (f : CtxNo → Eng → Eng)
    (hstep : ∀ b n, (b.ctx n).mchk.map (·.addr) = some a → b.now = t → goesOn p a b n = b.setEng (engOf n) (f n (b.eng (engOf n))))
    (l : List CtxNo) (b : Block) (hnow : b.now = t) (hstop : ∀ n ∈ l, (b.ctx n).mchk.map (·.addr) = some a) :
    ∃ g, l.foldl (goesOn p a) b = { b with engs := g } ∧
      ∀ e, ({ b with engs := g } : Block).eng e = (l.filter (fun n => engOf n == e)).foldl (fun v n => f n v) (b.eng e) := by
  induction l generalizing b with
  | nil => exact ⟨b.engs, rfl, fun e => rfl⟩
  | cons n l ih =>
    obtain ⟨g, hg, he⟩ := ih (b.setEng (engOf n) (f n (b.eng (engOf n)))) hnow (fun m hm => hstop m (List.mem_cons_of_mem _ hm))
    refine ⟨g, ?_, fun e => (he e).trans ?_⟩
    · rw [List.foldl_cons, hstep b n (hstop n (by simp)) hnow, hg]
      rfl
    · rw [eng_setEng, List.filter_cons]
      by_cases hen : e = engOf n
      · subst hen
        rw [if_pos rfl, if_pos (beq_self_eq_true _), List.foldl_cons]
      · rw [if_neg hen, if_neg (fun h => hen (beq_iff_eq.1 h).symm)]

/-- The contexts of a list, as a mask. -/
def maskOf : List CtxNo → BitVec 16
  | [] => 0
  | n :: l => BitVec.ofNat 16 (2 ^ (ctxOf n).toNat) ||| maskOf l

theorem getLsbD_two_pow : ∀ j k : CtxId, (BitVec.ofNat 16 (2 ^ j.toNat)).getLsbD k.toNat = (j == k) := by decide

theorem getLsbD_maskOf (l : List CtxNo) (k : CtxId) : (maskOf l).getLsbD k.toNat = l.any (fun n => ctxOf n == k) := by
  induction l with
  | nil => simp [maskOf]
  | cons n l ih =>
    rw [maskOf, BitVec.getLsbD_or, ih, getLsbD_two_pow, List.any_cons]

/-- An engine of which resets of contexts are asked for. -/
def askReset (t : Nat) (n : CtxNo) (g : Eng) : Eng := { g with
  ctxResetAt := some (t + 1, BitVec.ofNat 16 (2 ^ (ctxOf n).toNat) ||| (g.ctxResetAt.map (fun x => x.2)).getD 0) }

theorem foldl_askReset (t : Nat) (l : List CtxNo) (hl : l ≠ []) (g : Eng) : l.foldl (fun v n => askReset t n v) g =
    { g with ctxResetAt := some (t + 1, maskOf l ||| (g.ctxResetAt.map (fun x => x.2)).getD 0) } := by
  induction l generalizing g with
  | nil => exact absurd rfl hl
  | cons n l ih =>
    rw [List.foldl_cons]
    cases l with
    | nil => simp [maskOf, askReset]
    | cons m l =>
      have hmask : ∀ x, maskOf (m :: l) ||| (BitVec.ofNat 16 (2 ^ (ctxOf n).toNat) ||| x) = maskOf (n :: m :: l) ||| x := by
        intro x
        rw [show maskOf (n :: m :: l) = _ ||| maskOf (m :: l) from rfl]
        ac_rfl
      rw [ih nofun, ← hmask]
      rfl

theorem foldl_resetAt (t : Option Nat) (l : List CtxNo) (hl : l ≠ []) (g : Eng) :
    l.foldl (fun v _ => { v with resetAt := t }) g = { g with resetAt := t } := by
  induction l generalizing g with
  | nil => exact absurd rfl hl
  | cons n l ih =>
    rw [List.foldl_cons]
    cases l with
    | nil => rfl
    | cons m l => rw [ih nofun]

/-- A word whose bits are set one after another. -/
theorem getLsbD_foldl_putBit {w : Nat} (p : Nat → Bool) {k : Nat} (hk : k < w) :
    ((List.range w).foldl (fun (a : BitVec w) k => putBit a k (p k)) 0).getLsbD k = p k := by
  have hput : ∀ m, m ≤ w → ((List.range m).foldl (fun (a : BitVec w) k => putBit a k (p k)) 0).getLsbD k = (decide (k < m) && p k) := by
    intro m hm
    induction m with
    | zero => simp
    | succ m ih =>
      rw [List.range_succ, List.foldl_append, List.foldl_cons, List.foldl_nil, getLsbD_putBit _ _ _ _ hk, ih (by omega)]
      grind
  rw [hput w le_rfl]
  simp [hk]

/-- The contexts of an engine whose numbers satisfy `p`, as a mask. -/
def maskWhere (p : Nat → Bool) : BitVec 16 := (List.range 16).foldl (fun a k => putBit a k (p k)) 0

theorem getLsbD_maskWhere (p : Nat → Bool) (k : Nat) (hk : k < 16) : (maskWhere p).getLsbD k = p k := getLsbD_foldl_putBit p hk

/-- The contexts of an engine that are stopped on the word at `a`, as the policy asks for their resets. -/
def stoppedMask (c : CluId) (a : CsAddr) (b : Block) (e : EngId) : BitVec 16 :=
  if cluOf e = c then maskWhere (fun k => (b.ctx (ctxNo e (BitVec.ofNat 4 k))).mchk.map (·.addr) == some a) else 0

theorem ctxNo_parts (n : CtxNo) : ctxNo (engOf n) (ctxOf n) = n := append_parts (v := 9) (w := 4) n

section
variable (c : CluId) (a : CsAddr) (b : Block) (e : EngId)

/-- The stopped contexts of one engine. -/
def stoppedIn : List CtxNo := (stoppedOn c a b).filter (fun n => engOf n == e)

theorem maskOf_stoppedIn : maskOf (stoppedIn c a b e) = stoppedMask c a b e := by
  refine BitVec.eq_of_getLsbD_eq fun k hk => ?_
  obtain ⟨j, rfl⟩ : ∃ j : CtxId, k = j.toNat := ⟨BitVec.ofNat 4 k, (toNat_ofNat_of_lt hk).symm⟩
  have hmem : (stoppedIn c a b e).any (fun n => ctxOf n == j) = true ↔
      cluOf e = c ∧ (b.ctx (ctxNo e j)).mchk.map (·.addr) = some a := by
    simp only [stoppedIn, List.any_eq_true, List.mem_filter, mem_stoppedOn, beq_iff_eq]
    constructor
    · rintro ⟨n, ⟨⟨hc, ha⟩, rfl⟩, rfl⟩
      exact ⟨hc, (ctxNo_parts n).symm ▸ ha⟩
    · rintro ⟨hc, ha⟩
      exact ⟨ctxNo e j, ⟨⟨(engOf_ctxNo e j).symm ▸ hc, ha⟩, engOf_ctxNo e j⟩, ctxOf_ctxNo e j⟩
  rw [getLsbD_maskOf, Bool.eq_iff_iff, hmem, stoppedMask]
  by_cases hc : cluOf e = c
  · rw [if_pos hc, getLsbD_maskWhere _ _ hk, BitVec.ofNat_toNat, BitVec.setWidth_eq, beq_iff_eq]
    simp [hc]
  · rw [if_neg hc]
    simp [hc]

theorem stoppedIn_nil_iff : stoppedIn c a b e = [] ↔ stoppedMask c a b e = 0 := by
  rw [← maskOf_stoppedIn]
  cases h : stoppedIn c a b e with
  | nil => simp [maskOf]
  | cons n l =>
    have hbit : (maskOf (n :: l)).getLsbD (ctxOf n).toNat = true := by rw [getLsbD_maskOf]; simp
    refine iff_of_false nofun fun h0 => ?_
    rw [h0] at hbit
    simp at hbit
end

section
variable {p : BitVec 2} {a : CsAddr} {t : Nat} {b : Block} {n : CtxNo} (h : (b.ctx n).mchk.map (·.addr) = some a) (hnow : b.now = t)
include h hnow

theorem goesOn_asks : goesOn 1 a b n = b.setEng (engOf n) (askReset t n (b.eng (engOf n))) := by
  rw [goesOn, if_neg (not_not.2 h), if_neg (by decide), if_pos rfl, requestCtxReset, hnow]
  cases hr : (b.eng (engOf n)).ctxResetAt <;> simp [askReset, hr]

theorem goesOn_resets (hp : p = 2 ∨ p = 3) : goesOn p a b n = b.setEng (engOf n) { b.eng (engOf n) with resetAt := some (t + 1) } := by
  have hne : p ≠ 0 ∧ p ≠ 1 := by rcases hp with rfl | rfl <;> decide
  rw [goesOn, if_neg (not_not.2 h), if_neg hne.1, if_neg hne.2, requestEngineReset, hnow]
  rfl
end

/-- Settles O29: each row by what its operation does to the store, the table, and the contexts and engines it stops. -/
theorem controlStoreChecksRepairsAndPatches : Obligations.ControlStoreChecksRepairsAndPatches := by
  unfold Obligations.ControlStoreChecksRepairsAndPatches
  refine ⟨?mchk, ?repair, ?commit, ?golden, ?goldenFor, ?ended, ?activate, ?raddr, ?readDone, ?inval, ?write⟩
  case mchk =>
    intro s e k flip stored b n c upc fa bad hcan hupc hbad lbuf l info m0 m1 a shown held m v m2
    have hdoes : Does (.machineCheck e k flip stored) s (opMachineCheck n flip stored b) := does_of_exec rfl
    have he : engOf n = e := engOf_ctxNo e k
    have hk : ctxOf n = k := ctxOf_ctxNo e k
    have hup : upsetIf stored e upc flip b = m1 := by
      show _ = if (b.eng e).inRange upc = true ∧ inLoop (b.eng e) upc = false then
        Block.modEng (if stored = false then b else if inLoop (b.eng e) upc then _ else _) e _ else if stored = false then b else if inLoop (b.eng e) upc then _ else _
      unfold upsetIf upset
      dsimp only
      cases stored <;> cases hin : inLoop (b.eng e) upc <;> cases (b.eng e).inRange upc <;>  rfl
    have hinfo : info = mchkOf fa upc bad lbuf (b.ctx n) := (mchkOf_eq ..).symm
    have hlvl : (held.ctx n).lvl = lvlOf b n := by
      obtain ⟨t, g, h⟩ := upsetIf_frame stored e upc flip b
      exact (mchkHeld_lvl n info m1).trans (by rw [← hup, h]; rfl)
    have heng : held.eng e = a.eng e := eng_holdLeases_setCtx ..
    have hm : mchkTaken n info m1 = m := by
      show bankMchk n info held = m
      dsimp only [m, l]
      cases hl : lvlOf b n with
      | prog => exact bankMchk_prog (hlvl.trans hl)
      | bank1 => rw [bankMchk_bank1 (hlvl.trans hl), he, heng]
      | bank2 => rw [bankMchk_bank2 (hlvl.trans hl), he, heng]
    rw [opMachineCheck_eq stored hcan hupc hbad] at hdoes
    rw [hup, ← hinfo, hm] at hdoes
    exact hdoes
  case repair =>
    intro s c readback bad0 bad1 r b v a info again fails hr hruns hrep hout hwf golden
    have hdoes : Does (.csRepair c readback bad0 bad1) s (opCsRepair c readback bad0 bad1 b) := does_of_exec rfl
    have hdue : RepairDue c b r := ⟨hr, hruns, hrep, hout⟩
    have hagain : lately v a b.now = again := any_find?_of_rising a.toNat _ ((Map.wf_iff _ _).1 hwf).1
    refine ⟨fun hnone => ?_, fun g hg => ⟨fun hbad hword => ?_, fun hwrong => ⟨fun hrb hnot => ?_, fun hno hstate => ?_,
      fun hno hstate => ⟨fun i p hi hp => ?_, fun hroom => ?_⟩⟩⟩⟩
    · rwa [opCsRepair_due hdue, show goldenFor b (b.clu c) _ bad0 bad1 = none from hnone] at hdoes
    · rwa [opCsRepair_right hdue hg ⟨hbad, hword⟩] at hdoes
    all_goals have hw : ¬ ((csWord b c a).bad = 0 ∧ csWord b c a = g) := by rintro ⟨h1, h2⟩; exact hwrong.elim (· h1) (· h2)
    · rwa [opCsRepair_writes hdue hg hw hrb (hagain.trans hnot), wroteBack_eq] at hdoes
    all_goals have hno' : readback = false ∨ lately v a b.now = true := hno.imp_right hagain.trans
    · rwa [opCsRepair_redirects hdue hg hw hno', if_pos hstate] at hdoes
    · rwa [opCsRepair_redirected hdue hg hw hno' hstate hi hp, redirected, mkPm_repair] at hdoes
    · rwa [opCsRepair_noRoom hdue hg hw hno' hstate hroom] at hdoes
  case commit =>
    intro b c t hgone
    rw [commitGen_of_none_gone t true hgone]
    rfl
  case golden => exact fun b body a bad0 bad1 => goldenWord_eq b body a bad0 bad1
  case goldenFor => exact fun b v a bad0 bad1 => ⟨goldenFor_unstaged bad0 bad1, fun x l hl hx => goldenFor_staged bad0 bad1 hl hx⟩
  case ended =>
    intro s c r b v m on hr
    have hdoes : Does (.csRepairEnd c) s (opCsRepairEnd c b) := does_of_exec rfl
    have hstop : ∀ n ∈ stoppedOn c r.addr b, (m.ctx n).mchk.map (·.addr) = some r.addr := fun n hn => (mem_stoppedOn.1 hn).2
    have hon : ∀ e, on e = 0 ↔ stoppedIn c r.addr b e = [] := fun e => (stoppedIn_nil_iff c r.addr b e).symm
    rw [opCsRepairEnd_eq hr] at hdoes
    refine ⟨fun hp => ?_, fun hp => ?_, fun hp => ?_⟩
    · rw [show (b.clu c).policy = 0 from hp] at hdoes
      obtain ⟨t, ht, hctx⟩ := foldl_goesOn_released _ (nodup_stoppedOn c r.addr b) m hstop
      refine fun hturn => ⟨_, hdoes hturn, ?_, fun n => ?_⟩
      · rw [ht]
        simp only [mem_stoppedOn]
        rfl
      · rw [ht]
        refine (hctx n).trans (if_congr mem_stoppedOn rfl rfl)
    · rw [show (b.clu c).policy = 1 from hp] at hdoes
      obtain ⟨g, hg, heng⟩ := foldl_goesOn_engs (askReset b.now) (fun x n hx hnow => goesOn_asks hx hnow) _ m rfl hstop
      refine fun hturn => ⟨_, hdoes hturn, by rw [hg], fun e => ?_⟩
      rw [hg]
      refine (heng e).trans ?_
      by_cases hz : on e = 0
      · rw [if_pos hz, show List.filter _ _ = [] from (hon e).1 hz]
        rfl
      · rw [if_neg hz]
        refine (foldl_askReset b.now (stoppedIn c r.addr b e) (mt (hon e).2 hz) (b.eng e)).trans ?_
        rw [maskOf_stoppedIn]
        rfl
    · have hstep : ∀ (x : Block) (n : CtxNo), (x.ctx n).mchk.map (·.addr) = some r.addr → x.now = b.now →
          goesOn (b.clu c).policy r.addr x n = x.setEng (engOf n) { x.eng (engOf n) with resetAt := some (b.now + 1) } :=
        fun x n hx hnow => goesOn_resets hx hnow hp
      obtain ⟨g, hg, heng⟩ := foldl_goesOn_engs (fun _ g => { g with resetAt := some (b.now + 1) }) hstep _ m rfl hstop
      refine fun hturn => ⟨_, hdoes hturn, by rw [hg], fun e => ?_⟩
      rw [hg]
      refine (heng e).trans ?_
      by_cases hz : on e = 0
      · rw [if_pos hz, show List.filter _ _ = [] from (hon e).1 hz]
        rfl
      · rw [if_neg hz]
        exact foldl_resetAt (some (b.now + 1)) (stoppedIn c r.addr b e) (mt (hon e).2 hz) (b.eng e)
  case activate =>
    intro s e b c i v m hrun hsec hwait
    have hdoes : Does (.patchActivate e) s (opPatchActivate e b) := does_of_exec rfl
    rw [opPatchActivate_eq hrun hsec hwait] at hdoes
    refine ⟨fun hleft => ?_, fun hdone hrep => ?_, fun hdone hrep => ?_⟩
    · rwa [if_neg hleft] at hdoes
    · rwa [if_pos hdone, generationDone_repair ((activated_pmRepair e b).trans hrep)] at hdoes
    · rwa [if_pos hdone, generationDone_patch ((activated_pmRepair e b).trans hrep), activated_pmLate, activated_patch] at hdoes
  case raddr =>
    intro c a
    exact portWrite_of (fun o s => rfl) (by simp) (fun o b => nativeWrite_raddr o c a b)
  case readDone =>
    intro s c b hbusy
    have hdoes : Does (.csReadDone c) s (opCsReadDone c b) := does_of_exec rfl
    rwa [opCsReadDone, if_pos hbusy] at hdoes
  case inval => exact fun e => portWrite_of (fun o s => rfl) (by simp) (fun o b => rfl)
  case write =>
    intro b c a w t
    obtain ⟨g, hg, he⟩ := csWrite_spec c a w b
    refine ⟨by rw [show t = _ from hg], fun e => ?_⟩
    rw [show t = _ from hg]
    refine (he e).trans (if_congr ?_ rfl rfl)
    simp [Eng.inRange]

end Sys2Proof.Machine

/-! The injected words and the restricted registers of the contexts, banks and engines (R30, R76, R160, R275, R276, R418, R471,
R482). -/

namespace Sys2Proof.Machine
open Sys2Proof

/-! ### No effect of a word moves the clock -/

section
variable (n : CtxNo) (s : Snap) (b : Block)

@[simp] theorem detect_now (src code : Nat) (info : BitVec 24) : (detect src code info b).now = b.now := rfl
@[simp] theorem setFile_now (l : Lvl) (v : Ctx) : (b.setFile n l v).now = b.now := rfl
@[simp] theorem modFile_now (l : Lvl) (f : Ctx → Ctx) : (b.modFile n l f).now = b.now := rfl
@[simp] theorem bump_now : b.bump.now = b.now := rfl
@[simp] theorem modLanes_now (c : CluId) (f : Lanes → Lanes) : (b.modLanes c f).now = b.now := rfl
@[simp] theorem modPg_now (c : CluId) (g : BitVec 4) (f : PinGroup → PinGroup) : (b.modPg c g f).now = b.now := rfl
@[simp] theorem modTimer_now (c : CluId) (x : Nat) (f : Timer → Timer) : (b.modTimer c x f).now = b.now := rfl
@[simp] theorem takeTag_now (k : PendKind) : (takeTag n s k b).now = b.now := rfl
@[simp] theorem goto_now (a : CsAddr) : (goto n a b).now = b.now := rfl
@[simp] theorem askHalt_now (cause : BitVec 3) (cmp : BitVec 5) : (askHalt n cause cmp b).now = b.now := rfl
@[simp] theorem askEngineHalt_now (e : EngId) : (askEngineHalt e b).now = b.now := rfl

@[simp] theorem pendExc_now (x : Exc) : (pendExc n x b).now = b.now := by
  unfold pendExc
  dsimp only
  split <;> rfl

@[simp] theorem trap_now (code : BitVec 6) (info : Word) : (trap n s code info b).now = b.now := pendExc_now ..
@[simp] theorem preciseFault_now (code sub : BitVec 6) (info : Word) (long : Bool) : (preciseFault n s code sub info long b).now = b.now :=
  pendExc_now ..

theorem qfault_now (c : CluId) (lq : BitVec 4) : (qfault c lq b).now = b.now := rfl

theorem laneAct_now : (laneAct n s b).now = b.now := by
  unfold laneAct
  dsimp only
  split
  · rw [pushQ]; split <;> rfl
  · rw [popQ]; split <;> rfl
  · split <;> rfl
  all_goals rfl

theorem foldl_now {α : Type} (f : Block → α → Block) (hf : ∀ b x, (f b x).now = b.now) (l : List α) (b : Block) : (l.foldl f b).now = b.now := by
  induction l generalizing b with
  | nil => rfl
  | cons x l ih => rw [List.foldl_cons, ih, hf]

theorem releaseGroup_now (c : CluId) (g : BitVec 4) (d : Bool) : (releaseGroup c g d b).now = b.now := rfl

@[simp] theorem releaseOwn_now (p : Lvl → Bool) : (releaseOwn p n b).now = b.now := by
  unfold releaseOwn
  rw [modLanes_now, foldl_now _ (fun x g => releaseGroup_now x _ g true)]

theorem resetProg_now : (resetProg n s b).now = b.now := by
  unfold resetProg
  dsimp only
  split
  · rw [modFile_now, releaseOwn_now]
  · rfl

theorem settle_now : (settle n b).now = b.now := by
  unfold settle
  split
  · split
    · unfold waitDone
      dsimp only
      split <;> rfl
    · rfl
  · rfl

theorem settleClu_now (c : CluId) : (settleClu c b).now = b.now := by
  unfold settleClu
  refine times_induction (fun _ (x : Block) => x.now = b.now) rfl fun i x hi hx => ?_
  rw [settle_now, hx]

theorem wInternal_now : (wInternal n s b).now = b.now := by
  unfold wInternal
  dsimp only
  split <;> split <;> split <;> split <;> simp

theorem wordCmps_of_inj (h : s.inj.isSome = true) : wordCmps n s b = b := by
  unfold wordCmps dataCmps
  simp [h]

theorem wExternal_now (h : s.inj.isSome = true) : (wExternal n s b).now = b.now := by
  unfold wExternal
  dsimp only
  rw [wordCmps_of_inj _ _ _ h, apply_ite Block.now, resetProg_now, ite_self, apply_ite Block.now, settleClu_now, ite_self,
    apply_ite Block.now, show ∀ c x v t, (setCmp c x v t).now = t.now from fun _ _ _ _ => rfl, ite_self]
  have hreq : ∀ t : Block, t.now = b.now → (laneAct n s t).now = b.now := fun t ht => (laneAct_now n s t).trans ht
  split
  · rw [modFile_now]
    refine hreq _ ?_
    split
    · split <;> rfl
    · rfl
  · refine hreq _ ?_
    split
    · split <;> rfl
    · rfl

theorem wStage_now (h : s.inj.isSome = true) : (wStage n s b).now = b.now := by
  unfold wStage
  dsimp only
  split
  · rw [modFile_now, wExternal_now _ _ _ h, wInternal_now]
  · rw [wExternal_now _ _ _ h, wInternal_now]

theorem seqHalt_now : (seqHalt n s b).now = b.now := by
  unfold seqHalt
  dsimp only
  split
  · split <;> rfl
  · split
    · rw [pendExc_now, goto_now]
    · rfl

theorem injSeq_now : (injSeq n s b).now = b.now := by
  unfold injSeq injJump
  dsimp only
  split
  · simp
  · split
    · rw [modCtx_eq, setCtx_now, seqHalt_now, abandon_now]
    · rfl
end

/-! ### The slot of injected words (R275) -/

theorem goWord_bits : ∀ (k : CtxId) (sys : Bool), let d := k.setWidth 32 ||| bit 4 sys ||| (0x20 : Reg32)
    d.extractLsb' 0 4 = k ∧ d.getLsbD 4 = sys ∧ d.getLsbD 5 = true ∧ d.getLsbD 6 = false ∧ d.getLsbD 8 = false ∧ d.getLsbD 9 = false := by
  decide

theorem cancelWord_bits : ∀ k : CtxId, let d := k.setWidth 32 ||| (0x40 : Reg32)
    d.extractLsb' 0 4 = k ∧ d.getLsbD 4 = false ∧ d.getLsbD 5 = false ∧ d.getLsbD 6 = true ∧ d.getLsbD 8 = false ∧ d.getLsbD 9 = false := by
  decide

theorem goWord_eq : ∀ (k : CtxId) (sys : Bool), fld 0 k ||| bit 4 sys ||| bit 5 true = k.setWidth 32 ||| bit 4 sys ||| (0x20 : Reg32) := by decide
theorem cancelWord_eq : ∀ k : CtxId, fld 0 k ||| bit 6 true = k.setWidth 32 ||| (0x40 : Reg32) := by decide

theorem mayInject_iff (o : Origin) : mayInject o = true ↔ ¬ (o ≠ .synCore ∧ o ≠ .dap) := by
  cases o <;> simp [mayInject]

theorem nativeWrite_injCtl (o : Origin) (e : EngId) (d : Reg32) (b : Block) :
    nativeWrite o (.eng e 0x3C) d b = if o ≠ .synCore ∧ o ≠ .dap then b else writeInjCtl o e d b := by
  have h : nativeWrite o (.eng e 0x3C) d b = if mayInject o then writeInjCtl o e d b else b := rfl
  rw [h]
  simp only [mayInject_iff, ite_not]

/-- The engine with a context named for the injection. -/
def aimed (k : CtxId) (sys : Bool) (g : Eng) : Eng := { g with injCtx := k, injSys := sys }

theorem writeInjCtl_go (o : Origin) (e : EngId) (k : CtxId) (sys : Bool) (b : Block) :
    writeInjCtl o e (k.setWidth 32 ||| bit 4 sys ||| (0x20 : Reg32)) b = injectGo o e k sys (b.modEng e (aimed k sys)) := by
  obtain ⟨hk, hsys, h5, h6, h8, h9⟩ := goWord_bits k sys
  unfold writeInjCtl
  simp only [hk, hsys, h5, h6, h8, h9, if_true, Bool.false_eq_true, if_false]
  rfl

theorem writeInjCtl_cancel (o : Origin) (e : EngId) (k : CtxId) (b : Block) :
    writeInjCtl o e (k.setWidth 32 ||| (0x40 : Reg32)) b = injectCancel e k (b.modEng e (aimed k false)) := by
  obtain ⟨hk, hsys, h5, h6, h8, h9⟩ := cancelWord_bits k
  unfold writeInjCtl
  simp only [hk, hsys, h5, h6, h8, h9, if_true, Bool.false_eq_true, if_false]
  rfl

/-! ### The context block's restricted registers (R76) -/

theorem ctxRegOff_range (r : CtxReg) : 0x04 ≤ ctxRegOff r ∧ ctxRegOff r < 0x18 := by cases r <;> decide

theorem nativeWrite_ctxReg (o : Origin) (e : EngId) (k : CtxId) (r : CtxReg) (d : Reg32) (b : Block) :
    nativeWrite o (.eng e (0x100 + 0x30 * k.toNat + ctxRegOff r)) d b =
      if ctxOpen (b.ctx (ctxNo e k)) then writeCtxReg (ctxNo e k) (ctxRegOff r) d b else setWerr e b := by
  obtain ⟨hlo, hhi⟩ := ctxRegOff_range r
  have hk : BitVec.ofNat 4 ((0x100 + 0x30 * k.toNat + ctxRegOff r - 0x100) / 0x30) = k := by
    rw [show (0x100 + 0x30 * k.toNat + ctxRegOff r - 0x100) / 0x30 = k.toNat by omega, BitVec.ofNat_toNat, BitVec.setWidth_eq]
  have hr : (0x100 + 0x30 * k.toNat + ctxRegOff r - 0x100) % 0x30 = ctxRegOff r := by omega
  have heng : nativeWrite o (.eng e (0x100 + 0x30 * k.toNat + ctxRegOff r)) d b =
    engWrite o e (0x100 + 0x30 * k.toNat + ctxRegOff r) d b := rfl
  unfold engWrite at heng
  rw [heng, if_neg (by omega), if_neg (by omega), if_neg (by omega), if_neg (by omega), if_neg (by omega), if_neg (by omega),
    if_neg (by omega), hk, hr]
  unfold ctxWrite
  rw [if_pos ⟨hlo, hhi⟩, engOf_ctxNo]

theorem ctxOpen_iff (c : Ctx) : ctxOpen c = true ↔ ctxState c = 0 ∨ ctxState c = 6 := by
  rw [ctxOpen, Bool.or_eq_true, beq_iff_eq, beq_iff_eq]

theorem estatMay_iff (b : Block) (o : Origin) (e : EngId) (x : Bank) : estatMay b o e x = true ↔
    x.held = true ∧ (o = .ctx e x.owner ∨ ((o = .hreg ∨ o = .dap) ∧ ctxState (b.ctx (ctxNo e x.owner)) = 6)) := by
  unfold estatMay
  generalize ctxState (b.ctx (ctxNo e x.owner)) = st
  cases o <;> simp

theorem writeEngReset_mask (e : EngId) (mask : BitVec 16) (b : Block) :
    writeEngReset e (mask.setWidth 32) b = if mask = 0 then b else requestCtxReset e mask b := by
  have hm : (mask.setWidth 32).extractLsb' 0 16 = mask := by
    ext i hi
    simp only [BitVec.getElem_extractLsb', BitVec.getLsbD_setWidth, Nat.zero_add, BitVec.getLsbD_eq_getElem hi, Bool.and_eq_right_iff_imp,
      decide_eq_true_eq]
    omega
  have h16 : (mask.setWidth 32).getLsbD 16 = false := by simp
  unfold writeEngReset
  rw [hm, h16]
  rfl

theorem requestCtxReset_eq (e : EngId) (mask : BitVec 16) (b : Block) : requestCtxReset e mask b = b.modEng e (fun g => { g with
    ctxResetAt := some (b.now + 1, mask ||| ((g.ctxResetAt.map (fun x => x.2)).getD 0)) }) := by
  unfold requestCtxReset
  simp only [modEng_eq]
  cases (b.eng e).ctxResetAt <;> rfl

/-! ### A GO that comes late (R482) -/

theorem shut_of_gone {b : Block} {e : EngId} {r : Nat} (o : Origin) (hr : r < 0x100) (h : b.isGone (partEng e) = true) :
    shut b o (.eng e r) = true := by
  have hpart : winPart b o (.eng e r) = some (partEng e) := by
    simp only [winPart]
    rw [if_neg (by omega)]
  unfold shut
  simp [hpart, h, ownPath]

theorem portAccess_lateGo {b : Block} {e : EngId} {d : Reg32} (hd : d.getLsbD 5 = true) (hon : b.mode ≠ .off) (hbus : b.dbg.bus = none)
    (hfuse : b.dbg.fuseEn = true) (hheld : ∀ x ∈ b.held, x.org ≠ .dap) (hgone : b.isGone (partEng e) = true)
    (hsec : b.fenced (secOf e) = false) : portAccess .dap (.eng e 0x3C) (.write d) b =
      answerPort .dap 0 false (b.modEng e (fun g => { g with injErr := g.injErr.set b.now })) := by
  have hshut : shut b .dap (.eng e 0x3C) = true := shut_of_gone .dap (by omega) hgone
  have hlate : lateGo (.eng e 0x3C) (.write d) b = b.modEng e (fun g => { g with injErr := g.injErr.set b.now }) := by
    simp only [lateGo, hd, if_true, hgone, hsec, Bool.not_false, and_self]
  have hland : land .dap (!b.dbg.side) (.eng e 0x3C) (.write d) b =
      (b.modEng e (fun g => { g with injErr := g.injErr.set b.now }), some 0) := by
    unfold land
    simp only [reached_, Win.cluster, hshut, Bool.true_or, if_true, nativeAccess, hlate, true_or]
  have hfirst : portAccess .dap (.eng e 0x3C) (.write d) b = firstAccess { org := .dap, bad := false, win := .eng e 0x3C, acc := .write d } b :=
    portRequest_first hon hheld (fun _ => hbus)
  rw [hfirst]
  simp only [firstAccess, dapAccess, hfuse, landAnswer, hland]
  rfl

/-! ### An injected JUMP (R276) -/

theorem foldl_releaseGroup_setCtx (c : CluId) (l : List (BitVec 4)) (b : Block) (n : CtxNo) (x : Ctx) :
    l.foldl (fun b g => releaseGroup c g true b) (b.setCtx n x) = (l.foldl (fun b g => releaseGroup c g true b) b).setCtx n x := by
  induction l generalizing b with
  | nil => rfl
  | cons g l ih => exact ih (releaseGroup c g true b)

theorem releaseOwn_setCtx (p : Lvl → Bool) (n : CtxNo) (b : Block) (m : CtxNo) (x : Ctx) :
    releaseOwn p n (b.setCtx m x) = (releaseOwn p n b).setCtx m x := by
  unfold releaseOwn
  rw [show ownGroups p (b.setCtx m x) n = ownGroups p b n from rfl, foldl_releaseGroup_setCtx]
  rfl

theorem foldl_releaseGroup_frame (c : CluId) (l : List (BitVec 4)) (b : Block) :
    ∃ v, l.foldl (fun b g => releaseGroup c g true b) b = { b with clus := v } := by
  induction l generalizing b with
  | nil => exact ⟨b.clus, rfl⟩
  | cons g l ih =>
    obtain ⟨v, hv⟩ := ih (releaseGroup c g true b)
    exact ⟨v, hv⟩

theorem releaseOwn_frame (p : Lvl → Bool) (n : CtxNo) (b : Block) : ∃ v, releaseOwn p n b = { b with clus := v } := by
  obtain ⟨v, hv⟩ := foldl_releaseGroup_frame (cluOf (engOf n)) (ownGroups p b n) b
  unfold releaseOwn
  rw [hv]
  exact ⟨_, rfl⟩

theorem idled_of_idle {c : Ctx} (h : c.act = .idle) : idled c = c := by
  unfold idled
  rw [h]
  exact congrArg (fun a => { c with act := a }) h.symm

theorem abandon_of_idle {n : CtxNo} {b : Block} (h : (b.ctx n).act = .idle) : abandon n b = b.setCtx n (b.ctx n) := by
  have hw : withdraw n b = b := by
    unfold withdraw
    rw [h]
  unfold abandon
  simp only [hw, h, modCtx_eq]
  refine congrArg (b.setCtx n) (Eq.trans ?_ (idled_of_idle h))
  rw [idled, h]

theorem onlyParts_injJump {b : Block} {n : CtxNo} {r : Snap} (hidle : (b.ctx n).act = .idle) :
    let c := { setProgress r.lvl (b.file n r.lvl) 0 with upc := r.w.target }
    OnlyParts (releaseOwn (fun l => l == r.lvl) n b) (injJump n r b) n
      { unviewCtx (b.ctx n) c r.lvl with halt := { (b.ctx n).halt with skipCmp := false } } (unviewEng (b.eng (engOf n)) c r.lvl) := by
  intro c
  obtain ⟨v, hv⟩ := releaseOwn_frame (fun l => l == r.lvl) n b
  unfold injJump
  rw [abandon_of_idle hidle, releaseOwn_setCtx, hv]
  have hset : ((({ b with clus := v }.setCtx n (b.ctx n)).modFile n r.lvl (fun c => { setProgress r.lvl c 0 with upc := r.w.target })).modCtx n
      (fun c => { c with halt := { c.halt with skipCmp := false } })) =
      ({ b with clus := v }.setEng (engOf n) (unviewEng (b.eng (engOf n)) c r.lvl)).setCtx n
        { unviewCtx (b.ctx n) c r.lvl with halt := { (b.ctx n).halt with skipCmp := false } } := by
    have hfile : ({ b with clus := v }.setCtx n (b.ctx n)).file n r.lvl = b.file n r.lvl := by
      rw [Block.file, ctx_setCtx_same]
      rfl
    have hhalt : (unviewCtx (b.ctx n) c r.lvl).halt = (b.ctx n).halt := by
      simp only [c, setProgress, Block.file]
      cases r.lvl <;> rfl
    simp only [Block.modFile, Block.setFile, modEng_eq, modCtx_eq, setCtx_setEng, setCtx_setCtx, ctx_setCtx_same, eng_setCtx, hfile]
    rw [hhalt]
    rfl
  rw [hset]
  exact ⟨rfl, fun m => ctx_setCtx _ n _ m, fun x => eng_setEng _ (engOf n) _ x⟩

/-! ### An injected word (R276, R471) -/

/-- The word is taken from its slot and counts as an issue; a long instruction stops at its boundary. -/
def injTaken (n : CtxNo) (b : Block) : Block :=
  (leaveLong n (b.modCtx n (fun c => { c with inj := none }))).modEng (engOf n) (fun g => { g with issue := g.issue.count b.now 1 })

/-- The injection is done. -/
def injOver (n : CtxNo) (b : Block) : Block := b.modEng (engOf n) (fun g => { g with injDone := g.injDone.set b.now })

/-- The injected word has met an exception. -/
def injErred (n : CtxNo) (b : Block) : Block := b.modEng (engOf n) (fun g => { g with injErr := g.injErr.set b.now })

theorem leaveLong_now (n : CtxNo) (b : Block) : (leaveLong n b).now = b.now := by
  unfold leaveLong
  split
  · exact abandon_now n b
  · rfl

theorem injTaken_now (n : CtxNo) (b : Block) : (injTaken n b).now = b.now := leaveLong_now n _

theorem halt_leaveLong (n : CtxNo) (b : Block) : ((leaveLong n b).ctx n).halt = (b.ctx n).halt := by
  unfold leaveLong
  split
  · rw [ctx_abandon]
    rfl
  · rfl

theorem halt_injTaken (n : CtxNo) (b : Block) : ((injTaken n b).ctx n).halt = (b.ctx n).halt := by
  rw [injTaken, modEng_eq, ctx_setEng, halt_leaveLong, modCtx_eq, ctx_setCtx_same]

section
variable {b : Block} {n : CtxNo} {i : Inj}

/-- The injected word, as it reads its operands. -/
def injSnap (b : Block) (n : CtxNo) (i : Inj) : Snap := snapOf b n i.w (some (injSlot i.src)) i.sys

/-- Its effects and, where they raise no exception, its sequencer operation. -/
def injActed (b : Block) (n : CtxNo) (s : Snap) : Block :=
  if (newExc (b.ctx n) ((injEffects n s b).ctx n)).isSome then injEffects n s b else injSeq n s (injEffects n s b)

theorem injActed_now (s : Snap) (h : s.inj.isSome = true) : (injActed b n s).now = b.now := by
  have heff : (injEffects n s b).now = b.now := wStage_now n s b h
  unfold injActed
  split
  · exact heff
  · rw [injSeq_now, heff]

/-- What an injected word that may run does once it is taken. -/
def injRun (n : CtxNo) (s : Snap) (m : Block) : Block :=
  (wordFault m n s).elim
    ((newExc (m.ctx n) ((injActed m n s).ctx n)).elim (settle n (injOver n (injActed m n s)))
      (fun x => if (m.ctx n).halt.halted then injHeld n x m else injOver n (injErred n (injActed m n s))))
    (fun f => if (m.ctx n).halt.halted then
        injHeld n { code := f.1, kind := 0, sub := f.2.1, fupc := s.upc, einfo := f.2.2, lvl := s.lvl } m
      else injErred n (preciseFault n s f.1 f.2.1 f.2.2 false (abandon n m)))

theorem opInjectedWord_eq (hi : (b.ctx n).inj = some i) (hr : injReady b n i.w = true) : opInjectedWord n b =
    if cond (injTaken n b) n ((injTaken n b).file n (injSnap b n i).lvl) i.w = false then injOver n (injTaken n b)
    else injRun n (injSnap b n i) (injTaken n b) := by
  have hnow : (leaveLong n (b.modCtx n (fun c => { c with inj := none }))).now = b.now := leaveLong_now n _
  have hfold : (leaveLong n (b.modCtx n (fun c => { c with inj := none }))).modEng (engOf n)
    (fun g => { g with issue := g.issue.count b.now 1 }) = injTaken n b := rfl
  have hinj : (injSnap b n i).inj.isSome = true := rfl
  unfold opInjectedWord
  simp only [hi, hr, if_true, hnow, hfold]
  refine if_congr (by rw [Bool.not_eq_true']; rfl) rfl ?_
  unfold injRun
  rw [show snapOf b n i.w (some (injSlot i.src)) i.sys = injSnap b n i from rfl]
  have hpre : ∀ c u x, injErred n (preciseFault n (injSnap b n i) c u x false (abandon n (injTaken n b))) =
      (preciseFault n (injSnap b n i) c u x false (abandon n (injTaken n b))).modEng (engOf n)
        (fun g => { g with injErr := g.injErr.set (injTaken n b).now }) := by
    intro c u x
    rw [injErred, preciseFault_now, abandon_now]
  have hact : injErred n (injActed (injTaken n b) n (injSnap b n i)) = (injActed (injTaken n b) n (injSnap b n i)).modEng (engOf n)
        (fun g => { g with injErr := g.injErr.set (injTaken n b).now }) := by
    rw [injErred, injActed_now _ hinj]
  have hacted : (if (newExc ((injTaken n b).ctx n) ((injEffects n (injSnap b n i) (injTaken n b)).ctx n)).isSome
      then injEffects n (injSnap b n i) (injTaken n b)
      else injSeq n (injSnap b n i) (injEffects n (injSnap b n i) (injTaken n b))) = injActed (injTaken n b) n (injSnap b n i) := rfl
  cases wordFault (injTaken n b) n (injSnap b n i) with
  | some f =>
    simp only [Option.elim_some, hpre]
  | none =>
    rw [Option.elim_none, hact]
    dsimp only
    rw [hacted]
    cases newExc ((injTaken n b).ctx n) ((injActed (injTaken n b) n (injSnap b n i)).ctx n) <;> rfl
end

/-! ### An injected word that does nothing -/

theorem earlied_false (c : Ctx) : earlied false c = c := by
  rw [earlied, Bool.or_false, putBit_getLsbD]

theorem wStage_zero {s : Snap} (h : s.w = 0) (n : CtxNo) (b : Block) : wStage n s b = b.setFile n s.lvl (b.file n s.lvl) := by
  have hseq : SeqAlone s.w := by rw [h]; decide
  have hearly : earlyRead s.w = false := by rw [h]; decide
  have hmem : s.w.isMem = false := by rw [h]; decide
  have hfile : quietFile b n s = b.file n s.lvl := by
    rw [quietFile, seesEarly, hearly, Bool.false_and, earlied_false]
    simp [basedFile, hmem]
  unfold wStage
  dsimp only
  rw [hearly, Bool.false_and, if_neg Bool.false_ne_true, wInternal_noResult (noResult_of_seqAlone hseq), wExternal_seqAlone hseq, hfile]

theorem newExc_of_excs {c d : Ctx} (h : d.excs = c.excs) : newExc c d = none := by
  rw [newExc, h, List.find?_eq_none]
  intro x hx
  simpa using hx

theorem settle_of_idle {n : CtxNo} {b : Block} (h : (b.ctx n).act = .idle) : settle n b = b := by
  unfold settle
  rw [h]

theorem agree_injActed_zero {m : Block} {n : CtxNo} {s : Snap} (h : s.w = 0) : Agree (injActed m n s) m := by
  have heff : Agree (injEffects n s m) m := by
    rw [injEffects, wStage_zero h]
    exact agree_setFile_file m n s.lvl
  have hseq : injSeq n s (injEffects n s m) = injEffects n s m := by
    unfold injSeq
    rw [if_neg (by rw [h]; decide), if_neg (by rw [h]; exact fun hs => absurd hs.1 (by decide))]
  unfold injActed
  rw [hseq, ite_self]
  exact heff

theorem agree_injOver {t v : Block} (h : Agree t v) (n : CtxNo) : Agree (injOver n t) (injOver n v) := by
  have hnow : t.now = v.now := by rw [h.1]
  rw [injOver, injOver, hnow]
  exact h.modEng _ _

theorem act_injTaken_of_idle {n : CtxNo} {b : Block} (h : (b.ctx n).act = .idle) : ((injTaken n b).ctx n).act = .idle := by
  have hact : ∀ t : Block, (t.ctx n).act = .idle → leaveLong n t = t := fun t ht => by
    unfold leaveLong
    rw [ht]
    rfl
  rw [injTaken, modEng_eq, ctx_setEng, modCtx_eq, hact _ (by rw [ctx_setCtx_same]; exact h), ctx_setCtx_same]
  exact h

theorem agree_settle_injActed_zero {m : Block} {n : CtxNo} {s : Snap} (h : s.w = 0) (hidle : (m.ctx n).act = .idle) :
    Agree (settle n (injOver n (injActed m n s))) (injOver n m) := by
  have ha := agree_injActed_zero (m := m) (n := n) h
  rw [settle_of_idle]
  · exact agree_injOver ha n
  · rw [injOver, modEng_eq, ctx_setEng, ha.2.1]
    exact hidle

/-- Settles O32: each port write by what its register does, and the injected word by its cases (`opInjectedWord_eq`). -/
theorem injectedWordsAndContextRegisters : Obligations.InjectedWordsAndContextRegisters := by
  unfold Obligations.InjectedWordsAndContextRegisters
  refine ⟨?go, ?cancel, ?word, ?jump, ?late, ?ctxReg, ?estat, ?ctxReset, ?engReset⟩
  case go =>
    intro e k sys
    refine portWrite_of (fun o s => ?_) (by simp) (fun o b => ?_)
    · rw [← goWord_eq]
      rfl
    · rw [nativeWrite_injCtl, writeInjCtl_go]
      unfold injectGo
      refine if_congr Iff.rfl rfl (if_congr Iff.rfl ?_ (if_congr ?_ ?_ ?_))
      · rw [modEng_eq, modEng_eq, setEng_setEng, eng_setEng_same]
        rfl
      · exact Iff.rfl
      · rw [modEng_eq, modEng_eq, setEng_setEng, eng_setEng_same]
        rfl
      · rw [modEng_eq, eng_setEng_same]
        rfl
  case cancel =>
    intro e k
    refine portWrite_of (fun o s => ?_) (by simp) (fun o b => ?_)
    · rw [← cancelWord_eq]
      rfl
    · rw [nativeWrite_injCtl, writeInjCtl_cancel]
      rfl
  case word =>
    intro s e k i b n r m0 m1 m done erred halted u hi hr
    have hdoes : Does (.injectedWord e k) s (opInjectedWord n b) := does_of_exec rfl
    have he : engOf n = e := engOf_ctxNo e k
    have hm1 : leaveLong n (b.modCtx n (fun c => { c with inj := none })) = m1 := by
      unfold leaveLong
      rw [modCtx_eq, ctx_setCtx_same]
    have hm : injTaken n b = m := by
      rw [injTaken, hm1, he]
      rfl
    have hdone : ∀ t, injOver n t = done t := fun t => by rw [injOver, he]
    have herred : ∀ t, injErred n t = erred t := fun t => by rw [injErred, he]
    have hhalt : (m.ctx n).halt.halted = halted := by rw [← hm, halt_injTaken]
    have hu : injActed m n r = u := rfl
    rw [opInjectedWord_eq hi hr, hm, show injSnap b n i = r from rfl] at hdoes
    have hruns : cond m n (m.file n r.lvl) i.w = true → Does (.injectedWord e k) s (injRun n r m) := fun hc => by
      rwa [if_neg (by rw [hc]; exact nofun)] at hdoes
    have hacts : cond m n (m.file n r.lvl) i.w = true → wordFault m n r = none → newExc (m.ctx n) (u.ctx n) = none →
        Does (.injectedWord e k) s (settle n (done u)) := fun hc hf hx => by
      have h := hruns hc
      rwa [injRun, hf, Option.elim_none, hu, hx, Option.elim_none, hdone] at h
    refine ⟨fun hc => ?_, fun code sub info hc hf => ?_, hacts, fun x hc hf hx => ?_, fun hw hidle hc hf => ?_⟩
    · rwa [if_pos hc, hdone] at hdoes
    · have h := hruns hc
      rw [injRun, hf, Option.elim_some, hhalt, herred] at h
      exact ⟨fun hh => by rwa [if_pos hh] at h, fun hh => by rwa [if_neg (by rw [hh]; exact nofun)] at h⟩
    · have h := hruns hc
      rwa [injRun, hf, Option.elim_none, hu, hx, Option.elim_some, hhalt, herred, hdone] at h
    · have hw' : r.w = 0 := hw
      have hx : newExc (m.ctx n) (u.ctx n) = none := newExc_of_excs (congrArg Ctx.excs ((agree_injActed_zero hw').2.1 n))
      refine fun hturn => ⟨_, hacts (hw ▸ hc) hf hx hturn, ?_⟩
      rw [← hdone, ← hdone]
      exact agree_settle_injActed_zero hw' (hm ▸ act_injTaken_of_idle hidle)
  case jump =>
    intro b n r hidle hseq
    rw [injSeq, if_pos hseq]
    exact onlyParts_injJump hidle
  case late =>
    intro s e k sys hon hbus hfuse hheld hgone hsec
    have hdoes : Does (.injectGo .dap e k sys) s (portAccess .dap (.eng e 0x3C) (.write (fld 0 k ||| bit 4 sys ||| bit 5 true)) s.blk) :=
      does_of_exec rfl
    rwa [portAccess_lateGo (by rw [goWord_eq]; exact (goWord_bits k sys).2.2.1) hon hbus hfuse hheld hgone hsec] at hdoes
  case ctxReg =>
    intro e k r d
    refine portWrite_of (fun o s => rfl) (by simp) (fun o b => ?_)
    rw [nativeWrite_ctxReg]
    refine if_congr (ctxOpen_iff _) ?_ rfl
    cases r <;> rfl
  case estat =>
    intro e two d
    refine portWrite_of (fun o s => rfl) (by cases two <;> simp) (fun o b => ?_)
    cases two
    · refine Eq.trans (b := if estatMay b o e (b.eng e).xb1 then b.modEng e (fun g => g.modBank .bank1 (fun k => { k with estat := d.setWidth 48 &&& statMask }))
        else setWerr e b) rfl (if_congr (estatMay_iff ..) rfl rfl)
    · refine Eq.trans (b := if estatMay b o e (b.eng e).xb2 then b.modEng e (fun g => g.modBank .bank2 (fun k => { k with estat := d.setWidth 48 &&& statMask }))
        else setWerr e b) rfl (if_congr (estatMay_iff ..) rfl rfl)
  case ctxReset =>
    intro e mask
    refine portWrite_of (fun o s => rfl) (by simp) (fun o b => ?_)
    rw [show nativeWrite o (.eng e 0x08) (mask.setWidth 32) b = writeEngReset e (mask.setWidth 32) b from rfl, writeEngReset_mask,
      requestCtxReset_eq]
  case engReset => exact fun e => portWrite_of (fun o s => rfl) (by simp) (fun o b => rfl)

end Sys2Proof.Machine

/-! The channels' rows: an event reaches its latches or the channel's entry; a channel joins its ready queue, is filled into a
context and spilled (R47, R55 to R65, R243). -/

namespace Sys2Proof.Machine
open Sys2Proof

/-! ### The latches of one context (R47, R55) -/

/-- A YIELD that admits a latch ends. -/
def woken (c : Ctx) : Ctx := match c.act with
  | .yieldOn m => if c.latch.on &&& m ≠ 0 then { c with upc := c.upc + 1, act := .idle } else c
  | _ => c

/-- The context with latch `i` set by an event of stamp `t`. -/
def marked (now : Nat) (t : Tick × Nat) (i : Nat) (c : Ctx) : Ctx :=
  { c with latch := c.latch.set now (BitVec.ofNat 24 (2 ^ i)), took := Map.set none c.took i (some t) }

/-- Latch `i` is set, unless an event of the stamp has done so. -/
def setOne (now : Nat) (t : Tick × Nat) (i : Nat) (c : Ctx) : Ctx :=
  if Map.get none c.took i = some t then c else woken (marked now t i c)

/-- The bits of a list of latches. -/
def bitsOf (l : List Nat) : BitVec 24 := l.foldl (fun v i => v ||| BitVec.ofNat 24 (2 ^ i)) 0

/-- The context with the latches of a list set one after another. -/
def markedAll (now : Nat) (t : Tick × Nat) (l : List Nat) (c : Ctx) : Ctx :=
  { c with
    latch := if l = [] then c.latch else c.latch.set now (bitsOf l)
    took := l.foldl (fun m i => Map.set none m i (some t)) c.took }

/-- ... and its YIELD ended, where one of them was set. -/
def tookAll (now : Nat) (t : Tick × Nat) (l : List Nat) (c : Ctx) : Ctx :=
  if l = [] then c else woken (markedAll now t l c)

theorem woken_of_not_yield {c : Ctx} (h : ∀ m, c.act ≠ .yieldOn m) : woken c = c := by
  unfold woken
  split
  · exact absurd ‹_› (h _)
  · rfl

theorem woken_of_yield {c : Ctx} {m : BitVec 24} (h : c.act = .yieldOn m) :
    woken c = if c.latch.on &&& m ≠ 0 then { c with upc := c.upc + 1, act := .idle } else c := by
  unfold woken
  rw [h]

theorem Marks.set_set {w : Nat} (now : Nat) (v u : BitVec w) (m : Marks w) : (m.set now v).set now u = m.set now (v ||| u) := by
  simp [Marks.set, Marks.pre, Marks.fresh, BitVec.or_assoc]

theorem bitsOf_append (l : List Nat) (i : Nat) : bitsOf (l ++ [i]) = bitsOf l ||| BitVec.ofNat 24 (2 ^ i) := by
  rw [bitsOf, List.foldl_append]
  rfl

theorem get_foldl_set {t : Tick × Nat} {l : List Nat} {m : Map (Option (Tick × Nat))} {i : Nat} :
    Map.get none (l.foldl (fun m i => Map.set none m i (some t)) m) i = if i ∈ l then some t else Map.get none m i := by
  induction l generalizing m with
  | nil => simp
  | cons j l ih =>
    rw [List.foldl_cons, ih, Map.get_set]
    by_cases hl : i ∈ l <;> by_cases hj : i = j <;> simp [hl, hj]

@[simp] theorem woken_took (c : Ctx) : (woken c).took = c.took := by
  unfold woken
  split
  · split <;> rfl
  · rfl

@[simp] theorem woken_latch (c : Ctx) : (woken c).latch = c.latch := by
  unfold woken
  split
  · split <;> rfl
  · rfl

section
variable {now : Nat} {t : Tick × Nat} {l : List Nat} {c : Ctx} {i : Nat}

theorem took_tookAll : Map.get none (tookAll now t l c).took i = if i ∈ l then some t else Map.get none c.took i := by
  unfold tookAll
  split
  · next h => simp [h]
  · rw [woken_took]
    exact get_foldl_set

theorem markedAll_append : marked now t i (markedAll now t l c) = markedAll now t (l ++ [i]) c := by
  have hlatch : (markedAll now t l c).latch.set now (BitVec.ofNat 24 (2 ^ i)) = c.latch.set now (bitsOf (l ++ [i])) := by
    rw [bitsOf_append]
    by_cases hl : l = []
    · simp [markedAll, hl, bitsOf]
    · rw [markedAll]
      dsimp only
      rw [if_neg hl, Marks.set_set]
  unfold marked
  rw [hlatch]
  simp [markedAll, List.foldl_append]

theorem marked_on_of_on {m : BitVec 24} (h : c.latch.on &&& m ≠ 0) : (marked now t i c).latch.on &&& m ≠ 0 := by
  have hon : (marked now t i c).latch.on = c.latch.on ||| BitVec.ofNat 24 (2 ^ i) := by
    simp only [marked, Marks.set, Marks.on, Marks.pre, Marks.fresh]
    split <;> simp [BitVec.or_assoc]
  intro h0
  rw [hon, BitVec.and_comm, BitVec.and_or_distrib_left] at h0
  exact h (BitVec.and_comm _ _ ▸ (BitVec.or_eq_zero_iff.1 h0).1)

/-- A latch more wakes the YIELD that the latches before it have woken. -/
theorem woken_marked_woken : woken (marked now t i (woken c)) = woken (marked now t i c) := by
  by_cases hy : ∃ m, c.act = .yieldOn m
  · obtain ⟨m, hm⟩ := hy
    rw [woken_of_yield hm]
    split
    · next h =>
      rw [woken_of_yield (c := marked now t i c) hm, if_pos (marked_on_of_on h)]
      exact woken_of_not_yield (fun _ => nofun)
    · rfl
  · rw [woken_of_not_yield (c := c) (fun m hm => hy ⟨m, hm⟩)]

theorem setOne_tookAll (hi : i ∉ l) : setOne now t i (tookAll now t l c) =
    tookAll now t (l ++ if Map.get none c.took i = some t then [] else [i]) c := by
  unfold setOne
  rw [took_tookAll, if_neg hi]
  by_cases hc : Map.get none c.took i = some t
  · rw [if_pos hc, if_pos hc, List.append_nil]
  · rw [if_neg hc, if_neg hc, tookAll, tookAll, if_neg (List.append_ne_nil_of_right_ne_nil l (by simp)), ← markedAll_append]
    split
    · next hl => rw [hl]; rfl
    · exact woken_marked_woken

theorem foldl_setOne_tookAll (a : List Nat) (ha : (l ++ a).Nodup) : a.foldl (fun c i => setOne now t i c) (tookAll now t l c) =
    tookAll now t (l ++ a.filter (fun i => Map.get none c.took i != some t)) c := by
  induction a generalizing l with
  | nil => rw [List.foldl_nil, List.filter_nil, List.append_nil]
  | cons i a ih =>
    have hi : i ∉ l := fun h => (List.nodup_append.1 ha).2.2 i h i (by simp) rfl
    rw [List.foldl_cons, setOne_tookAll hi, ih]
    · by_cases hc : Map.get none c.took i = some t <;> simp [hc]
    · by_cases hc : Map.get none c.took i = some t
      · rw [if_pos hc, List.append_nil]
        exact ha.sublist (List.Sublist.append_left (List.sublist_cons_self i a) l)
      · rw [if_neg hc, List.append_assoc]
        exact ha

theorem foldl_setOne_again (a : List Nat) (ha : ∀ i ∈ a, Map.get none c.took i = some t) : a.foldl (fun c i => setOne now t i c) c = c := by
  induction a with
  | nil => rfl
  | cons i a ih =>
    rw [List.foldl_cons, setOne, if_pos (ha i (by simp))]
    exact ih (fun j hj => ha j (List.mem_cons_of_mem _ hj))

end

theorem getLsbD_bitsOf {l : List Nat} {k : Nat} (hk : k < 24) : (bitsOf l).getLsbD k = decide (k ∈ l) := by
  have hfold : ∀ v : BitVec 24, (l.foldl (fun v i => v ||| BitVec.ofNat 24 (2 ^ i)) v).getLsbD k = (v.getLsbD k || decide (k ∈ l)) := by
    induction l with
    | nil => simp
    | cons i l ih =>
      intro v
      have hbit : (BitVec.ofNat 24 (2 ^ i)).getLsbD k = decide (k = i) := by
        rw [BitVec.getLsbD_ofNat, Nat.testBit_two_pow]
        simp [hk, eq_comm]
      rw [List.foldl_cons, ih, BitVec.getLsbD_or, hbit]
      simp [Bool.or_assoc]
  rw [bitsOf, hfold]
  simp

theorem getLsbD_fresh (t : Tick × Nat) (c : Ctx) (got : BitVec 24) {k : Nat} (hk : k < 24) :
    (fresh t c got).getLsbD k = (got.getLsbD k && Map.get none c.took k != some t) := getLsbD_foldl_putBit _ hk

/-- The latches that an event of the stamp sets anew. -/
def freshOf (t : Tick × Nat) (c : Ctx) (got : BitVec 24) : List Nat := (List.range 24).filter (fun i => (fresh t c got).getLsbD i)

theorem bitsOf_freshOf (t : Tick × Nat) (c : Ctx) (got : BitVec 24) : bitsOf (freshOf t c got) = fresh t c got := by
  refine BitVec.eq_of_getLsbD_eq fun k hk => ?_
  rw [getLsbD_bitsOf hk, freshOf]
  simp [hk]

theorem freshOf_nil_iff (t : Tick × Nat) (c : Ctx) (got : BitVec 24) : freshOf t c got = [] ↔ fresh t c got = 0 := by
  constructor
  · intro h
    rw [← bitsOf_freshOf, h]
    rfl
  · intro h
    simp [freshOf, h]

theorem markedAll_nil (now : Nat) (t : Tick × Nat) (c : Ctx) : markedAll now t [] c = c := rfl

/-- A YIELD ends where latches are set anew and one that it admits is on. -/
def wokenBy (new : BitVec 24) (a : Act) (upc : CsAddr) (c : Ctx) : Ctx := match a with
  | .yieldOn mask => if new ≠ 0 ∧ c.latch.on &&& mask ≠ 0 then { c with upc := upc + 1, act := .idle } else c
  | _ => c

theorem wokenBy_zero (a : Act) (upc : CsAddr) (c : Ctx) : wokenBy 0 a upc c = c := by
  unfold wokenBy
  split
  · exact if_neg (fun h => h.1 rfl)
  · rfl

theorem wokenBy_eq_woken {new : BitVec 24} (h : new ≠ 0) (c : Ctx) : wokenBy new c.act c.upc c = woken c := by
  unfold wokenBy
  split
  · next m hm =>
    rw [woken_of_yield hm]
    exact if_congr (and_iff_right h) rfl rfl
  · next hm => exact (woken_of_not_yield hm).symm

theorem latched_eq_tookAll (now : Nat) (t : Tick × Nat) (got : BitVec 24) (c : Ctx) : latched now t got c = tookAll now t (freshOf t c got) c := by
  have hmarked : { c with
      latch := if fresh t c got = 0 then c.latch else c.latch.set now (fresh t c got)
      took := (List.range 24).foldl (fun m i => if (fresh t c got).getLsbD i then Map.set none m i (some t) else m) c.took } =
      markedAll now t (freshOf t c got) c := by
    rw [markedAll, bitsOf_freshOf, freshOf, List.foldl_filter, ← freshOf]
    simp only [freshOf_nil_iff]
  have hwoken : latched now t got c = wokenBy (fresh t c got) c.act c.upc (markedAll now t (freshOf t c got) c) :=
    congrArg (wokenBy (fresh t c got) c.act c.upc) hmarked
  rw [hwoken, tookAll]
  by_cases hl : freshOf t c got = []
  · rw [if_pos hl, (freshOf_nil_iff t c got).1 hl, wokenBy_zero, hl, markedAll_nil]
  · rw [if_neg hl]
    exact wokenBy_eq_woken (fun h => hl ((freshOf_nil_iff t c got).2 h)) (markedAll now t (freshOf t c got) c)

/-! ### An event's way through the engines (R47, R219) -/

/-- The event reaches the context's latch 48 + j. -/
def reaches (b : Block) (ev : Ev) (m : CtxNo) (j : Nat) : Bool :=
  selects (engOf m) (evSelOf (b.eng (engOf m)) j) ev && !(b.fenced (secOf (engOf m))) && (b.ctx m).chan.isSome && (b.ctx m).evMask.getLsbD j

/-- The latches that it reaches. -/
def reachedBy (b : Block) (ev : Ev) (m : CtxNo) : List Nat := ((List.range 16).filter (reaches b ev m)).map (8 + ·)

theorem getLsbD_broadcastTo (b : Block) (ev : Ev) (m : CtxNo) {k : Nat} (hk : k < 24) :
    (broadcastTo b ev m).getLsbD k = decide (k ∈ reachedBy b ev m) := by
  have hput : ∀ n, n ≤ 16 → ((List.range n).foldl (fun (a : BitVec 24) j => if reaches b ev m j then putBit a (8 + j) true else a) 0).getLsbD k =
      decide (k ∈ ((List.range n).filter (reaches b ev m)).map (8 + ·)) := by
    intro n hn
    induction n with
    | zero => simp
    | succ n ih =>
      rw [List.range_succ, List.foldl_append, List.foldl_cons, List.foldl_nil, List.filter_append, List.map_append]
      by_cases hr : reaches b ev m n = true
      · rw [if_pos hr, getLsbD_putBit _ _ _ _ hk, ih (by omega)]
        by_cases hkn : k = 8 + n <;> simp [hr, hkn]
      · rw [if_neg hr, ih (by omega)]
        simp [hr]
  exact hput 16 le_rfl

theorem freshOf_broadcastTo (t : Tick × Nat) (b : Block) (ev : Ev) (m : CtxNo) (c : Ctx) :
    freshOf t c (broadcastTo b ev m) = (reachedBy b ev m).filter (fun i => Map.get none c.took i != some t) := by
  have hall : reachedBy b ev m = (List.range 24).filter (fun i => decide (i ∈ reachedBy b ev m)) := by
    have hlow : (List.range 8).filter (fun i => decide (i ∈ reachedBy b ev m)) = [] := by
      refine List.filter_eq_nil_iff.2 fun i hi => ?_
      simp only [reachedBy, List.mem_map, decide_eq_true_eq, not_exists, not_and]
      intro j _ hj
      have := List.mem_range.1 hi
      omega
    rw [show List.range 24 = List.range 8 ++ (List.range 16).map (8 + ·) from by decide, List.filter_append, hlow, List.nil_append,
      List.filter_map, reachedBy]
    refine congrArg _ (List.filter_congr fun j hj => ?_)
    rw [Bool.eq_iff_iff]
    simp [List.mem_range.1 hj]
  rw [hall, List.filter_filter, freshOf]
  refine List.filter_congr fun i hi => ?_
  rw [getLsbD_fresh _ _ _ (List.mem_range.1 hi), getLsbD_broadcastTo _ _ _ (List.mem_range.1 hi), Bool.and_comm]

/-- What an event leaves alone on its way: all but contexts, the engines' banks, and the clusters' wake triggers. -/
structure Spread (b t : Block) : Prop where
  frame : t = { b with ctxs := t.ctxs, engs := t.engs, clus := t.clus }
  clu : ∀ c, t.clu c = { b.clu c with trigAt := (t.clu c).trigAt }
  sel : ∀ e, (t.eng e).evSel = (b.eng e).evSel
  admits : ∀ m, (t.ctx m).chan = (b.ctx m).chan ∧ (t.ctx m).evMask = (b.ctx m).evMask

theorem Spread.refl (b : Block) : Spread b b := ⟨rfl, fun _ => rfl, fun _ => rfl, fun _ => ⟨rfl, rfl⟩⟩

theorem Spread.trans {b t u : Block} (h : Spread b t) (h' : Spread t u) : Spread b u where
  frame := by rw [h'.frame, h.frame]
  clu c := by rw [h'.clu, h.clu]
  sel e := (h'.sel e).trans (h.sel e)
  admits m := ⟨(h'.admits m).1.trans (h.admits m).1, (h'.admits m).2.trans (h.admits m).2⟩

theorem spread_trigger (c : CluId) (b : Block) : Spread b (trigger c b) where
  frame := rfl
  clu d := by
    rw [trigger, modClu_eq, clu_setClu]
    split
    · next h => rw [h]
    · rfl
  sel _ := rfl
  admits _ := ⟨rfl, rfl⟩

theorem spread_setCtx {n : CtxNo} {b : Block} {c : Ctx} (hchan : c.chan = (b.ctx n).chan) (hmask : c.evMask = (b.ctx n).evMask) :
    Spread b (b.setCtx n c) where
  frame := rfl
  clu _ := rfl
  sel _ := rfl
  admits m := by
    rw [ctx_setCtx]
    split
    · next h => rw [h]; exact ⟨hchan, hmask⟩
    · exact ⟨rfl, rfl⟩

theorem spread_setFile {n : CtxNo} {l : Lvl} {b : Block} {v : Ctx} (hchan : v.chan = (b.ctx n).chan) (hmask : v.evMask = (b.ctx n).evMask) :
    Spread b (b.setFile n l v) := by
  have heng : Spread b (b.setEng (engOf n) (unviewEng (b.eng (engOf n)) v l)) := by
    refine ⟨rfl, fun _ => rfl, fun e => ?_, fun _ => ⟨rfl, rfl⟩⟩
    rw [eng_setEng]
    split
    · next h => rw [h]; cases l <;> rfl
    · rfl
  refine heng.trans (spread_setCtx ?_ ?_)
  · exact (show (unviewCtx (b.ctx n) v l).chan = v.chan by cases l <;> rfl).trans hchan
  · exact (show (unviewCtx (b.ctx n) v l).evMask = v.evMask by cases l <;> rfl).trans hmask

theorem spread_waitDone (n : CtxNo) (src : BitVec 6) (b : Block) : Spread b (waitDone n src b) := by
  have hfile : ∀ l, Spread b (b.modFile n l (fun c => { c with stat := putBit c.stat 8 false, upc := c.upc + 1, act := .idle })) := by
    intro l
    refine spread_setFile ?_ ?_ <;> cases l <;> rfl
  unfold waitDone
  dsimp only
  split
  · exact (hfile _).trans (spread_setCtx rfl rfl)
  · exact hfile _

theorem spread_settle (n : CtxNo) (b : Block) : Spread b (settle n b) := by
  unfold settle
  split
  · split
    · exact spread_waitDone ..
    · exact .refl b
  · exact .refl b

theorem woken_of_yieldOn {c : Ctx} {m : BitVec 24} (h : c.act = .yieldOn m) :
    woken c = if c.latch.on &&& m ≠ 0 then { c with upc := c.upc + 1, act := .idle } else c := by
  simp only [woken, h]

theorem woken_of_not_yieldOn {c : Ctx} (h : ∀ m, c.act ≠ .yieldOn m) : woken c = c := by
  unfold woken
  split
  · next m hm => exact absurd hm (h m)
  · rfl

theorem wakeYield_eq (n : CtxNo) (b : Block) : (wakeYield n b).ctx n = woken (b.ctx n) := by
  unfold wakeYield
  split
  · next m hm =>
    rw [woken_of_yieldOn hm]
    split
    · rw [modCtx_eq, ctx_setCtx_same]
    · rfl
  · next hm => rw [woken_of_not_yieldOn hm]

theorem spread_wakeYield (n : CtxNo) (b : Block) : Spread b (wakeYield n b) := by
  unfold wakeYield
  split
  · split
    · exact spread_setCtx rfl rfl
    · exact .refl b
  · exact .refl b

theorem setLatch_eq (t : Tick × Nat) (n : CtxNo) (i : Nat) (b : Block) : setLatch t n i b =
    if Map.get none (b.ctx n).took i = some t then b
    else wakeYield n (settle n (trigger (cluOf (engOf n)) (b.setCtx n (marked b.now t i (b.ctx n))))) := rfl

theorem spread_setLatch (t : Tick × Nat) (n : CtxNo) (i : Nat) (b : Block) : Spread b (setLatch t n i b) := by
  rw [setLatch_eq]
  split
  · exact .refl b
  · have hmark : Spread b (b.setCtx n (marked b.now t i (b.ctx n))) := spread_setCtx rfl rfl
    exact ((hmark.trans (spread_trigger _ _)).trans (spread_settle n _)).trans (spread_wakeYield n _)

theorem ctx_waitDone_ne {n m : CtxNo} (h : m ≠ n) (src : BitVec 6) (b : Block) : (waitDone n src b).ctx m = b.ctx m := by
  have hfile : ∀ l f, (b.modFile n l f).ctx m = b.ctx m := fun l f => by
    rw [Block.modFile, ctx_setFile, if_neg h]
  unfold waitDone
  dsimp only
  split
  · rw [modCtx_eq, ctx_setCtx, if_neg h, hfile]
  · exact hfile ..

theorem ctx_settle_ne {n m : CtxNo} (h : m ≠ n) (b : Block) : (settle n b).ctx m = b.ctx m := by
  unfold settle
  split
  · split
    · exact ctx_waitDone_ne h ..
    · rfl
  · rfl

theorem ctx_wakeYield_ne {n m : CtxNo} (h : m ≠ n) (b : Block) : (wakeYield n b).ctx m = b.ctx m := by
  unfold wakeYield
  split
  · split
    · rw [modCtx_eq, ctx_setCtx, if_neg h]
    · rfl
  · rfl

/-- A latch of one context leaves the others as they are. -/
theorem ctx_setLatch_ne {n m : CtxNo} (h : m ≠ n) (t : Tick × Nat) (i : Nat) (b : Block) : (setLatch t n i b).ctx m = b.ctx m := by
  rw [setLatch_eq]
  split
  · rfl
  · rw [ctx_wakeYield_ne h, ctx_settle_ne h, trigger, modClu_eq, ctx_setClu, ctx_setCtx, if_neg h]

theorem settle_of_not_wait {n : CtxNo} {b : Block} (h : onWait (b.ctx n).act = false) : settle n b = b := by
  unfold settle
  split
  · next hact => rw [hact] at h; exact absurd h nofun
  · rfl

/-- A context that is in no WAIT takes the latch in itself alone. -/
theorem ctx_setLatch_of_not_wait {n : CtxNo} {b : Block} (h : onWait (b.ctx n).act = false) (t : Tick × Nat) (i : Nat) :
    (setLatch t n i b).ctx n = setOne b.now t i (b.ctx n) := by
  have hctx : (trigger (cluOf (engOf n)) (b.setCtx n (marked b.now t i (b.ctx n)))).ctx n = marked b.now t i (b.ctx n) := by
    rw [trigger, modClu_eq, ctx_setClu, ctx_setCtx_same]
  rw [setLatch_eq, setOne]
  split
  · rfl
  · rw [settle_of_not_wait (by rw [hctx]; exact h), wakeYield_eq, hctx]

theorem onWait_woken {c : Ctx} (h : onWait c.act = false) : onWait (woken c).act = false := by
  unfold woken
  split
  · split
    · rfl
    · exact h
  · exact h

theorem onWait_setOne {now : Nat} {t : Tick × Nat} {i : Nat} {c : Ctx} (h : onWait c.act = false) : onWait (setOne now t i c).act = false := by
  unfold setOne
  split
  · exact h
  · exact onWait_woken (c := marked now t i c) h

/-- No latch is on but those that were, and those of a mask. -/
def Within (v u : BitVec 24) : Prop := v &&& ~~~u = 0

theorem within_iff {v u : BitVec 24} : Within v u ↔ ∀ i < 24, v.getLsbD i = true → u.getLsbD i = true := by
  constructor
  · intro h i hi hv
    have := congrArg (fun x : BitVec 24 => x.getLsbD i) h
    simpa [hv, hi] using this
  · intro h
    refine BitVec.eq_of_getLsbD_eq fun i hi => ?_
    have := h i hi
    simp [hi]
    exact this

theorem marked_on (now : Nat) (t : Tick × Nat) (i : Nat) (c : Ctx) : (marked now t i c).latch.on = c.latch.on ||| BitVec.ofNat 24 (2 ^ i) := by
  simp only [marked, Marks.set, Marks.on, Marks.pre, Marks.fresh]
  split <;> simp [BitVec.or_assoc]

theorem within_waitDone (n : CtxNo) (src : BitVec 6) (b : Block) : Within ((waitDone n src b).ctx n).latch.on (b.ctx n).latch.on := by
  have hfile : ∀ l, ((b.modFile n l (fun c => { c with stat := putBit c.stat 8 false, upc := c.upc + 1, act := .idle })).ctx n).latch = (b.ctx n).latch := by
    intro l
    rw [Block.modFile, ctx_setFile, if_pos rfl]
    cases l <;> rfl
  unfold waitDone
  dsimp only
  split
  · rw [modCtx_eq, ctx_setCtx_same]
    dsimp only
    rw [hfile, within_iff]
    intro i hi
    simp [Marks.drop, Marks.on]
    grind
  · rw [hfile, within_iff]
    exact fun _ _ h => h

theorem within_settle (n : CtxNo) (b : Block) : Within ((settle n b).ctx n).latch.on (b.ctx n).latch.on := by
  unfold settle
  split
  · split
    · exact within_waitDone ..
    · exact within_iff.2 fun _ _ h => h
  · exact within_iff.2 fun _ _ h => h

theorem within_setLatch (t : Tick × Nat) (n : CtxNo) (i : Nat) (b : Block) :
    Within ((setLatch t n i b).ctx n).latch.on ((b.ctx n).latch.on ||| BitVec.ofNat 24 (2 ^ i)) := by
  rw [setLatch_eq]
  split
  · exact within_iff.2 fun j _ h => by rw [BitVec.getLsbD_or, h, Bool.true_or]
  · rw [wakeYield_eq, woken_latch]
    have h := within_settle n (trigger (cluOf (engOf n)) (b.setCtx n (marked b.now t i (b.ctx n))))
    rwa [trigger, modClu_eq, ctx_setClu, ctx_setCtx_same, marked_on] at h

/-- An event at one context, at one latch of an engine's contexts, and at an engine. -/
def reachCtx (t : Tick × Nat) (j : Nat) (u : Block) (n : CtxNo) : Block :=
  if (u.ctx n).chan.isSome && (u.ctx n).evMask.getLsbD j then setLatch t n (8 + j) u else u
def reachLatch (t : Tick × Nat) (ev : Ev) (e : EngId) (j : Nat) (u : Block) : Block :=
  if selects e (evSelOf (u.eng e) j) ev then (ctxsOf e).foldl (reachCtx t j) u else u
def reachEng (t : Tick × Nat) (ev : Ev) (u : Block) (e : EngId) : Block :=
  if u.fenced (secOf e) then u else times 16 (reachLatch t ev e) u

theorem broadcast_eq (t : Tick × Nat) (ev : Ev) (b : Block) :
    broadcast t ev b = (b.engs.map (fun x => (BitVec.ofNat 9 x.1 : EngId))).foldl (reachEng t ev) b := rfl

theorem mem_ctxsOf {e : EngId} {n : CtxNo} : n ∈ ctxsOf e ↔ engOf n = e := by
  have hall : ∀ k : CtxId, k ∈ allCtx := by decide
  rw [ctxsOf, List.mem_map]
  constructor
  · rintro ⟨k, -, rfl⟩
    exact engOf_ctxNo e k
  · rintro rfl
    exact ⟨ctxOf n, hall _, ctxNo_parts n⟩

theorem nodup_ctxsOf (e : EngId) : (ctxsOf e).Nodup := by
  refine List.Nodup.map_on (fun j _ k _ h => ?_) (by decide)
  rw [← ctxOf_ctxNo e j, h, ctxOf_ctxNo]

theorem evSelOf_congr {g g' : Eng} (h : g.evSel = g'.evSel) (j : Nat) : evSelOf g j = evSelOf g' j := by rw [evSelOf, h, evSelOf]

section
variable {b u : Block} {ev : Ev} {t : Tick × Nat}

theorem fenced_of_spread (h : Spread b u) (s : SecId) : u.fenced s = b.fenced s := by
  rw [h.frame]
  rfl

theorem now_of_spread (h : Spread b u) : u.now = b.now := by
  rw [h.frame]

/-- The event has set no latch but those that it reaches. -/
def Delivering (b : Block) (ev : Ev) (u : Block) : Prop :=
  Spread b u ∧ ∀ m, Within (u.ctx m).latch.on ((b.ctx m).latch.on ||| broadcastTo b ev m)

theorem Delivering.setLatch (h : Delivering b ev u) {n : CtxNo} {j : Nat} (hj : j < 16) (hr : reaches b ev n j = true) :
    Delivering b ev (setLatch t n (8 + j) u) := by
  obtain ⟨hs, hw⟩ := h
  refine ⟨hs.trans (spread_setLatch ..), fun m => ?_⟩
  by_cases hm : m = n
  · subst hm
    refine within_iff.2 fun i hi hon => ?_
    have h1 := within_iff.1 (within_setLatch t m (8 + j) u) i hi hon
    rw [BitVec.getLsbD_or, Bool.or_eq_true] at h1
    rcases h1 with h1 | h1
    · exact within_iff.1 (hw m) i hi h1
    · have hij : i = 8 + j := by
        rw [BitVec.getLsbD_ofNat, Nat.testBit_two_pow] at h1
        simpa [hi, eq_comm] using h1
      rw [BitVec.getLsbD_or, getLsbD_broadcastTo b ev m hi, Bool.or_eq_true, decide_eq_true_eq, reachedBy, List.mem_map]
      exact .inr ⟨j, List.mem_filter.2 ⟨List.mem_range.2 hj, hr⟩, hij.symm⟩
  · rw [ctx_setLatch_ne hm]
    exact hw m

theorem Delivering.foldl_reachCtx (h : Delivering b ev u) {e : EngId} {j : Nat} (hj : j < 16)
    (hsel : selects e (evSelOf (b.eng e) j) ev = true) (hsec : b.fenced (secOf e) = false) (l : List CtxNo) (hl : ∀ n ∈ l, engOf n = e) :
    Delivering b ev (l.foldl (reachCtx t j) u) := by
  induction l generalizing u with
  | nil => exact h
  | cons n l ih =>
    refine ih ?_ (fun m hm => hl m (List.mem_cons_of_mem _ hm))
    unfold reachCtx
    split
    · next hc =>
      obtain rfl := hl n (by simp)
      refine h.setLatch hj ?_
      obtain ⟨hchan, hmask⟩ := h.1.admits n
      rw [hchan, hmask, Bool.and_eq_true] at hc
      simp only [reaches, hsel, hsec, hc.1, hc.2, Bool.not_false, Bool.and_self]
    · exact h

theorem Delivering.reachEng (h : Delivering b ev u) (e : EngId) : Delivering b ev (reachEng t ev u e) := by
  unfold Machine.reachEng
  split
  · exact h
  · next hsec =>
    rw [fenced_of_spread h.1, Bool.not_eq_true] at hsec
    refine times_induction (fun _ u => Delivering b ev u) h fun j v hj hv => ?_
    unfold reachLatch
    split
    · next hsel =>
      rw [evSelOf_congr (hv.1.sel e)] at hsel
      exact hv.foldl_reachCtx hj hsel hsec _ (fun n hn => mem_ctxsOf.1 hn)
    · exact hv

theorem delivering_refl (b : Block) (ev : Ev) : Delivering b ev b :=
  ⟨.refl b, fun m => within_iff.2 fun i _ h => by rw [BitVec.getLsbD_or, h, Bool.true_or]⟩

theorem delivering_foldl (l : List EngId) (h : Delivering b ev u) : Delivering b ev (l.foldl (Machine.reachEng t ev) u) := by
  induction l generalizing u with
  | nil => exact h
  | cons e l ih => exact ih (h.reachEng e)

end

section
variable {b u : Block} {ev : Ev} {t : Tick × Nat} {m : CtxNo}

theorem spread_foldl_reachCtx (u : Block) (j : Nat) (l : List CtxNo) : Spread u (l.foldl (reachCtx t j) u) := by
  induction l generalizing u with
  | nil => exact .refl u
  | cons n l ih =>
    refine Spread.trans ?_ (ih (reachCtx t j u n))
    unfold reachCtx
    split
    · exact spread_setLatch ..
    · exact .refl u

theorem ctx_reachCtx_ne {n : CtxNo} (h : m ≠ n) (j : Nat) : (reachCtx t j u n).ctx m = u.ctx m := by
  unfold reachCtx
  split
  · exact ctx_setLatch_ne h ..
  · rfl

theorem ctx_foldl_reachCtx_ne (j : Nat) (l : List CtxNo) (h : m ∉ l) : (l.foldl (reachCtx t j) u).ctx m = u.ctx m := by
  induction l generalizing u with
  | nil => rfl
  | cons n l ih =>
    rw [List.foldl_cons, ih (fun hm => h (List.mem_cons_of_mem _ hm)), ctx_reachCtx_ne (fun hm : m = n => h (hm ▸ List.mem_cons_self))]

theorem ctx_foldl_reachCtx (hw : onWait (u.ctx m).act = false) (j : Nat) (l : List CtxNo) (hl : l.Nodup) (h : m ∈ l) :
    (l.foldl (reachCtx t j) u).ctx m =
      if (u.ctx m).chan.isSome && (u.ctx m).evMask.getLsbD j then setOne u.now t (8 + j) (u.ctx m) else u.ctx m := by
  induction l generalizing u with
  | nil => exact absurd h (by simp)
  | cons n l ih =>
    obtain ⟨hn, hl⟩ := List.nodup_cons.1 hl
    rw [List.foldl_cons]
    by_cases hmn : m = n
    · subst hmn
      rw [ctx_foldl_reachCtx_ne j l hn, reachCtx]
      split
      · exact ctx_setLatch_of_not_wait hw ..
      · rfl
    · have hkeep : (reachCtx t j u n).ctx m = u.ctx m := ctx_reachCtx_ne hmn j
      rw [ih (by rw [hkeep]; exact hw) hl ((List.mem_cons.1 h).resolve_left hmn), hkeep, show (reachCtx t j u n).now = u.now from now_of_spread (spread_foldl_reachCtx u j [n])]

theorem spread_reachLatch (u : Block) (e : EngId) (j : Nat) : Spread u (reachLatch t ev e j u) := by
  unfold reachLatch
  split
  · exact spread_foldl_reachCtx ..
  · exact .refl u

theorem ctx_reachLatch_ne {e : EngId} (h : engOf m ≠ e) (j : Nat) : (reachLatch t ev e j u).ctx m = u.ctx m := by
  unfold reachLatch
  split
  · exact ctx_foldl_reachCtx_ne j _ (fun hm => h (mem_ctxsOf.1 hm))
  · rfl

theorem ctx_reachLatch (hs : Spread b u) (hw : onWait (u.ctx m).act = false) (hsec : b.fenced (secOf (engOf m)) = false) (j : Nat) :
    (reachLatch t ev (engOf m) j u).ctx m = if reaches b ev m j then setOne b.now t (8 + j) (u.ctx m) else u.ctx m := by
  obtain ⟨hchan, hmask⟩ := hs.admits m
  unfold reachLatch reaches
  rw [evSelOf_congr (hs.sel (engOf m)), hsec]
  by_cases hsel : selects (engOf m) (evSelOf (b.eng (engOf m)) j) ev = true
  · rw [if_pos hsel, ctx_foldl_reachCtx hw j _ (nodup_ctxsOf _) (mem_ctxsOf.2 rfl), hchan, hmask, now_of_spread hs, hsel]
    rfl
  · rw [if_neg hsel, Bool.eq_false_iff.2 hsel]
    rfl

theorem ctx_reachEng_ne {e : EngId} (h : engOf m ≠ e) : (reachEng t ev u e).ctx m = u.ctx m := by
  unfold reachEng
  split
  · rfl
  · exact times_induction (fun _ (v : Block) => v.ctx m = u.ctx m) rfl fun j v _ hv => (ctx_reachLatch_ne h j).trans hv

theorem reachedBy_of_fenced (h : b.fenced (secOf (engOf m)) = true) : reachedBy b ev m = [] := by
  simp [reachedBy, reaches, h]

/-- At its engine the context takes the latches that the event reaches, in their order. -/
theorem ctx_reachEng (hs : Spread b u) (hw : onWait (u.ctx m).act = false) :
    (reachEng t ev u (engOf m)).ctx m = (reachedBy b ev m).foldl (fun c i => setOne b.now t i c) (u.ctx m) ∧
      Spread b (reachEng t ev u (engOf m)) := by
  unfold reachEng
  rw [fenced_of_spread hs]
  by_cases hsec : b.fenced (secOf (engOf m)) = true
  · rw [if_pos hsec, reachedBy_of_fenced hsec]
    exact ⟨rfl, hs⟩
  · rw [if_neg hsec]
    rw [Bool.not_eq_true] at hsec
    have hturn := times_induction (f := reachLatch t ev (engOf m)) (a := u) (n := 16)
      (fun n (v : Block) => v.ctx m = (((List.range n).filter (reaches b ev m)).map (8 + ·)).foldl (fun c i => setOne b.now t i c) (u.ctx m) ∧
        Spread b v ∧ onWait (v.ctx m).act = false) ⟨rfl, hs, hw⟩ (fun j v _ hv => ?_)
    · exact ⟨hturn.1, hturn.2.1⟩
    · obtain ⟨hctx, hv, hwv⟩ := hv
      refine ⟨?_, hv.trans (spread_reachLatch v _ j), ?_⟩
      · rw [ctx_reachLatch hv hwv hsec, List.range_succ, List.filter_append, List.map_append, List.foldl_append, ← hctx]
        by_cases hr : reaches b ev m j = true
        · simp [hr]
        · simp [hr]
      · rw [ctx_reachLatch hv hwv hsec]
        split
        · exact onWait_setOne hwv
        · exact hwv

theorem spread_reachEng (u : Block) (e : EngId) : Spread u (reachEng t ev u e) := by
  unfold reachEng
  split
  · exact .refl u
  · exact times_induction (fun _ v => Spread u v) (.refl u) fun j v _ hv => hv.trans (spread_reachLatch v e j)

theorem nodup_reachedBy (b : Block) (ev : Ev) (m : CtxNo) : (reachedBy b ev m).Nodup :=
  (List.Nodup.filter _ List.nodup_range).map (fun _ _ h => Nat.add_left_cancel h)

theorem onWait_tookAll {now : Nat} {l : List Nat} {c : Ctx} (h : onWait c.act = false) : onWait (tookAll now t l c).act = false := by
  unfold tookAll
  split
  · exact h
  · exact onWait_woken (c := markedAll now t l c) h

/-- An engine that comes again finds every latch taken. -/
theorem ctx_foldl_reachEng (hs : Spread b u) (l : List EngId) {c : Ctx} (hc : onWait c.act = false)
    (hu : u.ctx m = c ∨ u.ctx m = tookAll b.now t (freshOf t c (broadcastTo b ev m)) c) :
    (l.foldl (reachEng t ev) u).ctx m =
      if engOf m ∈ l then tookAll b.now t (freshOf t c (broadcastTo b ev m)) c else u.ctx m := by
  induction l generalizing u with
  | nil => simp
  | cons e l ih =>
    rw [List.foldl_cons]
    by_cases he : engOf m = e
    · subst he
      have hw : onWait (u.ctx m).act = false := by
        rcases hu with hu | hu <;> rw [hu]
        · exact hc
        · exact onWait_tookAll hc
      obtain ⟨hctx, hs'⟩ := ctx_reachEng (t := t) (ev := ev) hs hw
      have htook : (reachEng t ev u (engOf m)).ctx m = tookAll b.now t (freshOf t c (broadcastTo b ev m)) c := by
        rw [hctx, freshOf_broadcastTo]
        rcases hu with hu | hu
        · rw [hu]
          exact foldl_setOne_tookAll (l := []) _ (nodup_reachedBy b ev m)
        · rw [hu, freshOf_broadcastTo]
          refine foldl_setOne_again _ fun i hi => ?_
          rw [took_tookAll]
          by_cases ht : Map.get none c.took i = some t <;> simp [List.mem_filter, ht, hi]
      rw [ih hs' (.inr htook), htook, ite_self, if_pos (by simp)]
    · have hkeep : (reachEng t ev u e).ctx m = u.ctx m := ctx_reachEng_ne he
      rw [ih (hs.trans (spread_reachEng u e)) (by rw [hkeep]; exact hu), hkeep]
      simp [he]

end

section
variable {b : Block} {ev : Ev} {m : CtxNo}

theorem selects_default (e : EngId) (ev : Ev) : selects e 0x3FF ev = false := by
  cases ev with
  | num n =>
    by_cases h : (0x3FF : BitVec 10) = n
    · subst h
      simp [selects, liveEvent]
    · rw [selects, beq_eq_false_iff_ne.2 h, Bool.false_and, Bool.false_and]
  | ctmr c i => simp only [selects, Bool.and_eq_false_iff, beq_eq_false_iff_ne]; have := i.isLt; right; simp; omega
  | cwrap c i => simp only [selects, Bool.and_eq_false_iff, beq_eq_false_iff_ne]; have := i.isLt; right; simp; omega
  | etmr e k => simp only [selects, Bool.and_eq_false_iff, beq_eq_false_iff_ne]; have := k.isLt; right; simp; omega
  | chan s ch => rfl

theorem evSelOf_default (j : Nat) : evSelOf {} j = 0x3FF := by
  have hread : evSelOf {} j = if j % 2 = 0 then (0x03FF03FF : Reg32).extractLsb' 0 10 else (0x03FF03FF : Reg32).extractLsb' 16 10 := rfl
  rw [hread]
  split <;> decide

theorem get_of_unlisted {α : Type} {m : Map α} {k : Nat} (d : α) (h : ∀ x ∈ m, x.1 ≠ k) : Map.get d m k = d := by
  induction m with
  | nil => rfl
  | cons x m ih => rw [Map.get, if_neg (h x (by simp)), ih (fun y hy => h y (List.mem_cons_of_mem _ hy))]

/-- An engine that the state does not list selects nothing. -/
theorem reachedBy_of_unlisted (h : engOf m ∉ b.engs.map (fun x => (BitVec.ofNat 9 x.1 : EngId))) : reachedBy b ev m = [] := by
  have hdef : b.eng (engOf m) = {} := by
    refine get_of_unlisted _ fun x hx hk => h (List.mem_map.2 ⟨x, hx, ?_⟩)
    rw [hk, BitVec.ofNat_toNat, BitVec.setWidth_eq]
  have hno : ∀ j, reaches b ev m j = false := fun j => by
    rw [reaches, hdef, evSelOf_default, selects_default]
    rfl
  simp [reachedBy, hno]

/-- A context that is in no WAIT takes the latches that the event reaches, and no more. -/
theorem ctx_broadcast (t : Tick × Nat) (hw : onWait (b.ctx m).act = false) :
    (broadcast t ev b).ctx m = latched b.now t (broadcastTo b ev m) (b.ctx m) := by
  rw [broadcast_eq, ctx_foldl_reachEng (.refl b) _ hw (.inl rfl), latched_eq_tookAll]
  split
  · rfl
  · next h =>
    rw [freshOf_broadcastTo, reachedBy_of_unlisted h]
    rfl

theorem delivering_broadcast (b : Block) (ev : Ev) (t : Tick × Nat) : Delivering b ev (broadcast t ev b) :=
  delivering_foldl _ (delivering_refl b ev)

end

theorem opConditionEvent_broadcast {b : Block} {x : Stamped} {l : List Stamped} (hq : b.fab.queue = x :: l) (hev : ∀ i ch, x.ev ≠ .chan i ch) :
    opConditionEvent b = broadcast (x.stamp, x.era) x.ev { b with fab := { b.fab with queue := l } } := by
  cases he : x.ev with
  | chan i ch => exact absurd he (hev i ch)
  | _ => simp only [opConditionEvent, hq, he]

theorem opConditionEvent_chan {b : Block} {x : Stamped} {l : List Stamped} {i : BitVec 3} {ch : Chan} (hq : b.fab.queue = x :: l)
    (hev : x.ev = .chan i ch) : opConditionEvent b = channelEvent (x.stamp, x.era) i ch { b with fab := { b.fab with queue := l } } := by
  unfold opConditionEvent
  simp only [hq, hev]

section
variable {b : Block} {n : CtxNo}

theorem wakeYield_of_idle (h : (b.ctx n).act = .idle) : wakeYield n b = b := by
  unfold wakeYield
  rw [h]

/-- Between its words a context takes a latch in itself alone. -/
theorem setLatch_of_idle (h : (b.ctx n).act = .idle) (t : Tick × Nat) (i : Nat) : setLatch t n i b =
    if Map.get none (b.ctx n).took i = some t then b
    else trigger (cluOf (engOf n)) (b.setCtx n (marked b.now t i (b.ctx n))) := by
  have hidle : ((trigger (cluOf (engOf n)) (b.setCtx n (marked b.now t i (b.ctx n)))).ctx n).act = .idle := by
    rw [trigger, modClu_eq, ctx_setClu, ctx_setCtx_same]
    exact h
  rw [setLatch_eq, settle_of_idle hidle, wakeYield_of_idle hidle]

theorem not_queued_of_parked {ch : Chan} (h : parked b ch = true) : queued b ch = false := by
  unfold parked at h
  simp only [Bool.and_eq_true, Bool.not_eq_true'] at h
  exact h.1.2

/-- A channel that is not queued joins the queue of its saved class. -/
theorem joinReady_of_not_queued {ch : Chan} (h : queued b ch = false) : joinReady ch b = trigger (cluOf (homeOf ch)) (b.setEng (homeOf ch)
    (if csbHigh b ch then { b.eng (homeOf ch) with rdyHi := (b.eng (homeOf ch)).rdyHi ++ [ch] }
     else { b.eng (homeOf ch) with rdyLo := (b.eng (homeOf ch)).rdyLo ++ [ch] })) := by
  rw [joinReady, if_neg (by rw [h]; exact nofun), modEng_eq]

end

section
variable {b : Block} {t : Tick × Nat} {i : BitVec 3} {ch : Chan} (hsec : b.fenced (secOf (homeOf ch)) = false)
include hsec

theorem channelEvent_unbound (hv : csbValid b ch = false) :
    channelEvent t i ch b = detect (homeOf ch).toNat 0x22 (ch.setWidth 24 ||| i.setWidth 24 <<< 16) b := by
  unfold channelEvent
  rw [if_neg (by rw [hsec]; exact nofun), if_pos (by rw [hv]; rfl)]

theorem channelEvent_resident (hv : csbValid b ch = true) {n : CtxNo} (hn : residentIn b ch = some n) :
    channelEvent t i ch b = setLatch t n i.toNat b := by
  unfold channelEvent
  rw [if_neg (by rw [hsec]; exact nofun), if_neg (by rw [hv]; exact nofun)]
  simp only [hn]

theorem channelEvent_absent (hv : csbValid b ch = true) (hn : residentIn b ch = none) :
    let m := trigger (cluOf (homeOf ch)) (setEntry ch (putBit (chEntry b ch) i.toNat true) b)
    channelEvent t i ch b = if parked m ch && (csbWake m ch).getLsbD i.toNat then joinReady ch m else m := by
  unfold channelEvent
  rw [if_neg (by rw [hsec]; exact nofun), if_neg (by rw [hv]; exact nofun)]
  simp only [hn]

end

/-- An enabled context takes the first ready channel, of the high class before the low one. -/
theorem nextReady_eq (g : Eng) (k : CtxId) : nextReady g k = if g.ctxEn.getLsbD k.toNat then (g.rdyHi ++ g.rdyLo).head? else none := by
  unfold nextReady Eng.ready
  cases g.rdyHi <;> rfl

section
variable {b : Block} {n : CtxNo}

theorem onlyParts_setCtx (b : Block) (n : CtxNo) (c : Ctx) : OnlyParts b (b.setCtx n c) n c (b.eng (engOf n)) :=
  ⟨rfl, fun m => ctx_setCtx b n c m, fun x => by
    rw [eng_setCtx]
    split
    · next h => rw [h]
    · rfl⟩

theorem onlyParts_setEng_setCtx (b : Block) (l : List Lease) (n : CtxNo) (c : Ctx) (g : Eng) :
    OnlyParts { b with leases := l } ({ b.setEng (engOf n) g with leases := l }.setCtx n c) n c g :=
  ⟨rfl, fun m => by rw [ctx_setCtx]; rfl, fun x => by rw [eng_setCtx]; exact eng_setEng b (engOf n) g x⟩

theorem onlyParts_parkSpillStart {wakeAt : Tick} {wake : BitVec 9} {ch : Chan} (hact : (b.ctx n).act = .park wakeAt wake)
    (hchan : (b.ctx n).chan = some ch) (hready : parkReady b n = true) {inc : Option Chan} (hinc : nextReady (b.eng (engOf n)) (ctxOf n) = inc) :
    OnlyParts { b with leases := b.leases.filter (fun l => l.owner != n) } (opParkSpillStart n b) n
      { b.ctx n with upc := (b.ctx n).upc + 1, act := .swap (some (ch, wakeAt, wake)) inc }
      (if inc.isSome then (b.eng (engOf n)).popReady else b.eng (engOf n)) := by
  unfold opParkSpillStart
  split
  · next hp hc =>
    rw [hact] at hp
    rw [hchan] at hc
    cases hp
    cases hc
    rw [if_pos hready]
    dsimp only
    rw [hinc]
    cases inc with
    | some i => exact onlyParts_setEng_setCtx b (b.leases.filter (fun l => l.owner != n)) n _ _
    | none => exact onlyParts_setCtx { b with leases := b.leases.filter (fun l => l.owner != n) } n _
  · next hno => exact absurd hchan (hno _ _ _ hact)

theorem opChannelFillStart_eq {ch : Chan} (hlive : engineLive b (engOf n) = true) (hfree : (b.ctx n).chan = none)
    (hidle : (b.ctx n).act = .idle) (hreq : (b.eng (engOf n)).dbg.haltReq = false) (hrun : (b.eng (engOf n)).halted = false)
    (hnext : nextReady (b.eng (engOf n)) (ctxOf n) = some ch) : opChannelFillStart n b =
    (b.setEng (engOf n) (b.eng (engOf n)).popReady).setCtx n { b.ctx n with act := .swap none (some ch) } := by
  unfold opChannelFillStart
  dsimp only
  rw [if_pos (by simp [hlive, hfree, hidle, hreq, hrun]), hnext]
  rfl

end

/-! ### The bytes of a value, and of a state block (R59, R60) -/

@[simp] theorem length_bytesOf {w : Nat} (n : Nat) (v : BitVec w) : (bytesOf n v).length = n := by simp [bytesOf]

theorem bytesOf_succ {w : Nat} (n : Nat) (v : BitVec w) : bytesOf (n + 1) v = v.extractLsb' 0 8 :: bytesOf n (v >>> 8) := by
  rw [bytesOf, List.range_succ_eq_map, List.map_cons, List.map_map]
  refine congrArg (_ :: ·) (List.map_congr_left fun i _ => BitVec.eq_of_getLsbD_eq fun j hj => ?_)
  simp [BitVec.getLsbD_ushiftRight, hj, Nat.mul_add, Nat.add_comm, Nat.add_left_comm]

/-- The low bytes of a value spell the value without its higher bits. -/
theorem natOfBytes_bytesOf {w : Nat} (n : Nat) : ∀ v : BitVec w, natOfBytes (bytesOf n v) = v.toNat % 2 ^ (8 * n) := by
  induction n with
  | zero => exact fun v => by rw [Nat.mul_zero, Nat.pow_zero, Nat.mod_one]; rfl
  | succ n ih =>
    intro v
    rw [bytesOf_succ, natOfBytes, ih, BitVec.toNat_ushiftRight, BitVec.extractLsb'_toNat, Nat.shiftRight_zero, Nat.shiftRight_eq_div_pow,
      Nat.mul_add, Nat.mul_one, Nat.add_comm (8 * n) 8, Nat.pow_add, Nat.mod_mul]

/-- A value that fits its bytes is read back whole. -/
theorem ofBytes_bytesOf {w n : Nat} (h : w ≤ 8 * n) (u : Nat) (v : BitVec w) : ofBytes u (bytesOf n v) = v.setWidth u := by
  have hlt : v.toNat < 2 ^ (8 * n) := lt_of_lt_of_le v.isLt (Nat.pow_le_pow_right (by decide) h)
  rw [ofBytes, natOfBytes_bytesOf, Nat.mod_eq_of_lt hlt, BitVec.ofNat_toNat]

/-- A number that is stored in wider bytes is read back whole. -/
theorem ofBytes_bytesOf_setWidth {w u n : Nat} (h : w ≤ u) (hn : u ≤ 8 * n) (v : BitVec w) :
    ofBytes w (bytesOf n (v.setWidth u)) = v := by
  rw [ofBytes_bytesOf hn, BitVec.setWidth_setWidth_of_le _ h, BitVec.setWidth_eq]

theorem ofBytes_bytesOf_same {w n : Nat} (h : w ≤ 8 * n) (v : BitVec w) : ofBytes w (bytesOf n v) = v := by
  rw [ofBytes_bytesOf h, BitVec.setWidth_eq]

/-- A field that follows `p` in a block is what the block holds from there. -/
theorem take_drop_append {α : Type} {p x : List α} (r : List α) {k n : Nat} (hp : p.length = k) (hx : x.length = n) :
    ((p ++ (x ++ r)).drop k).take n = x := by
  rw [List.drop_left' hp, List.take_left' hx]

/-- The i-th of the registers that are stored one after the other. -/
theorem take_drop_flatten (l : List Word) (r : List Byte) : ∀ (i : Nat) (h : i < l.length),
    (((l.map (bytesOf 6)).flatten ++ r).drop (6 * i)).take 6 = bytesOf 6 l[i] := by
  induction l with
  | nil => exact fun i h => absurd h (Nat.not_lt_zero i)
  | cons x l ih =>
    intro i h
    rw [List.map_cons, List.flatten_cons, List.append_assoc]
    cases i with
    | zero => exact take_drop_append (p := []) _ rfl (length_bytesOf 6 x)
    | succ i =>
      rw [Nat.mul_succ, Nat.add_comm, ← List.drop_drop, List.drop_left' (length_bytesOf 6 x)]
      exact ih i (Nat.lt_of_succ_lt_succ h)

/-- Sixteen registers are read back from their bytes. -/
theorem regs16_stored (v : Vector Word 16) (r : List Byte) : regs16 ((v.toList.map (bytesOf 6)).flatten ++ r) = v := by
  refine Vector.ext fun i h => ?_
  rw [regs16, Vector.getElem_ofFn]
  dsimp only
  rw [take_drop_flatten v.toList r i (by simpa using h), ofBytes_bytesOf_same (by decide)]
  simp

theorem length_stored (v : Vector Word 16) : (v.toList.map (bytesOf 6)).flatten.length = 96 := by
  rw [List.length_flatten, List.map_map, show List.length ∘ bytesOf 6 = fun _ : Word => 6 from funext fun x => length_bytesOf 6 x]
  simp

section
variable (ch : Chan) (c : Ctx) (wake : BitVec 9) (wakeat : Tick) (gen : Byte)

/-- The fields of a state block, in its order. -/
def csbFields : List (List Byte) :=
  [bytesOf 2 ch, bytesOf 2 (c.upc.setWidth 16), bytesOf 2 c.lc, bytesOf 2 (c.tenant.setWidth 16), bytesOf 2 (wake.setWidth 16),
   [1, gen], bytesOf 2 c.evMask, [0, 0], bytesOf 6 c.stat, bytesOf 6 wakeat, bytesOf 12 c.cmap, bytesOf 6 c.stkBase, [0, 0],
   (c.d.toList.map (bytesOf 6)).flatten, (c.a.toList.map (bytesOf 6)).flatten, bytesOf 13 c.acc[0], [0, 0, 0]]

theorem csbBytes_eq_flatten : csbBytes ch c wake wakeat true gen = (csbFields ch c wake wakeat gen).flatten := by
  simp only [csbBytes, csbFields, List.flatten_cons, List.flatten_nil, List.append_assoc, List.append_nil, if_true]

/-- The bytes that each field takes. -/
def csbWidths : List Nat := [2, 2, 2, 2, 2, 2, 2, 2, 6, 6, 12, 6, 2, 96, 96, 13, 3]

theorem lengths_csbFields : (csbFields ch c wake wakeat gen).map List.length = csbWidths := by
  simp only [csbFields, csbWidths, List.map_cons, List.map_nil, length_bytesOf, length_stored, List.length_cons, List.length_nil]

/-- What the block holds from the i-th field on. -/
theorem csbBytes_drop (i : Nat) {k : Nat} (hk : (csbWidths.take i).sum = k) :
    (csbBytes ch c wake wakeat true gen).drop k = ((csbFields ch c wake wakeat gen).drop i).flatten := by
  rw [csbBytes_eq_flatten]
  conv_lhs => rw [← List.take_append_drop i (csbFields ch c wake wakeat gen), List.flatten_append]
  exact List.drop_left' (by rw [List.length_flatten, List.map_take, lengths_csbFields, hk])

/-- Where a field stands, and what the block holds there. -/
theorem csbBytes_field (i : Nat) {k n : Nat} {x : List Byte} {r : List (List Byte)} (hk : (csbWidths.take i).sum = k)
    (hx : (csbFields ch c wake wakeat gen).drop i = x :: r) (hn : x.length = n) :
    ((csbBytes ch c wake wakeat true gen).drop k).take n = x := by
  rw [csbBytes_drop ch c wake wakeat gen i hk, hx, List.flatten_cons]
  exact List.take_left' hn

/-- A state block gives back what it lists (R59), and 0 for the rest (R60). -/
theorem csbCtx_csbBytes (c0 : Ctx) : csbCtx (csbBytes ch c wake wakeat true gen) c0 =
    { upc := c.upc, lc := c.lc, tenant := c.tenant, evMask := c.evMask, stat := c.stat &&& statMask
      cmap := c.cmap &&& ~~~0x3F
      stkBase := c.stkBase, d := c.d, a := c.a, acc := (Vector.replicate 4 0).set 0 c.acc[0], halt := c0.halt, inj := c0.inj } := by
  have hfield {i k n : Nat} {x : List Byte} {r : List (List Byte)} := @csbBytes_field ch c wake wakeat gen i k n x r
  have hupc := hfield (i := 1) (k := 2) rfl rfl (length_bytesOf 2 _)
  have hlc := hfield (i := 2) (k := 4) rfl rfl (length_bytesOf 2 _)
  have htenant := hfield (i := 3) (k := 6) rfl rfl (length_bytesOf 2 _)
  have hmask := hfield (i := 6) (k := 0x0C) rfl rfl (length_bytesOf 2 _)
  have hstat := hfield (i := 8) (k := 0x10) rfl rfl (length_bytesOf 6 _)
  have hcmap := hfield (i := 10) (k := 0x1C) rfl rfl (length_bytesOf 12 _)
  have hstk := hfield (i := 11) (k := 0x28) rfl rfl (length_bytesOf 6 _)
  have hacc := hfield (i := 15) (k := 0xF0) rfl rfl (length_bytesOf 13 _)
  have hdrop {i k : Nat} := @csbBytes_drop ch c wake wakeat gen i k
  have hd : regs16 ((csbBytes ch c wake wakeat true gen).drop 0x30) = c.d := by
    rw [hdrop (i := 13) (k := 0x30) rfl]
    exact regs16_stored c.d _
  have ha : regs16 ((csbBytes ch c wake wakeat true gen).drop 0x90) = c.a := by
    rw [hdrop (i := 14) (k := 0x90) rfl]
    exact regs16_stored c.a _
  rw [csbCtx, hupc, hlc, htenant, hmask, hstat, hcmap, hstk, hacc, hd, ha, ofBytes_bytesOf_setWidth (by decide) (by decide),
    ofBytes_bytesOf_same (by decide), ofBytes_bytesOf_setWidth (by decide) (by decide), ofBytes_bytesOf_same (by decide),
    ofBytes_bytesOf_same (by decide), ofBytes_bytesOf_same (by decide), ofBytes_bytesOf_same (by decide), ofBytes_bytesOf_same (by decide)]

end

/-! ### What a transfer of a state block changes (R243, R248) -/

theorem linesRead_csbRead (a x n : Nat) (ecc : Ecc) (b : Block) : LinesRead b (csbRead a x n ecc b) := by
  unfold csbRead
  split
  · rfl
  · exact linesRead_eccAt _ _ b

/-- Nothing differs but what an access on a port of the dual-port region counts, records and notes. -/
abbrev Touched (b t : Block) : Prop := t = { b with free := t.free, touched := t.touched, units := t.units, imp := t.imp }

theorem touched_meet (spine wr : Bool) (l : Nat) (b : Block) : Touched b (meet spine wr l b).1 := by
  unfold meet
  split
  · rfl
  · dsimp only
    split
    · rfl
    · rfl

theorem touched_noteTouch {b t : Block} (h : Touched b t) (spine wr : Bool) (l : Nat) : Touched b (noteTouch spine wr l t) := by
  unfold noteTouch Touched
  rw [h]

theorem touched_touch (spine wr : Bool) (a n : Nat) (b : Block) : Touched b (touch spine wr a n b) := by
  have hfold : ∀ (ls : List Nat) (t : Block), Touched b t → Touched b (ls.foldl (fun b l => noteTouch spine wr l (meet spine wr l b).1) t) := by
    intro ls
    induction ls with
    | nil => exact fun _ h => h
    | cons l ls ih =>
      intro t h
      refine ih _ (touched_noteTouch ?_ spine wr l)
      have hmeet := touched_meet spine wr l t
      unfold Touched at *
      rw [hmeet, h]
  exact hfold _ b rfl

theorem writeBytesAt_frame (l : List Byte) : ∀ (b : Block) (a : Nat), writeBytesAt b a l = { b with mem := (writeBytesAt b a l).mem } := by
  induction l with
  | nil => exact fun _ _ => rfl
  | cons v l ih =>
    intro b a
    rw [writeBytesAt, ih]
    rfl

section
variable (n : CtxNo) (a : Nat) (l : List Byte) (b : Block)

theorem fab_bankWrite : (bankWrite n a l b).fab = b.fab := by
  rw [bankWrite, breakLeases, memWrite, writeBytesAt_frame, touched_touch]

theorem now_bankWrite : (bankWrite n a l b).now = b.now := by
  rw [bankWrite, breakLeases, memWrite, writeBytesAt_frame, touched_touch]

end

/-- The context after its spill: it turns to its fill, or is free, and then a swap is counted and an injected word has
found no channel. -/
def spilled (n : CtxNo) (inc : Option Chan) (c : Ctx) (now : Nat) (b : Block) : Block := match inc with
  | some i => b.setCtx n { act := .swap none (some i), halt := c.halt, inj := c.inj }
  | none => (b.setCtx n {}).setEng (engOf n) { b.eng (engOf n) with
      swapCnt := (b.eng (engOf n)).swapCnt.count now 1, injErr := (b.eng (engOf n)).injErr.setIf now c.inj.isSome }

theorem spilled_setEntry_none (n : CtxNo) (c : Ctx) (now : Nat) (ch : Chan) (v : Byte) (m : Block) : spilled n none c now (setEntry ch v m) =
    ({ m with fab := { m.fab with chEv := Map.set 0 m.fab.chEv ch.toNat v } }.setCtx n {}).setEng (engOf n) { m.eng (engOf n) with
      swapCnt := (m.eng (engOf n)).swapCnt.count now 1, injErr := (m.eng (engOf n)).injErr.setIf now c.inj.isSome } := rfl

theorem spilled_none (n : CtxNo) (c : Ctx) (b : Block) : spilled n none c b.now b =
    countSwap (engOf n) ((b.setCtx n {}).modEng (engOf n) (fun g => { g with injErr := g.injErr.setIf b.now c.inj.isSome })) := by
  rw [countSwap, modEng_eq, modEng_eq, setEng_setEng, eng_setEng_same]
  rfl

section
variable {b m : Block} {n : CtxNo} {ecc : Ecc} {ch : Chan} {wakeAt : Tick} {wake : BitVec 9} {inc : Option Chan}

section
variable (hact : (b.ctx n).act = .swap (some (ch, wakeAt, wake)) inc) (hm : csbRead (csbAddr b ch) (csbAddr b ch + 8) 8 ecc b = m)
include hact hm

theorem opChannelSpillEnd_lost (h : csbFails m (csbAddr b ch) (csbAddr b ch + 8) 8 = true) :
    opChannelSpillEnd n ecc b = (resetCtx 1 n m).cut (partCtx n) := by
  unfold opChannelSpillEnd
  simp only [hact, hm, h, if_true]

/-- The write of the state block, the event table's entry, and then the context. -/
theorem opChannelSpillEnd_eq (h : csbFails m (csbAddr b ch) (csbAddr b ch + 8) 8 = false) {w y : Block}
    (hw : bankWrite n (csbAddr b ch) (csbBytes ch (m.ctx n) wake wakeAt true (readByte m (csbAddr b ch + 0x0B) + 1)) m = w)
    (hy : spilled n inc (m.ctx n) m.now (setEntry ch ((m.ctx n).latch.on.extractLsb' 0 8 ||| chEntry m ch) w) = y) :
    opChannelSpillEnd n ecc b = if wakes y ch then joinReady ch y else y := by
  have hentry : chEntry w ch = chEntry m ch := by rw [chEntry, chEntry, ← hw, fab_bankWrite]
  have hnow : w.now = m.now := by rw [← hw, now_bankWrite]
  unfold opChannelSpillEnd
  simp only [hact, hm, h, hw, hentry]
  rw [if_neg nofun]
  refine congrArg (fun y => if wakes y ch then joinReady ch y else y) ?_
  rw [← hy, ← hnow]
  cases inc with
  | some i => rfl
  | none => exact (spilled_none n (m.ctx n) (setEntry ch ((m.ctx n).latch.on.extractLsb' 0 8 ||| chEntry m ch) w)).symm

end

theorem onlyParts_filled (m : Block) (ch : Chan) (n : CtxNo) (c : Ctx) :
    OnlyParts { m with fab := { m.fab with chEv := Map.set 0 m.fab.chEv ch.toNat 0 } } (countSwap (engOf n) (setEntry ch 0 (m.setCtx n c)))
      n c { m.eng (engOf n) with swapCnt := (m.eng (engOf n)).swapCnt.count m.now 1 } :=
  ⟨rfl, fun k => by rw [countSwap, modEng_eq, ctx_setEng]; exact ctx_setCtx m n c k,
    fun x => by rw [countSwap, modEng_eq, eng_setEng]; rfl⟩

variable (hact : (b.ctx n).act = .swap none (some ch)) (hm : csbRead (csbAddr b ch) (csbAddr b ch) 256 ecc b = m)
include hact hm

theorem opChannelFillEnd_lost (h : csbFails m (csbAddr b ch) (csbAddr b ch) 256 = true) :
    opChannelFillEnd n ecc b = (resetCtx 1 n m).cut (partCtx n) := by
  unfold opChannelFillEnd
  simp only [hact, hm, h, if_true]

/-- The context takes the channel's state, and the swap is counted. -/
theorem onlyParts_channelFillEnd (h : csbFails m (csbAddr b ch) (csbAddr b ch) 256 = false) :
    OnlyParts { m with fab := { m.fab with chEv := Map.set 0 m.fab.chEv ch.toNat 0 } } (opChannelFillEnd n ecc b) n
      { csbCtx (readBytes m (csbAddr b ch) 256) (m.ctx n) with chan := some ch, latch := { old := (chEntry m ch).setWidth 24 } }
      { m.eng (engOf n) with swapCnt := (m.eng (engOf n)).swapCnt.count m.now 1 } := by
  unfold opChannelFillEnd
  simp only [hact, hm, h]
  rw [if_neg nofun]
  generalize csbCtx (readBytes m (csbAddr b ch) 256) (m.ctx n) = c
  exact onlyParts_filled m ch n _

end

theorem Agree.refl (b : Block) : Agree b b := ⟨rfl, fun _ => rfl, fun _ => rfl⟩

section
variable {s : State} {e : EngId} {k : CtxId} {ecc : Ecc} {ch : Chan} {wakeAt : Tick} {wake : BitVec 9} {b w : Block}
  (hb : csbRead (csbAddr s.blk ch) (csbAddr s.blk ch + 8) 8 ecc s.blk = b) (h : csbFails b (csbAddr s.blk ch) (csbAddr s.blk ch + 8) 8 = false)
  (hw : bankWrite (ctxNo e k) (csbAddr s.blk ch)
    (csbBytes ch (b.ctx (ctxNo e k)) wake wakeAt true (readByte b (csbAddr s.blk ch + 0x0B) + 1)) b = w)
include hb h hw

/-- The spill of a context that turns to its fill. -/
theorem gives_channelSpillEnd_some {i : Chan} (hact : (s.blk.ctx (ctxNo e k)).act = .swap (some (ch, wakeAt, wake)) (some i)) :
    let c := b.ctx (ctxNo e k)
    let m1 := { w with fab := { w.fab with chEv := Map.set 0 w.fab.chEv ch.toNat (c.latch.on.extractLsb' 0 8 ||| chEntry b ch) } }
    let m2 := m1.setCtx (ctxNo e k) { act := .swap none (some i), halt := c.halt, inj := c.inj }
    Gives (.channelSpillEnd e k ecc) s (fun t => Agree t (if wakes m2 ch then joinReady ch m2 else m2)) := by
  refine gives_of_exec (f := opChannelSpillEnd (ctxNo e k) ecc) rfl ?_
  rw [opChannelSpillEnd_eq hact hb h hw rfl]
  exact Agree.refl _

/-- The spill of a context that becomes free. -/
theorem gives_channelSpillEnd_none (hact : (s.blk.ctx (ctxNo e k)).act = .swap (some (ch, wakeAt, wake)) none) :
    let c := b.ctx (ctxNo e k)
    let g := w.eng e
    let m1 := { w with fab := { w.fab with chEv := Map.set 0 w.fab.chEv ch.toNat (c.latch.on.extractLsb' 0 8 ||| chEntry b ch) } }
    let m2 := (m1.setCtx (ctxNo e k) {}).setEng e { g with
          swapCnt := g.swapCnt.count b.now 1, injErr := g.injErr.setIf b.now c.inj.isSome }
    Gives (.channelSpillEnd e k ecc) s (fun t => Agree t (if wakes m2 ch then joinReady ch m2 else m2)) := by
  have he : engOf (ctxNo e k) = e := engOf_ctxNo e k
  refine gives_of_exec (f := opChannelSpillEnd (ctxNo e k) ecc) rfl ?_
  rw [opChannelSpillEnd_eq hact hb h hw (spilled_setEntry_none (ctxNo e k) (b.ctx (ctxNo e k)) b.now ch _ w), he]
  exact Agree.refl _

end

/-- Settles O28: an event spreads engine by engine and latch by latch, and reaches each context by its own selectors and mask; the
other commands' effects are read off branch by branch, and a state block's fields are read back where its widths place them. -/
theorem channelsMoveAndEventsReachTheirLatches : Obligations.ChannelsMoveAndEventsReachTheirLatches := by
  unfold Obligations.ChannelsMoveAndEventsReachTheirLatches
  refine ⟨?broadcast, ?channel, ?wakeat, ?parkStart, ?fillStart, ?spillEnd, ?fillEnd, ?round⟩
  case broadcast =>
    intro s x l b hq hev
    refine gives_of_exec (f := opConditionEvent) rfl ?_
    rw [opConditionEvent_broadcast hq hev]
    have hgo := delivering_broadcast { b with fab := { b.fab with queue := l } } x.ev (x.stamp, x.era)
    exact ⟨hgo.1.frame, hgo.1.clu, fun m => ⟨fun hw => ctx_broadcast (x.stamp, x.era) hw, fun _ => hgo.2 m⟩⟩
  case channel =>
    intro s x l i ch b e hq hev hsec
    have hdoes : Does .conditionEvent s (channelEvent (x.stamp, x.era) i ch b) := by
      have h : Does .conditionEvent s (opConditionEvent s.blk) := does_of_exec rfl
      rwa [opConditionEvent_chan hq hev] at h
    refine ⟨fun hv => ?_, fun hv n hn hidle => ?_, fun hv hn => ?_⟩
    · rwa [channelEvent_unbound hsec hv] at hdoes
    · rwa [channelEvent_resident hsec hv hn, setLatch_of_idle hidle] at hdoes
    · rw [channelEvent_absent hsec hv hn] at hdoes
      exact hdoes
  case wakeat =>
    intro s ch b e hon hsec hpark hwake hreach
    have hdoes : Does (.wakeatReached ch) s (opWakeatReached ch b) := does_of_exec rfl
    rwa [opWakeatReached, if_pos (by simp [hon, hsec, hpark, hwake, hreach, e]), joinReady_of_not_queued (not_queued_of_parked hpark)] at hdoes
  case parkStart =>
    intro s e k wakeAt wake ch b n inc hact hchan hready
    have hinc : nextReady (b.eng (engOf n)) (ctxOf n) = inc := by rw [nextReady_eq, engOf_ctxNo, ctxOf_ctxNo]
    have hparts := onlyParts_parkSpillStart hact hchan hready hinc
    rw [engOf_ctxNo] at hparts
    exact gives_of_exec (f := opParkSpillStart n) rfl hparts
  case fillStart =>
    intro s e k ch b n hlive hfree hidle hreq hrun hen hhead
    have he : engOf n = e := engOf_ctxNo e k
    have hnext : nextReady (b.eng (engOf n)) (ctxOf n) = some ch := by rw [nextReady_eq, he, ctxOf_ctxNo, if_pos hen, hhead]
    refine gives_of_exec (f := opChannelFillStart n) rfl ?_
    rw [opChannelFillStart_eq (by rw [he]; exact hlive) hfree hidle (by rw [he]; exact hreq) (by rw [he]; exact hrun) hnext, ← he]
    exact onlyParts_set b b.free n _ _
  case spillEnd =>
    refine fun s e k ecc wakeAt wake ch inc hact => ⟨fun h => ?_, fun h => ?_⟩
    · have hdoes : Does (.channelSpillEnd e k ecc) s (opChannelSpillEnd (ctxNo e k) ecc s.blk) := does_of_exec rfl
      rwa [opChannelSpillEnd_lost hact rfl h] at hdoes
    · cases inc with
      | some i => exact gives_channelSpillEnd_some rfl h rfl hact
      | none => exact gives_channelSpillEnd_none rfl h rfl hact
  case fillEnd =>
    intro s e k ecc ch n a b hact
    refine ⟨fun h => ?_, fun h => ?_⟩
    · have hdoes : Does (.channelFillEnd e k ecc) s (opChannelFillEnd n ecc s.blk) := does_of_exec rfl
      rwa [opChannelFillEnd_lost hact rfl h] at hdoes
    · have hparts := onlyParts_channelFillEnd hact rfl h
      rw [engOf_ctxNo] at hparts
      exact gives_of_exec (f := opChannelFillEnd n ecc) rfl hparts
  case round => exact fun c c0 ch wake wakeat gen => csbCtx_csbBytes ch c wake wakeat gen c0

end Sys2Proof.Machine

/-! The microword: where its fields lie, and what its parity finds (R77, R78). -/

namespace Sys2Proof
open Machine

/-! ### The fields of a word (R77) -/

section
variable {w : Nat} (x : BitVec w) {lo n : Nat}

theorem ofBool_getLsbD (k : Nat) : BitVec.ofBool (x.getLsbD k) = x.extractLsb' k 1 := by
  ext i hi
  have hi0 : i = 0 := by omega
  subst hi0
  simp

theorem getLsbD_of_extractLsb' {z : BitVec n} (h : x.extractLsb' lo n = z) {i : Nat} (hi : i < n) : x.getLsbD (lo + i) = z.getLsbD i := by
  rw [← h, BitVec.getLsbD_extractLsb']
  simp [hi]

end

/-- The word's fields, one behind the other. -/
theorem MFields.extractLsb'_word (f : MFields) (lo n : Nat) : f.word.extractLsb' lo n =
    (f.csel ++ BitVec.ofBool f.cpol ++ f.seq ++ f.target ++ f.aluop ++ f.dst ++ f.srca ++ f.srcb ++ f.memop ++ f.mbase ++ f.mmode ++
      f.mtag ++ f.laneop ++ f.lq ++ f.xfer ++ BitVec.ofBool f.setf ++ f.wsel ++ f.aux8 ++ f.disp16 ++ f.imm48).extractLsb' lo n := rfl

theorem MFields.cpol_word (f : MFields) : f.word.cpol = f.cpol := by
  have h := ofBool_getLsbD f.word 155
  simp (disch := decide) only [MFields.extractLsb'_word, BitVec.extractLsb'_append_eq_of_le, BitVec.extractLsb'_append_eq_of_add_le,
    Nat.reduceSub, BitVec.extractLsb'_eq_self] at h
  exact BitVec.ofBool_eq_iff_eq.1 h

theorem MFields.setf_word (f : MFields) : f.word.setf = f.setf := by
  have h := ofBool_getLsbD f.word 78
  simp (disch := decide) only [MFields.extractLsb'_word, BitVec.extractLsb'_append_eq_of_le, BitVec.extractLsb'_append_eq_of_add_le,
    Nat.reduceSub, BitVec.extractLsb'_eq_self] at h
  exact BitVec.ofBool_eq_iff_eq.1 h

theorem MFields.fields_word (f : MFields) : f.word.fields = f := by
  have hc := f.cpol_word
  have hs := f.setf_word
  unfold MWord.fields
  rw [hc, hs]
  simp only [MWord.csel, MWord.seq, MWord.target, MWord.aluop, MWord.dst, MWord.srca, MWord.srcb, MWord.memop, MWord.mbase, MWord.mmode,
    MWord.mtag, MWord.laneop, MWord.lq, MWord.xfer, MWord.wsel, MWord.aux8, MWord.disp16, MWord.imm48, MFields.extractLsb'_word]
  simp (disch := decide) only [BitVec.extractLsb'_append_eq_of_le, BitVec.extractLsb'_append_eq_of_add_le, Nat.reduceSub, BitVec.extractLsb'_eq_self]

theorem MWord.word_fields (w : MWord) : w.fields.word = w := by
  unfold MFields.word MWord.fields
  simp only [MWord.csel, MWord.seq, MWord.target, MWord.aluop, MWord.dst, MWord.srca, MWord.srcb, MWord.memop, MWord.mbase, MWord.mmode,
    MWord.mtag, MWord.laneop, MWord.lq, MWord.xfer, MWord.wsel, MWord.aux8, MWord.disp16, MWord.imm48, MWord.cpol, MWord.setf,
    ofBool_getLsbD]
  simp only [BitVec.extractLsb'_append_extractLsb'_eq_extractLsb']
  exact BitVec.extractLsb'_eq_self

/-! ### Parity (R78) -/

/-- The number whose bit `k`, below `n`, is `p k`. -/
theorem foldl_add_two_pow (p : Nat → Bool) (n : Nat) : (List.range n).foldl (fun a k => a + if p k then 2 ^ k else 0) 0 < 2 ^ n ∧
    ∀ j, ((List.range n).foldl (fun a k => a + if p k then 2 ^ k else 0) 0).testBit j = (decide (j < n) && p j) := by
  induction n with
  | zero => simp
  | succ n ih =>
    obtain ⟨hlt, hbit⟩ := ih
    simp only [List.range_succ, List.foldl_append, List.foldl_cons, List.foldl_nil]
    generalize (List.range n).foldl (fun a k => a + if p k then 2 ^ k else 0) 0 = a at hlt hbit
    by_cases hp : p n = true
    · simp only [hp, if_true]
      refine ⟨by omega, fun j => ?_⟩
      rw [Nat.add_comm, ← Nat.mul_one (2 ^ n), Nat.two_pow_add_eq_or_of_lt hlt, Nat.testBit_or, hbit, Nat.mul_one, Nat.testBit_two_pow]
      rcases Nat.lt_trichotomy j n with h | rfl | h
      · simp [h, Nat.lt_succ_of_lt h, Nat.ne_of_gt h]
      · simp [hp]
      · simp [Nat.not_lt_of_gt h, Nat.ne_of_lt h, show ¬ j < n + 1 by omega]
    · simp only [hp, if_false, Nat.add_zero, Bool.false_eq_true]
      refine ⟨by omega, fun j => ?_⟩
      rw [hbit]
      rcases Nat.lt_trichotomy j n with h | rfl | h
      · simp [h, Nat.lt_succ_of_lt h]
      · simp [hp]
      · simp [Nat.not_lt_of_gt h, show ¬ j < n + 1 by omega]

theorem getLsbD_parity (w : MWord) {k : Nat} (hk : k < 10) : (parity w).getLsbD k = odd (w.extractLsb' (16 * k) 16) := by
  rw [parity, BitVec.getLsbD_ofNat, (foldl_add_two_pow (fun k => odd (w.extractLsb' (16 * k) 16)) 10).2 k]
  simp [hk]

/-- The ones of slice `k` of a word. -/
theorem popcount_slice {n : Nat} (w : BitVec n) (k : Nat) :
    popcount (w.extractLsb' (16 * k) 16) = ((List.range 16).filter (fun j => w.getLsbD (16 * k + j))).length := by
  unfold popcount
  congr 1
  refine List.filter_congr fun j hj => ?_
  rw [BitVec.getLsbD_extractLsb', decide_eq_true (List.mem_range.1 hj), Bool.true_and]

/-- Bits that are added modulo 2 add their numbers of ones modulo 2. -/
theorem length_filter_xor (p q : Nat → Bool) (l : List Nat) :
    (l.filter (fun i => p i ^^ q i)).length % 2 = ((l.filter p).length + (l.filter q).length) % 2 := by
  induction l with
  | nil => rfl
  | cons i l ih =>
    cases hp : p i <;> cases hq : q i <;> simp [hp, hq] <;> omega

theorem odd_xor {n : Nat} (x y : BitVec n) : odd (x ^^^ y) = (odd x ^^ odd y) := by
  have h := length_filter_xor (fun i => x.getLsbD i) (fun i => y.getLsbD i) (List.range n)
  unfold odd popcount
  simp only [BitVec.getLsbD_xor, h]
  rcases Nat.mod_two_eq_zero_or_one ((List.range n).filter (fun i => x.getLsbD i)).length with hx | hx <;>
    rcases Nat.mod_two_eq_zero_or_one ((List.range n).filter (fun i => y.getLsbD i)).length with hy | hy <;>
    simp [Nat.add_mod, hx, hy]

/-! ### A stored word (R78) -/

theorem stored_word (w : MWord) : (stored w).word = w := by
  unfold PWord.word stored
  rw [BitVec.extractLsb'_append_eq_of_add_le (by decide), BitVec.extractLsb'_eq_self]

theorem stored_parity (w : MWord) : (stored w).extractLsb' 160 10 = parity w := by
  unfold stored
  rw [BitVec.extractLsb'_append_eq_of_le (by decide)]
  exact BitVec.extractLsb'_eq_self

theorem stored_bad (w : MWord) : (stored w).bad = 0 := by
  rw [PWord.bad, stored_word, stored_parity, BitVec.xor_self]
  rfl

theorem getLsbD_stored_parity (w : MWord) {k : Nat} (hk : k < 10) :
    (stored w).getLsbD (160 + k) = odd (w.extractLsb' (16 * k) 16) := by
  rw [getLsbD_of_extractLsb' _ (stored_parity w) hk, getLsbD_parity w hk]

/-- The check of a stored word that an upset `u` has met sees the upset alone. -/
theorem getLsbD_bad_upset (w : MWord) (u : PWord) {k : Nat} (hk : k < 10) :
    ((stored w ^^^ u).bad).getLsbD k = (odd (u.word.extractLsb' (16 * k) 16) ^^ u.getLsbD (160 + k)) := by
  have hword : (stored w ^^^ u : PWord).word = w ^^^ u.word := by
    unfold PWord.word
    rw [BitVec.extractLsb'_xor]
    exact congrArg (· ^^^ _) (stored_word w)
  have hpar : BitVec.extractLsb' 160 10 (stored w ^^^ u) = parity w ^^^ u.extractLsb' 160 10 := by
    rw [BitVec.extractLsb'_xor, stored_parity]
  rw [PWord.bad, hword, hpar, BitVec.getLsbD_xor, BitVec.getLsbD_xor, getLsbD_parity _ hk, getLsbD_parity _ hk, BitVec.extractLsb'_xor,
    odd_xor, BitVec.getLsbD_extractLsb', decide_eq_true hk, Bool.true_and]
  cases odd (w.extractLsb' (16 * k) 16) <;> simp

end Sys2Proof

namespace Sys2Proof.Machine
open Sys2Proof

/-- Settles O60: the fields by `MFields.fields_word` and `MWord.word_fields`, the parity by its bits (`getLsbD_stored_parity`). -/
theorem microwordsEncodeAndDecodeWithParity : Obligations.MicrowordsEncodeAndDecodeWithParity := by
  unfold Obligations.MicrowordsEncodeAndDecodeWithParity
  refine ⟨MFields.fields_word, MWord.word_fields, fun f i => ?fields, fun w k hk => ?even, fun w => ⟨stored_word w, stored_bad w, ?same⟩,
    fun w u k hk => ?upset⟩
  case fields =>
    have hf := f.fields_word
    refine ⟨fun h => ?_, f.cpol_word, fun h => ?_, fun h => ?_, fun h => ?_, fun h => ?_, fun h => ?_, fun h => ?_, fun h => ?_,
      fun h => ?_, fun h => ?_, fun h => ?_, fun h => ?_, fun h => ?_, fun h => ?_, f.setf_word, fun h => ?_, fun h => ?_, fun h => ?_,
      fun h => ?_⟩
    · exact getLsbD_of_extractLsb' _ (congrArg MFields.csel hf) h
    · exact getLsbD_of_extractLsb' _ (congrArg MFields.seq hf) h
    · exact getLsbD_of_extractLsb' _ (congrArg MFields.target hf) h
    · exact getLsbD_of_extractLsb' _ (congrArg MFields.aluop hf) h
    · exact getLsbD_of_extractLsb' _ (congrArg MFields.dst hf) h
    · exact getLsbD_of_extractLsb' _ (congrArg MFields.srca hf) h
    · exact getLsbD_of_extractLsb' _ (congrArg MFields.srcb hf) h
    · exact getLsbD_of_extractLsb' _ (congrArg MFields.memop hf) h
    · exact getLsbD_of_extractLsb' _ (congrArg MFields.mbase hf) h
    · exact getLsbD_of_extractLsb' _ (congrArg MFields.mmode hf) h
    · exact getLsbD_of_extractLsb' _ (congrArg MFields.mtag hf) h
    · exact getLsbD_of_extractLsb' _ (congrArg MFields.laneop hf) h
    · exact getLsbD_of_extractLsb' _ (congrArg MFields.lq hf) h
    · exact getLsbD_of_extractLsb' _ (congrArg MFields.xfer hf) h
    · exact getLsbD_of_extractLsb' _ (congrArg MFields.wsel hf) h
    · exact getLsbD_of_extractLsb' _ (congrArg MFields.aux8 hf) h
    · exact getLsbD_of_extractLsb' _ (congrArg MFields.disp16 hf) h
    · simpa only [Nat.zero_add] using getLsbD_of_extractLsb' _ (congrArg MFields.imm48 hf) h
  case even =>
    simp only [getLsbD_stored_parity w hk, odd, popcount_slice, beq_iff_eq]
    split <;> omega
  case same =>
    intro i hi
    have h := getLsbD_of_extractLsb' _ (stored_word w) hi
    rwa [Nat.zero_add] at h
  case upset =>
    have hbit : ∀ j ∈ List.range 16, u.word.getLsbD (16 * k + j) = u.getLsbD (16 * k + j) := fun j hj => by
      have hj16 := List.mem_range.1 hj
      rw [PWord.word, BitVec.getLsbD_extractLsb', decide_eq_true (by omega), Bool.true_and, Nat.zero_add]
    rw [getLsbD_bad_upset w u hk, odd, popcount_slice, List.filter_congr hbit]
    generalize ((List.range 16).filter (fun j => u.getLsbD (16 * k + j))).length = ones
    rw [Bool.eq_iff_iff]
    cases u.getLsbD (160 + k)
    · simp
    · simp only [Bool.xor_true, Bool.not_eq_true', beq_eq_false_iff_ne, ne_eq, if_true, decide_eq_true_eq]
      omega

end Sys2Proof.Machine

/-! A word whose condition is false, by whichever of its rows it issues (R84). -/

namespace Sys2Proof.Machine
open Sys2Proof

/-- Each row of a microword's slot issues the next word of its context. -/
theorem exec_of_wordRow {e : EngId} {k : CtxId} {i : Instr} {p : MWord → Bool} (h : WordRow e k i p) (s : State) :
    exec i s = atTurn (turnOf i) (issueAs p (ctxNo e k)) s := by
  unfold WordRow at h
  casesm* _ ∨ _
  all_goals
    obtain ⟨rfl, rfl⟩ := h
    rfl

section
variable {b : Block} {n : CtxNo} {w : MWord}

theorem ownGroups_selected (p : Lvl → Bool) : ownGroups p (selected b n) n = ownGroups p b n := by
  simp only [ownGroups, pg_selected]

theorem resumes_selected (l : Lvl) (w : MWord) : resumes ((selected b n).file n l) l w = resumes (b.file n l) l w := by
  rw [stepOver_file]
  cases l <;> rfl

/-- A register file set to what it is, with its context gone on. -/
theorem agree_goto_selected {B : Block} (hB : B.file n (lvlOf b n) = stepOver (fileOf b n)) (a : CsAddr) :
    Agree (goto n a B) (B.setFile n (lvlOf b n) (goneTo a (fileOf b n))) := by
  have hself : Agree B (B.setFile n (lvlOf b n) (stepOver (fileOf b n))) := by
    rw [← hB]
    exact (agree_setFile_file _ _ _).symm
  have hgone : goto n a (B.setFile n (lvlOf b n) (stepOver (fileOf b n))) = B.setFile n (lvlOf b n) (goneTo a (fileOf b n)) := goto_setFile ..
  rw [← hgone]
  exact hself.modCtx n _

/-- A register file set to what it is, with its context stopped. -/
theorem agree_stop_selected {B : Block} (hB : B.file n (lvlOf b n) = stepOver (fileOf b n)) (x : Act) :
    Agree (stop n x B) (B.setFile n (lvlOf b n) (heldIn x (fileOf b n))) := by
  have hself : Agree B (B.setFile n (lvlOf b n) (stepOver (fileOf b n))) := by
    rw [← hB]
    exact (agree_setFile_file _ _ _).symm
  have hheld : stop n x (B.setFile n (lvlOf b n) (stepOver (fileOf b n))) = B.setFile n (lvlOf b n) (heldIn x (fileOf b n)) := stop_setFile ..
  rw [← hheld]
  exact hself.modCtx n _

/-- The context goes on behind a word whose condition is false. -/
theorem agree_act_of_cond_false (h : Selects b n w) (hcond : cond b n (fileOf b n) w = false)
    (hres : resumes (fileOf b n) (lvlOf b n) w = false) (hown : w.isLong = true → ownGroups (fun l => l == lvlOf b n) b n = []) :
    Agree (act n (snapOf b n w none false) (selected b n))
      ((selected b n).setFile n (lvlOf b n) (goneTo ((b.ctx n).upc + 1) (fileOf b n))) := by
  have hkeep : (w.isLong && !(ownGroups (fun l => l == lvlOf b n) b n).isEmpty) = false := by
    cases hlong : w.isLong
    · rfl
    · simp [hown hlong]
  unfold act
  rw [dropTag_selected h.2]
  simp only [snap_lvl, word_snapOf, resumes_selected, cond_selected, hres, hcond, ownGroups_selected, hkeep, upc_snapOf, Bool.not_false,
    Bool.and_self, if_true, Bool.false_eq_true, if_false]
  exact agree_goto_selected (stepOver_file b n _) _

end

/-- Settles O1: whichever row issues it, the word leaves its context behind it (`agree_act_of_cond_false`). -/
theorem aWordWhoseConditionIsFalseHasNoEffect : Obligations.AWordWhoseConditionIsFalseHasNoEffect := by
  unfold Obligations.AWordWhoseConditionIsFalseHasNoEffect
  intro s e k w i p hrow hp n hsel hcond hres hown
  refine gives_of_exec (exec_of_wordRow hrow s) ?_
  rw [issueAs_selects hsel p hp]
  exact OnlyParts.of_agree (agree_act_of_cond_false hsel hcond hres hown) (onlyFile_setFile ..)

end Sys2Proof.Machine

/-! ### A row that comes late (R24, R55)

A row that comes behind its place of the tick acts in the next tick (log entry 1), and the tick that passes in between may take the
context on to another word. -/

namespace Sys2Proof.Machine
open Sys2Proof

/-- YIELD with CLRL, and the CLRL behind it. -/
def yieldClrl : MWord := MFields.word { seq := 10, xfer := 2 }
def onlyClrl : MWord := MFields.word { xfer := 2 }

/-- Context 0 is in the YIELD of the word at its UPC, and the event that ends it, for the context's channel 5, lies 6 ticks back. -/
def yieldBlock : Block := {
  mode := .service, now := 6, tick := 6
  secs := [(0, { fenced := false, powered := true })]
  ctxs := [(0, { chan := some 5, upc := 16, act := .yieldOn 1 })]
  engs := [(0, { ctxEn := 1, inReset := false })]
  clus := [(0, { state := .loaded })]
  cs := [(16, stored yieldClrl), (17, stored onlyClrl)]
  mem := [(0x60050A, 1)]
  fab := { queue := [{ stamp := 0, at_ := 0, era := 0, ev := .chan 0 5 }] } }

/-- The tick has passed the place of every word. -/
def yieldLate : State := { blk := yieldBlock, turn := 2 ^ 60 }

/-- The UPC of context 0 after a command. -/
def upcAfter (o : Host.Outcome State Fault Refusal) : Option CsAddr := match o with
  | .next t => some (t.blk.ctx 0).upc
  | _ => none

/-- Both rows are operations of the word at the context's UPC. -/
theorem yieldBlock_word : fetchW yieldBlock 0 = yieldClrl ∧ rowYield yieldClrl = true ∧ rowClrl yieldClrl = true ∧
    (yieldBlock.ctx 0).upc.toNat ≤ 0x21FF := by
  decide +kernel

/-- In the next tick the YIELD is over: its row finds no operation of its own. -/
theorem upcAfter_yield : upcAfter (exec (.yield 0 0) yieldLate) = some 17 := by decide +kernel

/-- The row of CLRL issues the word behind it. -/
theorem upcAfter_clrl : upcAfter (exec (.clrl 0 0) yieldLate) = some 18 := by decide +kernel

/-- Refutes O2: the two rows are operations of the word at the UPC, but they come late, and in the tick in which they act the context
stands at a word that holds one of the two operations only. -/
theorem not_aWordActsWholeByAnyOneOfItsRows : ¬ Obligations.AWordActsWholeByAnyOneOfItsRows := by
  unfold Obligations.AWordActsWholeByAnyOneOfItsRows
  intro h
  obtain ⟨hword, hyield, hclrl, hupc⟩ := yieldBlock_word
  have hrow : WordRow 0 0 (.yield 0 0) rowYield := by simp [WordRow]
  have hother : WordRow 0 0 (.clrl 0 0) rowClrl := by simp [WordRow]
  have hsame := ((h yieldLate 0 0 _ _ hrow).2 hupc).2 _ _ hother (hword ▸ hyield) (hword ▸ hclrl)
  have hboth := upcAfter_yield.symm.trans ((congrArg upcAfter hsame).trans upcAfter_clrl)
  exact absurd hboth (by decide)

end Sys2Proof.Machine

/-! Words that hold one ALU operation: their registers, flags and traps (R88, R89, R104, R117, R120, R125). -/

namespace Sys2Proof.Machine
open Sys2Proof

/-! ### Traps (R145, R151) -/

/-- A trap or DEBUG enters its context's exceptions and sends no record. -/
theorem pendExc_trap {x : Exc} (hkind : x.kind = 2) (n : CtxNo) (b : Block) :
    pendExc n x b = b.modCtx n (fun c => { c with excs := withExc b.now c.excs x }) := by
  have hsame : ∀ y : Exc, x.same y = true ↔ y.code = x.code ∧ y.lvl = x.lvl := fun y => by simp [Exc.same]
  have hany : ∀ l : List Exc, l.any x.same = l.any (fun y => y.code == x.code && y.lvl == x.lvl) := fun l => rfl
  unfold pendExc withExc
  simp only [hkind, hsame, hany]
  rfl

theorem pendExc_setFile {x : Exc} (hkind : x.kind = 2) (B : Block) (n : CtxNo) (l : Lvl) (v : Ctx) :
    pendExc n x (B.setFile n l v) = B.setFile n l { v with excs := withExc B.now v.excs x } := by
  rw [pendExc_trap hkind]
  exact modCtx_setFile B n l v _ (by cases l <;> intros <;> rfl) (by cases l <;> intros <;> rfl)

theorem now_selected (b : Block) (n : CtxNo) : (selected b n).now = b.now := by
  simp only [selected, granted, setCtx_now, setEng_now]

/-! ### What a result writes -/

theorem stepOver_writeDst (p : Bool) (c : Ctx) (o : BitVec 6) (v : Word) : writeDst p (stepOver c) o v = stepOver (writeDst p c o v) := by
  unfold writeDst
  split
  · rfl
  · rfl
  · split <;> rfl
  · rfl

theorem writeDst_shadow (p : Bool) (c : Ctx) (o : BitVec 6) (v : Word) : (writeDst p c o v).shadow = c.shadow := by
  unfold writeDst
  split
  · rfl
  · rfl
  · split <;> rfl
  · rfl

theorem writeDst_excs (p : Bool) (c : Ctx) (o : BitVec 6) (v : Word) : (writeDst p c o v).excs = c.excs := by
  unfold writeDst
  split
  · rfl
  · rfl
  · split <;> rfl
  · rfl

/-- The sticky SAT set where a result was clipped (R119). -/
def saturated (sat : Bool) (c : Ctx) : Ctx := { c with stat := putBit c.stat 7 (c.stat.getLsbD 7 || sat) }

/-- The registers that a result `o` with the flags `f` leaves, but for the sticky EARLY, in the order of R88. -/
def resultRegs (w : MWord) (o : AluOut) (f : AluFlags) (c : Ctx) : Ctx :=
  let c1 := { c with stat := if setsFlags w o then putFlags c.stat f else c.stat }
  let c2 := match o with
    | .none => c1
    | .dst v => writeDst (statPriv c.stat) c1 w.dst v
    | .acc v => writeAcc c1 w.dst v
  saturated f.sat c2

/-- The result goes to DST as a 48-bit value. -/
def AluOut.isDst : AluOut → Bool
  | .dst _ => true
  | _ => false

/-- An overflow that traps (R120): not of a word whose DST is STAT (R88). -/
def overflows (w : MWord) (o : AluOut) (f : AluFlags) (st : Word) : Bool :=
  setsFlags w o && f.v && st.getLsbD 19 && !(isSpec w.dst 4 && o.isDst)

/-- SAT and EARLY are different bits of STAT (R43). -/
theorem early_putBit_sat (st : Word) (x : Bool) : (putBit st 7 x).getLsbD 5 = st.getLsbD 5 := by
  rw [getLsbD_putBit _ _ _ _ (by decide)]
  rfl

/-- The registers of the word, and the exception of an overflow that traps. -/
theorem aluFile_eq (b : Block) (n : CtxNo) (w : MWord) (o : AluOut) (f : AluFlags) : aluFile b n w o f =
    let c := fileOf b n
    let c3 := earlied (seesEarly b n w) (resultRegs w o f c)
    if overflows w o f c.stat then
      { c3 with excs := withExc b.now c.excs { code := 0x0A, kind := 2, sub := 0, fupc := c.upc, lvl := lvlOf b n } }
    else c3 := by
  cases o with
  | none => simp only [earlied, resultRegs, saturated, early_putBit_sat]; rfl
  | acc v => simp only [earlied, resultRegs, saturated, early_putBit_sat]; rfl
  | dst v => simp only [earlied, resultRegs, saturated, early_putBit_sat]; rfl

theorem resultRegs_stepOver (w : MWord) (o : AluOut) (f : AluFlags) (c : Ctx) :
    resultRegs w o f (stepOver c) = stepOver (resultRegs w o f c) := by
  cases o with
  | none => rfl
  | acc v => rfl
  | dst v =>
    have h := stepOver_writeDst (statPriv c.stat) { c with stat := if setsFlags w (.dst v) then putFlags c.stat f else c.stat } w.dst v
    exact congrArg (saturated f.sat) h

theorem resultRegs_shadow (w : MWord) (o : AluOut) (f : AluFlags) (c : Ctx) : (resultRegs w o f c).shadow = c.shadow := by
  cases o with
  | none => rfl
  | acc v => rfl
  | dst v => exact writeDst_shadow _ _ _ _

theorem resultRegs_excs (w : MWord) (o : AluOut) (f : AluFlags) (c : Ctx) : (resultRegs w o f c).excs = c.excs := by
  cases o with
  | none => rfl
  | acc v => rfl
  | dst v => exact writeDst_excs _ _ _ _

/-! ### The result of an operation -/

/-- The operation's result `r` is what the place `o` and the flags `f` say (R87, R105, R117). -/
structure AluResult (op : BitVec 7) (r : AluRes) (o : AluOut) (f : AluFlags) : Prop where
  flagged : aluFlags op = true
  z : r.z = f.z
  n : r.n = f.n
  c : r.c = f.c
  v : r.v = f.v
  sat : r.sat = f.sat
  place : match o with
    | .none => aluWritesDst op = false ∧ aluAccDst op = false
    | .dst x => aluWritesDst op = true ∧ aluAccDst op = false ∧ r.val = x
    | .acc x => aluWritesDst op = true ∧ aluAccDst op = true ∧ r.acc = some x

theorem isA_of_isAcc : ∀ o : BitVec 6, isAcc o = true → isA o = false := by decide

/-- A word that raises no fault is legal (R79). -/
theorem illop_of_no_fault {b : Block} {n : CtxNo} {s : Snap} (h : wordFault b n s = none) : s.w.illop = none := by
  cases hill : s.w.illop with
  | none => rfl
  | some sub =>
    unfold wordFault wordFaultAt at h
    simp only [hill] at h
    exact absurd h nofun

theorem isAcc_of_accDst {w : MWord} (h : w.illop = none) (hacc : aluAccDst w.aluop = true) : isAcc w.dst = true := by
  have hclass : w.badClass = false := by
    unfold MWord.illop at h
    split_ifs at h with _ _ hbad
    exact Bool.eq_false_iff.2 hbad
  unfold MWord.badClass at hclass
  simp only [Bool.or_eq_false_iff, hacc, Bool.true_and, Bool.not_eq_false'] at hclass
  tauto

section
variable {b : Block} {n : CtxNo} {s : Snap} {o : AluOut} {f : AluFlags}

/-- A legal word sets its flags as its result's place allows. -/
theorem flagged_eq {w : MWord} {r : AluRes} (hr : AluResult w.aluop r o f) (hlegal : w.illop = none) :
    (w.setf && aluFlags w.aluop && (!(aluWritesDst w.aluop) || !isA w.dst)) = setsFlags w o := by
  have hplace := hr.place
  rw [hr.flagged, Bool.and_true]
  unfold setsFlags
  cases o with
  | none => simp [hplace.1]
  | dst x => simp [hplace.1]
  | acc x => simp [hplace.1, isA_of_isAcc _ (isAcc_of_accDst hlegal hplace.2.1)]

theorem withFlags_eq {op : BitVec 7} {r : AluRes} (hr : AluResult op r o f) (st : Word) : withFlags st r = putFlags st f := by
  rw [withFlags, hr.z, hr.n, hr.c, hr.v, putFlags]

theorem isAfx_of_flagged {w : MWord} (h : aluFlags w.aluop = true) : w.isAfx = false := by
  by_contra hafx
  have hbounds := isAfx_bounds (Bool.eq_true_of_not_eq_false hafx)
  simp only [aluFlags, decide_eq_true_eq] at h
  omega

theorem dstValue_of_result (ha : AluAlone s.w) (hr : AluResult s.w.aluop (aluOf b n s) o f) : dstValue b n s = match o with
    | .dst x => some x
    | _ => none := by
  obtain ⟨-, hl, hx, -⟩ := ha
  have hplace := hr.place
  have hlane : laneWritesDst s.w.laneop = false := by rw [hl]; rfl
  have hget : xferGets s.w.xfer = false := by rw [hx]; rfl
  unfold dstValue
  cases o <;> simp [isAfx_of_flagged hr.flagged, hplace, hlane, hget]

/-- What the W stage leaves of the registers is what the result says. -/
theorem wRegs_alu (ha : AluAlone s.w) (hr : AluResult s.w.aluop (aluOf b n s) o f) (hlegal : s.w.illop = none)
    (hpriv : s.priv = statPriv (b.file n s.lvl).stat) : wRegs b n s = resultRegs s.w o f (b.file n s.lvl) := by
  have hdst := dstValue_of_result ha hr
  obtain ⟨hm, hl, hx, -⟩ := ha
  have hmem : s.w.isMem = false := by simp [MWord.isMem, hm]
  have hafx := isAfx_of_flagged hr.flagged
  have hplace := hr.place
  have hget : xferGets 0 = false := rfl
  have hflags := flagged_eq hr hlegal
  cases o with
  | none =>
    obtain ⟨hwrites, haccd⟩ := hplace
    rw [hwrites] at hflags
    unfold wRegs
    simp only [hflags, withFlags_eq hr, hr.sat, hmem, hget, hwrites, haccd, hx, setReg16_reg16, Bool.false_and, Bool.false_eq_true,
      if_false, Bool.or_false]
    rfl
  | dst x =>
    obtain ⟨hwrites, haccd, -⟩ := hplace
    rw [hwrites] at hflags
    unfold wRegs
    simp only [hflags, withFlags_eq hr, hdst, hr.sat, hmem, hget, show (true && !s.w.isAfx || false) = true by rw [hafx]; rfl, hwrites,
      haccd, hx, hpriv, setReg16_reg16, Bool.false_and, Bool.false_eq_true, if_false, if_true]
    rfl
  | acc x =>
    obtain ⟨hwrites, haccd, hacc⟩ := hplace
    rw [hwrites] at hflags
    unfold wRegs
    simp only [hflags, withFlags_eq hr, hr.sat, hmem, hget, hwrites, haccd, hacc, hx, setReg16_reg16, Bool.false_and, Bool.false_eq_true,
      if_false, if_true]
    rfl

/-! ### The whole word -/

/-- An ALU word that gives a result starts neither a multiply nor a divide (R124). -/
theorem mulOf_of_flagged (h : aluFlags s.w.aluop = true) : mulOf s = none := by
  simp only [aluFlags, decide_eq_true_eq] at h
  unfold mulOf
  split
  · omega
  · omega
  · omega
  · omega
  · omega
  · rfl

theorem isDiv_of_flagged {w : MWord} (h : aluFlags w.aluop = true) : w.isDiv = false := by
  simp only [aluFlags, decide_eq_true_eq] at h
  simp only [MWord.isDiv, Bool.or_eq_false_iff, beq_eq_false_iff_ne, ne_eq, ← BitVec.toNat_inj]
  simp; omega

/-- The exception of an overflow that traps (R120). -/
def overflowTrap (s : Snap) : Exc := { code := 0x0A, kind := 2, sub := 0, fupc := s.upc, lvl := s.lvl }

/-- The file that an ALU word leaves in `b`, from the one that it read. -/
def wordFile (b : Block) (n : CtxNo) (s : Snap) (o : AluOut) (f : AluFlags) : Ctx :=
  let c := earlied (seesEarly b n s.w) (resultRegs s.w o f (b.file n s.lvl))
  if overflows s.w o f (b.file n s.lvl).stat then
    { c with excs := withExc b.now (b.file n s.lvl).excs (overflowTrap s) }
  else c

theorem wordFile_shadow : (wordFile b n s o f).shadow = (b.file n s.lvl).shadow := by
  have h := resultRegs_shadow s.w o f (b.file n s.lvl)
  unfold wordFile
  dsimp only
  split
  · exact h
  · exact h

/-- EARLY set once more is as it was. -/
theorem wordFile_early (h : seesEarly b n s.w = true) :
    { wordFile b n s o f with stat := putBit (wordFile b n s o f).stat 5 true } = wordFile b n s o f := by
  unfold wordFile
  rw [h]
  dsimp only
  split
  · exact congrArg (fun d : Ctx => { d with excs := withExc b.now (b.file n s.lvl).excs (overflowTrap s) })
      (earlied_earlied _)
  · exact earlied_earlied _

theorem vtrap_eq (ha : AluAlone s.w) (hr : AluResult s.w.aluop (aluOf b n s) o f) (hlegal : s.w.illop = none) (st : Word) :
    (s.w.setf && aluFlags s.w.aluop && (!(aluWritesDst s.w.aluop) || !isA s.w.dst) && (aluOf b n s).v && st.getLsbD 19 &&
      !(isSpec s.w.dst 4 && (dstValue b n s).isSome)) = overflows s.w o f st := by
  rw [flagged_eq hr hlegal, hr.v, dstValue_of_result ha hr]
  unfold overflows
  cases o <;> rfl

theorem wInternal_alu (ha : AluAlone s.w) (hr : AluResult s.w.aluop (aluOf b n s) o f) (hlegal : s.w.illop = none)
    (hpriv : s.priv = statPriv (b.file n s.lvl).stat) (hinj : s.inj = none) :
    wInternal n s b = b.setFile n s.lvl (wordFile b n s o f) := by
  have hx : ¬ s.w.xfer = 0x0B := by rw [ha.2.2.1]; decide
  unfold wInternal
  simp only [vtrap_eq ha hr hlegal, mulOf_of_flagged hr.flagged, isDiv_of_flagged hr.flagged, hx, if_false, Bool.false_eq_true,
    wRegs_alu ha hr hlegal hpriv, trap, hinj, Option.isSome_none]
  rw [pendExc_setFile rfl]
  unfold wordFile
  dsimp only
  split
  · rw [← resultRegs_excs s.w o f (b.file n s.lvl)]
    rfl
  · rfl

theorem requestOf_alu (ha : AluAlone s.w) (hflags : aluFlags s.w.aluop = true) : requestOf s = none := by
  simp [requestOf, isAfx_of_flagged hflags, MWord.isLongMem, MWord.isMem, ha.1]

/-- An ALU word reaches nothing outside its context. -/
theorem wExternal_alu (ha : AluAlone s.w) (hflags : aluFlags s.w.aluop = true) (b : Block) : wExternal n s b = b := by
  have hreq := requestOf_alu ha hflags
  obtain ⟨hm, hl, hx, -⟩ := ha
  unfold wExternal
  simp [hreq, hm, hl, hx, laneWritesDst, laneAct_none hl, wordCmps, MWord.isMem]

theorem wStage_alu (ha : AluAlone s.w) (hr : AluResult s.w.aluop (aluOf b n s) o f) (hlegal : s.w.illop = none)
    (hpriv : s.priv = statPriv (b.file n s.lvl).stat) (hinj : s.inj = none) :
    wStage n s b = b.setFile n s.lvl (wordFile b n s o f) := by
  unfold wStage
  simp only [wInternal_alu ha hr hlegal hpriv hinj, wExternal_alu ha hr.flagged]
  split
  · next he => rw [modFile_setFile _ _ _ _ _ (fileFor_of_shadow _ _ _ wordFile_shadow), wordFile_early he]
  · rfl

end

section
variable {b : Block} {n : CtxNo} {w : MWord} {o : AluOut} {f : AluFlags}

/-- The file that the issued word leaves is the one that R88 gives. -/
theorem goneTo_wordFile (a : CsAddr) (o : AluOut) (f : AluFlags) :
    { wordFile (selected b n) n (snapOf b n w none false) o f with upc := a, act := .idle } =
      goneTo a (aluFile b n w o f) := by
  have hnow := now_selected b n
  have hupc : (fileOf b n).upc = (b.ctx n).upc := upc_file b n _
  rw [aluFile_eq]
  unfold wordFile
  simp only [seesEarly_selected, word_snapOf, snap_lvl, stepOver_file, resultRegs_stepOver, hnow, overflowTrap, upc_snapOf, hupc]
  by_cases hv : overflows w o f (fileOf b n).stat = true
  · have hv' : overflows w o f (stepOver (fileOf b n)).stat = true := hv
    simp only [hv, hv', if_true]
    rfl
  · have hv' : ¬ overflows w o f (stepOver (fileOf b n)).stat = true := hv
    simp only [hv, hv', Bool.false_eq_true, if_false]
    rfl

/-- An issued ALU word leaves its result and its flags, and its context goes on behind it. -/
theorem onlyFile_alu (h : Issues b n w) (ha : AluAlone w) (hr : AluResult w.aluop (aluOf b n (snapOf b n w none false)) o f)
    (p : MWord → Bool) (hp : p w = true) :
    OnlyFile b (issueAs p n b) n (goneTo ((b.ctx n).upc + 1) (aluFile b n w o f)) := by
  have hlegal := illop_of_no_fault h.2.2
  have hpriv : (snapOf b n w none false).priv = statPriv ((selected b n).file n (lvlOf b n)).stat := by
    rw [stepOver_file]
    exact Bool.or_false _
  rw [← aluOf_selected] at hr
  rw [issueAs_issues h p hp (by rw [ha.2.2.2]; decide)]
  unfold perform
  simp only [word_snapOf, isLong_of_slots ha.1 ha.2.1, ha.2.2.2, wStage_alu (s := snapOf b n w none false) ha hr hlegal hpriv rfl]
  rw [seqApply_next (s := snapOf b n w none false) ha.2.2.2, upc_snapOf, snap_lvl]
  simp only [goto_setFile, goneTo_wordFile]
  exact onlyFile_setFile ..

end

/-! ### The rows of the ALU -/

/-- The ALU operation on the inputs of R104. -/
def aluAt (op : BitVec 7) (x : AluIn) : AluRes := alu op x.aux x.a x.b x.accA x.accD x.carry

theorem aluOf_snapOf (b : Block) (n : CtxNo) (w : MWord) : aluOf b n (snapOf b n w none false) = aluAt w.aluop (aluIn b n w) := rfl

/-- A row whose operation gives its result as it says. -/
theorem aluRow_of {i : EngId → CtxId → Instr} {op : BitVec 7} {out : AluIn → AluOut} {fl : AluIn → AluFlags} (p : MWord → Bool)
    (hexec : ∀ e k s, exec (i e k) s = atTurn (turnOf (i e k)) (issueAs p (ctxNo e k)) s) (hp : ∀ w : MWord, w.aluop = op → p w = true)
    (hr : ∀ x, AluResult op (aluAt op x) (out x) (fl x)) : AluRow i op out fl := by
  intro s e k w h ha hop
  refine gives_of_exec (hexec e k s) (onlyFile_alu h ha ?_ p (hp w hop))
  rw [aluOf_snapOf, hop]
  exact hr _

/-- The result of an operation with a 48-bit result at DST. -/
theorem aluResult_dst {op : BitVec 7} {r : AluRes} {x : Word} {c v sat : Bool} (hr : r = res48 x c v sat)
    (hop : aluFlags op = true ∧ aluWritesDst op = true ∧ aluAccDst op = false) : AluResult op r (.dst x) (flags48 x c v sat) := by
  subst hr
  exact ⟨hop.1, rfl, rfl, rfl, rfl, rfl, hop.2.1, hop.2.2, rfl⟩

/-- A row whose operation gives a 48-bit result at DST. -/
theorem dstRow_of {i : EngId → CtxId → Instr} {op : BitVec 7} {v : AluIn → Word} {c o sat : AluIn → Bool} (p : MWord → Bool)
    (hexec : ∀ e k s, exec (i e k) s = atTurn (turnOf (i e k)) (issueAs p (ctxNo e k)) s) (hp : ∀ w : MWord, w.aluop = op → p w = true)
    (hop : aluFlags op = true ∧ aluWritesDst op = true ∧ aluAccDst op = false)
    (hr : ∀ x, aluAt op x = res48 (v x) (c x) (o x) (sat x)) :
    AluRow i op (fun x => .dst (v x)) (fun x => flags48 (v x) (c x) (o x) (sat x)) :=
  aluRow_of p hexec hp fun x => aluResult_dst (hr x) hop

/-- The result of an operation that gives its flags only. -/
theorem aluResult_none {op : BitVec 7} {r : AluRes} {x : Word} {c v sat : Bool} (hr : r = res48 x c v sat)
    (hop : aluFlags op = true ∧ aluWritesDst op = false ∧ aluAccDst op = false) : AluResult op r .none (flags48 x c v sat) := by
  subst hr
  exact ⟨hop.1, rfl, rfl, rfl, rfl, rfl, hop.2.1, hop.2.2⟩

/-- The result of an operation on an accumulator. -/
theorem aluResult_acc {op : BitVec 7} {r : AluRes} {x : Acc} {c v : Bool} (hr : r = res104 x c v)
    (hop : aluFlags op = true ∧ aluWritesDst op = true ∧ aluAccDst op = true) : AluResult op r (.acc x) (flags104 x c v) := by
  subst hr
  exact ⟨hop.1, rfl, rfl, rfl, rfl, rfl, hop.2.1, hop.2.2, rfl⟩

/-- A row whose operation gives a result in the accumulator that DST names. -/
theorem accRow_of {i : EngId → CtxId → Instr} {op : BitVec 7} {v : AluIn → Acc} {c o : AluIn → Bool} (p : MWord → Bool)
    (hexec : ∀ e k s, exec (i e k) s = atTurn (turnOf (i e k)) (issueAs p (ctxNo e k)) s) (hp : ∀ w : MWord, w.aluop = op → p w = true)
    (hop : aluFlags op = true ∧ aluWritesDst op = true ∧ aluAccDst op = true)
    (hr : ∀ x, aluAt op x = res104 (v x) (c x) (o x)) :
    AluRow i op (fun x => .acc (v x)) (fun x => flags104 (v x) (c x) (o x)) :=
  aluRow_of p hexec hp fun x => aluResult_acc (hr x) hop

end Sys2Proof.Machine

/-! The results of moves, logic and bit operations, and of additions and subtractions (R104, R115..R118, R123). -/

namespace Sys2Proof.Machine
open Sys2Proof

/-! ### The bit operations -/

/-- Extremes that keep A for equal operands. -/
theorem ite_lt_eq_ite_le {α β : Type} [LinearOrder β] (x y : β) (a b : α) : (if y < x then b else a) = if x ≤ y then a else b := by
  by_cases h : y < x
  · rw [if_pos h, if_neg (not_le.2 h)]
  · rw [if_neg h, if_pos (not_lt.1 h)]

/-- The highest one of a word stands at its logarithm. -/
theorem find_highest {a : Word} (h : a ≠ 0) : (List.range 48).find? (fun i => a.getLsbD (47 - i)) = some (47 - Nat.log2 a.toNat) := by
  have hne : a.toNat ≠ 0 := fun h0 => h (BitVec.eq_of_toNat_eq h0)
  have hlog : Nat.log2 a.toNat < 48 := (Nat.log2_lt hne).2 a.isLt
  refine List.find?_range_eq_some.2 ⟨?_, List.mem_range.2 (by omega), fun j hj => ?_⟩
  · rw [show 47 - (47 - Nat.log2 a.toNat) = Nat.log2 a.toNat by omega]
    exact Nat.testBit_log2 hne
  · rw [BitVec.getLsbD, Nat.testBit_lt_two_pow ((Nat.log2_lt hne).1 (by omega))]
    rfl

theorem clz_eq (a : Word) : clz a = if a = 0 then 48 else BitVec.ofNat 48 (47 - Nat.log2 a.toNat) := by
  unfold clz
  split
  · next h => subst h; decide
  · next h => rw [find_highest h]; rfl

/-- The ones that a filter keeps are as many as the values of the bits add up to. -/
theorem length_filter_eq_sum {α : Type} (p : α → Bool) (l : List α) : (l.filter p).length = (l.map (fun x => (p x).toNat)).sum := by
  induction l with
  | nil => rfl
  | cons x l ih => cases hp : p x <;> simp [hp, ih, Nat.add_comm]

/-- A number written as the sum of its bits' places has these bits. -/
theorem sum_bits (p : Nat → Bool) (n : Nat) :
    ((List.range n).map (fun i => (p i).toNat * 2 ^ i)).sum < 2 ^ n ∧
      ∀ j, ((List.range n).map (fun i => (p i).toNat * 2 ^ i)).sum.testBit j = (decide (j < n) && p j) := by
  induction n with
  | zero => simp
  | succ n ih =>
    obtain ⟨hlt, hbit⟩ := ih
    have hp : (p n).toNat ≤ 1 := Bool.toNat_le _
    rw [List.range_succ, List.map_append, List.sum_append, List.map_singleton, List.sum_singleton, Nat.add_comm, Nat.mul_comm]
    have hmul : 2 ^ n * (p n).toNat ≤ 2 ^ n * 1 := Nat.mul_le_mul_left _ hp
    refine ⟨by rw [Nat.pow_succ]; omega, fun j => ?_⟩
    rw [Nat.testBit_two_pow_mul_add _ hlt, hbit]
    by_cases hj : j < n
    · simp [hj, Nat.lt_succ_of_lt hj]
    · obtain rfl | hgt := Nat.eq_or_lt_of_not_lt hj
      · cases p j <;> simp
      · have hz : j - n ≠ 0 := by omega
        have hm : ¬ j < n + 1 := by omega
        have hone : Nat.testBit 1 (j - n) = false := Nat.testBit_lt_two_pow (Nat.one_lt_two_pow hz)
        cases p n <;> simp [hj, hm, hone]

theorem brev_eq (a : Word) : brev a = BitVec.ofNat 48 (((List.range 48).map (fun i => (a.getLsbD (47 - i)).toNat * 2 ^ i)).sum) := by
  apply BitVec.eq_of_getLsbD_eq
  intro j hj
  rw [brev, BitVec.getLsbD_reverse, BitVec.getMsbD_eq_getLsbD, BitVec.getLsbD_ofNat, (sum_bits (fun i => a.getLsbD (47 - i)) 48).2]
  simp [hj]

theorem sextAt_eq (a : Word) (p : Nat) : sextAt a p = if 47 ≤ p then a else (a.extractLsb' 0 (p + 1)).signExtend 48 := by
  unfold sextAt
  split
  · rfl
  · apply BitVec.eq_of_getLsbD_eq
    intro j hj
    have hmsb : (a <<< (47 - p)).msb = a.getLsbD p := by
      rw [BitVec.msb_eq_getLsbD_last, BitVec.getLsbD_shiftLeft]
      simp [show 47 - (47 - p) = p by omega]
    have hsign : (a.extractLsb' 0 (p + 1)).msb = a.getLsbD p := by
      rw [BitVec.msb_eq_getLsbD_last, BitVec.getLsbD_extractLsb']
      simp
    rw [BitVec.getLsbD_sshiftRight, BitVec.getLsbD_signExtend, hmsb, hsign, BitVec.getLsbD_shiftLeft, BitVec.getLsbD_extractLsb']
    by_cases hle : j < p + 1
    · simp [hj, hle, show 47 - p + j < 48 by omega]
    · simp [hj, hle, show ¬ 47 - p + j < 48 by omega]

theorem zextAt_eq (a : Word) (p : Nat) : zextAt a p = if 47 ≤ p then a else (a.extractLsb' 0 (p + 1)).setWidth 48 := by
  unfold zextAt
  split
  · rfl
  · apply BitVec.eq_of_getLsbD_eq
    intro j hj
    rw [BitVec.getLsbD_and, BitVec.getLsbD_ofNat, Nat.testBit_two_pow_sub_one, BitVec.getLsbD_setWidth, BitVec.getLsbD_extractLsb']
    simp [hj, Bool.and_comm]

theorem toNat_append_byte {w : Nat} (x : BitVec w) (y : Byte) : (x ++ y).toNat = x.toNat * 256 + y.toNat := by
  rw [BitVec.toNat_append, ← Nat.shiftLeft_add_eq_or_of_lt y.isLt, Nat.shiftLeft_eq]

theorem bswap_eq (a : Word) : bswap a = a.extractLsb' 0 8 ++ a.extractLsb' 8 8 ++ a.extractLsb' 16 8 ++ a.extractLsb' 24 8 ++
    a.extractLsb' 32 8 ++ a.extractLsb' 40 8 := by
  have hbytes : (bytesOf 6 a).reverse = [a.extractLsb' 40 8, a.extractLsb' 32 8, a.extractLsb' 24 8, a.extractLsb' 16 8,
    a.extractLsb' 8 8, a.extractLsb' 0 8] := rfl
  apply BitVec.eq_of_toNat_eq
  rw [bswap, hbytes, ofBytes, BitVec.toNat_ofNat]
  simp only [natOfBytes, toNat_append_byte]
  generalize a.extractLsb' 0 8 = x0, a.extractLsb' 8 8 = x1, a.extractLsb' 16 8 = x2, a.extractLsb' 24 8 = x3,
    a.extractLsb' 32 8 = x4, a.extractLsb' 40 8 = x5
  omega

theorem popcount_eq (a : Word) : popcount a = ((List.range 48).map (fun i => (a.getLsbD i).toNat)).sum := length_filter_eq_sum _ _

/-! ### Sums and differences -/

theorem sover_eq (w : Nat) (i : Int) : sover w i = !fits w i := by
  unfold sover fits
  rw [← decide_not]
  exact decide_eq_decide.2 (by omega)

theorem b2n_eq (p : Bool) : b2n p = p.toNat := by cases p <;> rfl

/-- A sum without a carry in. -/
theorem addc_false {w : Nat} (x y : BitVec w) : addc x y false = (x + y, decide (2 ^ w ≤ x.toNat + y.toNat), !fits w (x.toInt + y.toInt)) := by
  simp [addc, b2n, sover_eq]

theorem subb_false {w : Nat} (x y : BitVec w) : subb x y false = (x - y, decide (x.toNat < y.toNat), !fits w (x.toInt - y.toInt)) := by
  simp [subb, b2n, sover_eq]

theorem ofNat_b2n (p : Bool) : BitVec.ofNat 48 (b2n p) = if p then 1 else 0 := by cases p <;> rfl

theorem addc_eq (x y : Word) (p : Bool) : addc x y p = (x + y + (if p then 1 else 0), decide (2 ^ 48 ≤ x.toNat + y.toNat + p.toNat),
    !fits 48 (x.toInt + y.toInt + p.toNat)) := by
  rw [addc, ofNat_b2n, sover_eq, b2n_eq]

theorem subb_eq (x y : Word) (p : Bool) : subb x y p = (x - y - (if p then 1 else 0), decide (x.toNat < y.toNat + p.toNat),
    !fits 48 (x.toInt - y.toInt - p.toNat)) := by
  rw [subb, ofNat_b2n, sover_eq, b2n_eq]

theorem abs48_eq (a : Word) : abs48 a = if a.toInt < 0 then 0 - a else a := by
  have hsign : a.getLsbD 47 = decide (a.toInt < 0) := by
    rw [← BitVec.msb_eq_toInt, BitVec.msb_eq_getLsbD_last]
  rw [abs48, hsign, show 0 - a = -a from BitVec.zero_sub a]
  simp only [decide_eq_true_eq]

theorem idxScale_eq {sel : BitVec 3} {scale : Word} (h : (sel, scale) ∈
    [((0 : BitVec 3), (1 : Word)), (1, 2), (2, 4), (3, 6), (4, 8), (5, 12), (6, 16), (7, 256)]) {x : BitVec 8}
    (hx : x.extractLsb' 0 3 = sel) : BitVec.ofNat 48 (idxScale x) = scale := by
  rw [idxScale, hx]
  simp only [List.mem_cons, Prod.mk.injEq, List.not_mem_nil, or_false] at h
  obtain ⟨rfl, rfl⟩ | ⟨rfl, rfl⟩ | ⟨rfl, rfl⟩ | ⟨rfl, rfl⟩ | ⟨rfl, rfl⟩ | ⟨rfl, rfl⟩ | ⟨rfl, rfl⟩ | ⟨rfl, rfl⟩ := h
  all_goals rfl

/-! ### The obligations -/

/-- Settles O3: each function by the equation of its operation, and TST by its flags. -/
theorem movesLogicAndBitOperationsWriteTheirResult : Obligations.MovesLogicAndBitOperationsWriteTheirResult := by
  unfold Obligations.MovesLogicAndBitOperationsWriteTheirResult
  refine ⟨?mov, ?min, ?max, ?minu, ?maxu, ?and, ?or, ?xor, ?andn, ?not, ?tst, ?clz, ?popc, ?sext, ?zext, ?bswap, ?brev⟩
  case mov => exact dstRow_of rowMov (fun _ _ _ => rfl) (by simp +contextual [rowMov]) (by decide) (fun _ => rfl)
  case min =>
    exact dstRow_of rowMinMax (fun _ _ _ => rfl) (by simp +contextual [rowMinMax]) (by decide) (fun x => congrArg res48 (ite_lt_eq_ite_le ..))
  case max =>
    exact dstRow_of rowMinMax (fun _ _ _ => rfl) (by simp +contextual [rowMinMax]) (by decide) (fun x => congrArg res48 (ite_lt_eq_ite_le ..))
  case minu =>
    exact dstRow_of rowMinuMaxu (fun _ _ _ => rfl) (by simp +contextual [rowMinuMaxu]) (by decide) (fun x => congrArg res48 (ite_lt_eq_ite_le ..))
  case maxu =>
    exact dstRow_of rowMinuMaxu (fun _ _ _ => rfl) (by simp +contextual [rowMinuMaxu]) (by decide) (fun x => congrArg res48 (ite_lt_eq_ite_le ..))
  case and => exact dstRow_of rowAndOrXorAndn (fun _ _ _ => rfl) (by simp +contextual [rowAndOrXorAndn]) (by decide) (fun _ => rfl)
  case or => exact dstRow_of rowAndOrXorAndn (fun _ _ _ => rfl) (by simp +contextual [rowAndOrXorAndn]) (by decide) (fun _ => rfl)
  case xor => exact dstRow_of rowAndOrXorAndn (fun _ _ _ => rfl) (by simp +contextual [rowAndOrXorAndn]) (by decide) (fun _ => rfl)
  case andn => exact dstRow_of rowAndOrXorAndn (fun _ _ _ => rfl) (by simp +contextual [rowAndOrXorAndn]) (by decide) (fun _ => rfl)
  case not => exact dstRow_of rowNot (fun _ _ _ => rfl) (by simp +contextual [rowNot]) (by decide) (fun _ => rfl)
  case tst => exact aluRow_of rowTst (fun _ _ _ => rfl) (by simp +contextual [rowTst]) fun x => aluResult_none rfl (by decide)
  case clz =>
    exact dstRow_of rowClz (fun _ _ _ => rfl) (by simp +contextual [rowClz]) (by decide) (fun x => congrArg res48 (clz_eq x.a))
  case popc =>
    exact dstRow_of rowPopc (fun _ _ _ => rfl) (by simp +contextual [rowPopc]) (by decide) (fun x => congrArg (fun k => res48 (BitVec.ofNat 48 k)) (popcount_eq x.a))
  case sext =>
    exact dstRow_of rowSext (fun _ _ _ => rfl) (by simp +contextual [rowSext]) (by decide) (fun x => congrArg res48 (sextAt_eq ..))
  case zext =>
    exact dstRow_of rowZext (fun _ _ _ => rfl) (by simp +contextual [rowZext]) (by decide) (fun x => congrArg res48 (zextAt_eq ..))
  case bswap =>
    exact dstRow_of rowBswap (fun _ _ _ => rfl) (by simp +contextual [rowBswap]) (by decide) (fun x => congrArg res48 (bswap_eq x.a))
  case brev =>
    exact dstRow_of rowBrev (fun _ _ _ => rfl) (by simp +contextual [rowBrev]) (by decide) (fun x => congrArg res48 (brev_eq x.a))

/-- Settles O4: sums and differences with their carries and overflows (`addc_eq`, `subb_eq`), and IDX for each scale. -/
theorem additionsAndSubtractionsGiveSumCarryAndOverflow : Obligations.AdditionsAndSubtractionsGiveSumCarryAndOverflow := by
  unfold Obligations.AdditionsAndSubtractionsGiveSumCarryAndOverflow
  refine ⟨?add, ?adc, ?sub, ?sbc, ?cmp, ?neg, ?abs, ?idx⟩
  case add =>
    exact dstRow_of rowAdd (fun _ _ _ => rfl) (by simp +contextual [rowAdd]) (by decide) fun x => congrArg resAdd (addc_false x.a x.b)
  case adc =>
    exact dstRow_of rowAdc (fun _ _ _ => rfl) (by simp +contextual [rowAdc]) (by decide) fun x => congrArg resAdd (addc_eq ..)
  case sub =>
    exact dstRow_of rowSub (fun _ _ _ => rfl) (by simp +contextual [rowSub]) (by decide) fun x => congrArg resAdd (subb_false x.a x.b)
  case sbc =>
    exact dstRow_of rowSbc (fun _ _ _ => rfl) (by simp +contextual [rowSbc]) (by decide) fun x => congrArg resAdd (subb_eq ..)
  case cmp =>
    exact aluRow_of rowCmp (fun _ _ _ => rfl) (by simp +contextual [rowCmp]) fun x =>
      aluResult_none (congrArg resAdd (subb_false x.a x.b)) (by decide)
  case neg =>
    exact dstRow_of rowNeg (fun _ _ _ => rfl) (by simp +contextual [rowNeg]) (by decide) fun x =>
      congrArg (fun v => res48 v (x.a != 0) (x.a == minWord)) (BitVec.zero_sub x.a).symm
  case abs =>
    exact dstRow_of rowAbs (fun _ _ _ => rfl) (by simp +contextual [rowAbs]) (by decide) fun x =>
      congrArg (fun v => res48 v false (x.a == minWord)) (abs48_eq x.a)
  case idx =>
    intro sel scale hmem s e k w h ha hop hsel
    refine gives_of_exec rfl (onlyFile_alu h ha ?_ rowIdx (by simp [rowIdx, hop]))
    rw [aluOf_snapOf, hop]
    refine aluResult_dst (c := decide _) ?_ (by decide)
    have hscale := idxScale_eq hmem hsel
    have hsum := addc_false (aluIn s.blk (ctxNo e k) w).a ((aluIn s.blk (ctxNo e k) w).b * scale)
    rw [← hscale] at hsum ⊢
    exact congrArg resAdd hsum

end Sys2Proof.Machine

/-! The results of shifts and rotates, and of accumulator and checksum operations (R104, R122, R130..R133). -/

namespace Sys2Proof.Machine
open Sys2Proof

/-! ### The count table of R122 -/

theorem shiftLeft_eq_ofNat (a : Word) (k : Nat) : a <<< k = BitVec.ofNat 48 (a.toNat * 2 ^ k) := by
  apply BitVec.eq_of_toNat_eq
  rw [BitVec.toNat_shiftLeft, BitVec.toNat_ofNat, Nat.shiftLeft_eq]

theorem ushiftRight_eq_ofNat (a : Word) (k : Nat) : a >>> k = BitVec.ofNat 48 (a.toNat / 2 ^ k) := by
  apply BitVec.eq_of_toNat_eq
  have hlt : a.toNat / 2 ^ k < 2 ^ 48 := lt_of_le_of_lt (Nat.div_le_self _ _) a.isLt
  rw [BitVec.toNat_ushiftRight, BitVec.toNat_ofNat, Nat.shiftRight_eq_div_pow, Nat.mod_eq_of_lt hlt]

theorem shl_eq (a : Word) (k : Nat) : shl a k =
    res48 (if k < 48 then BitVec.ofNat 48 (a.toNat * 2 ^ k) else 0) (decide (0 < k) && decide (k ≤ 48) && a.getLsbD (48 - k)) := by
  have hval : a <<< k = if k < 48 then BitVec.ofNat 48 (a.toNat * 2 ^ k) else 0 := by
    split
    · exact shiftLeft_eq_ofNat a k
    · exact BitVec.shiftLeft_eq_zero (by omega)
  rw [shl, hval, Bool.decide_and]
  rfl

theorem shr_eq (a : Word) (k : Nat) : shr a k =
    res48 (if k < 48 then BitVec.ofNat 48 (a.toNat / 2 ^ k) else 0) (decide (0 < k) && decide (k ≤ 48) && a.getLsbD (k - 1)) := by
  have hval : a >>> k = if k < 48 then BitVec.ofNat 48 (a.toNat / 2 ^ k) else 0 := by
    split
    · exact ushiftRight_eq_ofNat a k
    · exact BitVec.ushiftRight_eq_zero (by omega)
  rw [shr, hval, Bool.decide_and]
  rfl

/-- A number of `w` bits with a sign, divided by a power of two at least as great, leaves its sign. -/
theorem ediv_two_pow_of_le {x : Int} {w k : Nat} (hlo : -(2 ^ w : Int) ≤ x) (hhi : x < 2 ^ w) (h : w ≤ k) : x / 2 ^ k = x / 2 ^ w := by
  have hpow : (2 : Int) ^ w ≤ 2 ^ k := by exact_mod_cast Nat.pow_le_pow_right (by decide) h
  by_cases hx : 0 ≤ x
  · rw [Int.ediv_eq_zero_of_lt hx hhi, Int.ediv_eq_zero_of_lt hx (by omega)]
  · rw [Int.ediv_eq_neg_one_of_neg_of_le (by omega) (by omega), Int.ediv_eq_neg_one_of_neg_of_le (by omega) (by omega)]

theorem sshiftRight_eq_div {w : Nat} (a : BitVec w) (k : Nat) : a.sshiftRight k = BitVec.ofInt w (a.toInt / 2 ^ k) := by
  rw [BitVec.sshiftRight, Int.shiftRight_eq_div_pow, Int.natCast_pow]
  rfl

theorem sar_eq (a : Word) (k : Nat) : sar a k =
    res48 (BitVec.ofInt 48 (a.toInt / 2 ^ (min k 48))) (decide (0 < k) && a.getLsbD (min (k - 1) 47)) := by
  have hval : a.sshiftRight k = BitVec.ofInt 48 (a.toInt / 2 ^ (min k 48)) := by
    rw [sshiftRight_eq_div]
    rcases Nat.le_total k 48 with hk | hk
    · rw [Nat.min_eq_left hk]
    · have hlo : -(2 ^ 47 : Int) ≤ a.toInt := a.le_toInt
      have hhi : a.toInt < 2 ^ 47 := a.toInt_lt
      rw [Nat.min_eq_right hk, ediv_two_pow_of_le (w := 48) (by omega) (by omega) hk]
  have hcarry : (if k ≤ 47 then a.getLsbD (k - 1) else a.getLsbD 47) = a.getLsbD (min (k - 1) 47) := by
    split
    · rw [Nat.min_eq_left (by omega)]
    · rw [Nat.min_eq_right (by omega)]
  rw [sar, hval, hcarry, show decide (k ≠ 0) = decide (0 < k) from decide_eq_decide.2 (by omega)]

theorem rol_eq (a : Word) (k : Nat) : rol a k =
    res48 (BitVec.ofNat 48 (a.toNat * 2 ^ (k % 48)) ||| BitVec.ofNat 48 (a.toNat / 2 ^ (48 - k % 48)))
      (decide (k % 48 ≠ 0) && a.getLsbD (48 - k % 48)) := by
  have hcarry : (decide (k % 48 ≠ 0) && (a.rotateLeft (k % 48)).getLsbD 0) = (decide (k % 48 ≠ 0) && a.getLsbD (48 - k % 48)) := by
    by_cases hk : k % 48 = 0
    · simp [hk]
    · rw [BitVec.getLsbD_rotateLeft, Nat.mod_mod, decide_eq_true (by omega : 0 < k % 48)]
      rfl
  rw [rol, hcarry, BitVec.rotateLeft_def, Nat.mod_mod, shiftLeft_eq_ofNat, ushiftRight_eq_ofNat]

theorem ror_eq (a : Word) (k : Nat) : ror a k =
    res48 (BitVec.ofNat 48 (a.toNat / 2 ^ (k % 48)) ||| BitVec.ofNat 48 (a.toNat * 2 ^ (48 - k % 48)))
      (decide (k % 48 ≠ 0) && a.getLsbD (k % 48 - 1)) := by
  have hcarry : (decide (k % 48 ≠ 0) && (a.rotateRight (k % 48)).getLsbD 47) = (decide (k % 48 ≠ 0) && a.getLsbD (k % 48 - 1)) := by
    by_cases hk : k % 48 = 0
    · simp [hk]
    · rw [BitVec.getLsbD_rotateRight, Nat.mod_mod, decide_eq_false (by omega : ¬ 47 < 48 - k % 48)]
      simp [show 47 - (48 - k % 48) = k % 48 - 1 by omega]
  rw [ror, hcarry, BitVec.rotateRight_def, Nat.mod_mod, shiftLeft_eq_ofNat, ushiftRight_eq_ofNat]

/-- The count in B[7:0]. -/
theorem count_eq (b : Word) : (b.extractLsb' 0 8).toNat = b.toNat % 256 := by
  rw [BitVec.extractLsb'_toNat, Nat.shiftRight_zero]

/-- The operations that take their count from B. -/
theorem aluAt_shift {lo : BitVec 3} (h : lo.toNat ≤ 4) (x : AluIn) :
    aluAt ((0x20 : BitVec 7) + lo.setWidth 7) x = shift lo x.a (x.b.toNat % 256) := by
  have hcode : lo = 0 ∨ lo = 1 ∨ lo = 2 ∨ lo = 3 ∨ lo = 4 := by revert lo; decide
  rw [← count_eq]
  obtain rfl | rfl | rfl | rfl | rfl := hcode
  all_goals rfl

/-- The operations that take their count from AUX8. -/
theorem aluAt_shifti {lo : BitVec 3} (h : lo.toNat ≤ 4) (x : AluIn) :
    aluAt ((0x28 : BitVec 7) + lo.setWidth 7) x = shift lo x.a x.aux.toNat := by
  have hcode : lo = 0 ∨ lo = 1 ∨ lo = 2 ∨ lo = 3 ∨ lo = 4 := by revert lo; decide
  obtain rfl | rfl | rfl | rfl | rfl := hcode
  all_goals rfl

/-- The codes of both forms are rows of their own, and write DST and the flags. -/
theorem shift_codes {lo : BitVec 3} (h : lo.toNat ≤ 4) :
    (∀ op, op = (0x20 : BitVec 7) + lo.setWidth 7 ∨ op = (0x28 : BitVec 7) + lo.setWidth 7 →
      aluFlags op = true ∧ aluWritesDst op = true ∧ aluAccDst op = false) ∧
    (∀ w : MWord, w.aluop = (0x20 : BitVec 7) + lo.setWidth 7 → rowShlShrSarRolRor w = true) ∧
    ∀ w : MWord, w.aluop = (0x28 : BitVec 7) + lo.setWidth 7 → rowShliShriSariRoliRori w = true := by
  have hcode : lo = 0 ∨ lo = 1 ∨ lo = 2 ∨ lo = 3 ∨ lo = 4 := by revert lo; decide
  unfold rowShlShrSarRolRor rowShliShriSariRoliRori
  obtain rfl | rfl | rfl | rfl | rfl := hcode
  all_goals exact ⟨by decide, fun w hw => by rw [hw]; decide, fun w hw => by rw [hw]; decide⟩

/-- Both forms of a shift or rotate, by its result and its carry at every count. -/
theorem shiftRows_of {lo : BitVec 3} (h : lo.toNat ≤ 4) {v : Word → Nat → Word} {c : Word → Nat → Bool}
    (hr : ∀ a k, shift lo a k = res48 (v a k) (c a k)) :
    AluRow .shlShrSarRolRor ((0x20 : BitVec 7) + lo.setWidth 7) (fun x => .dst (v x.a (x.b.toNat % 256)))
      (fun x => flags48 (v x.a (x.b.toNat % 256)) (c x.a (x.b.toNat % 256)) false false) ∧
    AluRow .shliShriSariRoliRori ((0x28 : BitVec 7) + lo.setWidth 7) (fun x => .dst (v x.a x.aux.toNat))
      (fun x => flags48 (v x.a x.aux.toNat) (c x.a x.aux.toNat) false false) := by
  obtain ⟨hop, hrow, hrowi⟩ := shift_codes h
  exact ⟨dstRow_of rowShlShrSarRolRor (fun _ _ _ => rfl) hrow (hop _ (.inl rfl)) fun x => (aluAt_shift h x).trans (hr ..),
    dstRow_of rowShliShriSariRoliRori (fun _ _ _ => rfl) hrowi (hop _ (.inr rfl)) fun x => (aluAt_shifti h x).trans (hr ..)⟩

/-- Settles O6: each operation by its count table, and both forms by their count. -/
theorem shiftsAndRotatesFollowTheirCountTable : Obligations.ShiftsAndRotatesFollowTheirCountTable := by
  unfold Obligations.ShiftsAndRotatesFollowTheirCountTable
  intro Rows
  have hrows : ∀ (lo : BitVec 3) (f : Word → Nat → AluRes) v c, lo.toNat ≤ 4 → (∀ a k, shift lo a k = f a k) →
      (∀ a k, f a k = res48 (v a k) (c a k)) → Rows lo v c :=
    fun lo f v c h hf hr => shiftRows_of h fun a k => (hf a k).trans (hr a k)
  clear_value Rows
  exact ⟨hrows 0 shl _ _ (by decide) (fun _ _ => rfl) shl_eq, hrows 1 shr _ _ (by decide) (fun _ _ => rfl) shr_eq,
    hrows 2 sar _ _ (by decide) (fun _ _ => rfl) sar_eq, hrows 3 rol _ _ (by decide) (fun _ _ => rfl) rol_eq,
    hrows 4 ror _ _ (by decide) (fun _ _ => rfl) ror_eq⟩

/-! ### Accumulators (R130) -/

theorem toInt_signExtend_acc (a : Word) : (a.signExtend 104).toInt = a.toInt := BitVec.toInt_signExtend_of_le (by decide)

theorem ashr_carry (x : Acc) (k : Nat) : (decide (k ≠ 0) && (if k ≤ 103 then x.getLsbD (k - 1) else x.getLsbD 103)) =
    (decide (0 < k) && x.getLsbD (min (k - 1) 103)) := by
  rw [show decide (k ≠ 0) = decide (0 < k) from decide_eq_decide.2 (by omega)]
  split
  · rw [Nat.min_eq_left (by omega)]
  · rw [Nat.min_eq_right (by omega)]

/-! ### Checksums (R131) -/

/-- A 16-bit half of a word. -/
theorem half_eq (a : Word) (i : Nat) : (a.extractLsb' i 16).setWidth 104 = BitVec.ofNat 104 (a.toNat / 2 ^ i % 65536) := by
  apply BitVec.eq_of_toNat_eq
  rw [BitVec.toNat_setWidth, BitVec.extractLsb'_toNat, BitVec.toNat_ofNat, Nat.shiftRight_eq_div_pow]

theorem ckadd_eq (acc : Acc) (a : Word) : ckadd acc a =
    acc + BitVec.ofNat 104 (a.toNat % 65536 + a.toNat / 65536 % 65536 + a.toNat / 65536 / 65536) := by
  have ha := a.isLt
  have htop : a.toNat / 2 ^ 32 % 65536 = a.toNat / 65536 / 65536 := by
    rw [Nat.div_div_eq_div_mul]
    omega
  rw [ckadd, half_eq, half_eq, half_eq, htop, Nat.pow_zero, Nat.div_one, show 2 ^ 16 = 65536 from rfl, BitVec.ofNat_add, BitVec.ofNat_add, BitVec.add_assoc,
    BitVec.add_assoc, BitVec.add_assoc]

/-- The number from 1 to 0xFFFF that is congruent to `s` modulo 0xFFFF, and 0 for 0. -/
def residue (s : Nat) : Nat := if s = 0 then 0 else (s - 1) % 65535 + 1

theorem residue_of_fits {s : Nat} (h : s ≤ 65535) : residue s = s := by
  unfold residue
  split
  · omega
  · omega

theorem residue_fold {s : Nat} (h : 65535 < s) : residue (s % 65536 + s / 65536) = residue s := by
  unfold residue
  rw [if_neg (by omega), if_neg (by omega)]
  omega

/-- Each round takes 16 bits off the sum, and the carry that is left fits with the rest. -/
theorem ckfold_eq_residue (n : Nat) : ∀ s, s ≤ 65536 ^ n + 65534 → ckfold s n = residue s := by
  induction n with
  | zero => exact fun s h => (residue_of_fits h).symm
  | succ n ih =>
    intro s h
    rw [Nat.pow_succ] at h
    unfold ckfold
    split
    · next hs => rw [ih _ (by omega), residue_fold hs]
    · next hs => exact (residue_of_fits (by omega)).symm

theorem ckfold_acc (x : Acc) : BitVec.ofNat 48 (ckfold x.toNat 8) = if x = 0 then 0 else BitVec.ofNat 48 ((x.toNat - 1) % 65535 + 1) := by
  have hx := x.isLt
  have hzero : x = 0 ↔ x.toNat = 0 := by rw [← BitVec.toNat_inj]; rfl
  rw [ckfold_eq_residue 8 _ (by omega), residue]
  simp only [hzero]
  split
  · rfl
  · rfl

/-- Settles O7: each operation by the equation of its result. -/
theorem accumulatorAndChecksumOperationsWriteTheirResult : Obligations.AccumulatorAndChecksumOperationsWriteTheirResult := by
  unfold Obligations.AccumulatorAndChecksumOperationsWriteTheirResult
  refine ⟨?aclr, ?aadd, ?asub, ?ashr, ?ahi, ?ckadd, ?ckfold, ?crcb, ?crcw, ?crcfin⟩
  case aclr => exact accRow_of rowAclr (fun _ _ _ => rfl) (by simp +contextual [rowAclr]) (by decide) fun _ => rfl
  case aadd =>
    refine accRow_of rowAaddAsub (fun _ _ _ => rfl) (by simp +contextual [rowAaddAsub]) (by decide) fun x => ?_
    have hsum := addc_false x.accD (x.a.signExtend 104)
    rw [toInt_signExtend_acc] at hsum
    exact congrArg (fun r : Acc × Bool × Bool => res104 r.1 r.2.1 r.2.2) hsum
  case asub =>
    refine accRow_of rowAaddAsub (fun _ _ _ => rfl) (by simp +contextual [rowAaddAsub]) (by decide) fun x => ?_
    have hdiff := subb_false x.accD (x.a.signExtend 104)
    rw [toInt_signExtend_acc] at hdiff
    exact congrArg (fun r : Acc × Bool × Bool => res104 r.1 r.2.1 r.2.2) hdiff
  case ashr =>
    exact accRow_of rowAshr (fun _ _ _ => rfl) (by simp +contextual [rowAshr]) (by decide) fun x =>
      congrArg₂ (fun v c => res104 v c) (sshiftRight_eq_div x.accD x.aux.toNat) (ashr_carry x.accD x.aux.toNat)
  case ahi =>
    exact dstRow_of rowAhi (fun _ _ _ => rfl) (by simp +contextual [rowAhi]) (by decide) fun x =>
      congrArg (fun k => res48 (BitVec.ofNat 48 k)) (Nat.shiftRight_eq_div_pow x.accA.toNat 48)
  case ckadd =>
    exact accRow_of rowCkadd (fun _ _ _ => rfl) (by simp +contextual [rowCkadd]) (by decide) fun x =>
      congrArg (fun v => res104 v) (ckadd_eq x.accD x.a)
  case ckfold =>
    exact dstRow_of rowCkfold (fun _ _ _ => rfl) (by simp +contextual [rowCkfold]) (by decide) fun x =>
      congrArg (fun v => res48 v) (ckfold_acc x.accA)
  case crcb => exact accRow_of rowCrcb (fun _ _ _ => rfl) (by simp +contextual [rowCrcb]) (by decide) fun _ => rfl
  case crcw => exact accRow_of rowCrcw (fun _ _ _ => rfl) (by simp +contextual [rowCrcw]) (by decide) fun _ => rfl
  case crcfin =>
    exact dstRow_of rowCrcfin (fun _ _ _ => rfl) (by simp +contextual [rowCrcfin]) (by decide) fun x =>
      congrArg (fun v : BitVec 32 => res48 (v.setWidth 48)) (BitVec.xor_allOnes (x := x.accA.extractLsb' 0 32))

end Sys2Proof.Machine

/-! Sequencer words: NEXT, JUMP, DISPATCH, LOOP, TRAP, HALT and SYNC (R91..R95, R145, R465, R472). -/

namespace Sys2Proof.Machine
open Sys2Proof

/-! ### A word's effect on its engine and its cluster -/

section
variable {b : Block} {n : CtxNo} {w : MWord}

theorem setFile_modClu (B : Block) (m : CtxNo) (l : Lvl) (v : Ctx) (x : CluId) (f : Clu → Clu) :
    (B.setFile m l v).modClu x f = (B.modClu x f).setFile m l v := rfl

theorem setFile_setClu (B : Block) (m : CtxNo) (l : Lvl) (v : Ctx) (x : CluId) (u : Clu) :
    (B.setClu x u).setFile m l v = (B.setFile m l v).setClu x u := rfl

theorem eng_selected (b : Block) (n : CtxNo) : (selected b n).eng (engOf n) = issuedEng b n := by
  rw [selected, eng_setCtx, eng_setEng_same, issuedEng]

/-- The parts that a word changes, in a block `B` that differs from the present one in its bank's grants. -/
theorem parts_set (B : Block) (f : Nat) (n : CtxNo) (c : Ctx) (g : Eng) (x : CluId) (u : Clu) :
    let t := (({ B with free := f }.setEng (engOf n) g).setCtx n c).setClu x u
    t = { B with ctxs := t.ctxs, engs := t.engs, clus := t.clus, seq := B.seq + 0, free := t.free } ∧
      (∀ m, t.ctx m = if m = n then c else B.ctx m) ∧ (∀ y, t.eng y = if y = engOf n then g else B.eng y) ∧
      ∀ y, t.clu y = if y = x then u else B.clu y :=
  ⟨rfl, fun m => by rw [ctx_setClu, ctx_setCtx]; rfl, fun y => by rw [eng_setClu, eng_setCtx, eng_setEng]; rfl,
    fun y => by rw [clu_setClu]; rfl⟩

theorem modEng_setFile_eq (b : Block) (n : CtxNo) (v : Ctx) (fe : Eng → Eng) :
    ((selected b n).modEng (engOf n) fe).setFile n (lvlOf b n) v =
      ({ granted b n with free := selFree b n }.setEng (engOf n) (unviewEng (fe (issuedEng b n)) v (lvlOf b n))).setCtx n
        (unviewCtx (b.ctx n) v (lvlOf b n)) := by
  have hctx : unviewCtx ((selected b n).ctx n) v (lvlOf b n) = unviewCtx (b.ctx n) v (lvlOf b n) := by
    rw [ctx_selected]
    cases lvlOf b n <;> rfl
  rw [Block.setFile, modEng_eq, modEng_eq, ctx_setEng, hctx, eng_setEng_same, eng_selected, selected, setCtx_setEng, setCtx_setEng,
    setEng_setEng, setEng_setEng, setCtx_setCtx]

/-- A word that changes its file and its cluster. -/
theorem wordEffect_modClu (b : Block) (n : CtxNo) (v : Ctx) (fc : Clu → Clu) :
    WordEffect b (((selected b n).modClu (cluOf (engOf n)) fc).setFile n (lvlOf b n) v) n v (fun g => g) fc 0 := by
  rw [modClu_eq, setFile_setClu, selected_setFile_eq, clu_selected]
  obtain ⟨hframe, hctx, heng, hclu⟩ := parts_set (granted b n) (selFree b n) n (unviewCtx (b.ctx n) v (lvlOf b n))
    (unviewEng (issuedEng b n) v (lvlOf b n)) (cluOf (engOf n)) (fc (b.clu (cluOf (engOf n))))
  refine ⟨hframe, hctx, heng, fun x => (hclu x).trans ?_⟩
  split
  · next hx => rw [hx]
  · rfl

/-- A word that changes its file alone. -/
theorem WordEffect.of_onlyFile {t : Block} {c : Ctx} {fe : Eng → Eng} (h : OnlyFile b t n c) (hfe : fe (issuedEng b n) = issuedEng b n) :
    WordEffect b t n c fe (fun v => v) 0 := by
  obtain ⟨hframe, hctx, heng⟩ := h
  refine ⟨by rw [hframe]; rfl, hctx, fun x => by rw [heng x, hfe]; rfl, fun x => ?_⟩
  rw [ite_self, hframe]
  rfl

/-- A word that changes its file and its engine. -/
theorem wordEffect_modEng (b : Block) (n : CtxNo) (v : Ctx) (fe : Eng → Eng) :
    WordEffect b (((selected b n).modEng (engOf n) fe).setFile n (lvlOf b n) v) n v fe (fun v => v) 0 := by
  rw [modEng_setFile_eq]
  obtain ⟨hframe, hctx, heng⟩ := onlyParts_set (granted b n) (selFree b n) n (unviewCtx (b.ctx n) v (lvlOf b n))
    (unviewEng (fe (issuedEng b n)) v (lvlOf b n))
  refine ⟨by rw [hframe]; rfl, hctx, heng, fun x => ?_⟩
  rw [ite_self]
  rfl

end

/-! ### The loop buffer's range (R67) -/

section
variable {b : Block} {n : CtxNo} {s : Snap} {w : MWord}

/-- A target back by at most 63. -/
theorem goesBack_iff (upc a : CsAddr) : (a.toNat ≤ upc.toNat ∧ upc.toNat - a.toNat ≤ 63) ↔ (a.toNat ≤ upc.toNat ∧ upc.toNat ≤ a.toNat + 63) := by
  omega

theorem lbSet_eq (b : Block) : lbSet n s b =
    if s.w.target.toNat ≤ s.upc.toNat ∧ s.upc.toNat ≤ s.w.target.toNat + 63 then b.modEng (engOf n) (loopRange s.upc s.w.target) else b := by
  unfold lbSet
  dsimp only
  simp only [goesBack_iff]
  split
  · next h =>
    refine congrArg (b.modEng (engOf n)) (funext fun g => ?_)
    simp only [loopRange, h, and_self, if_true, Bool.and_eq_true, beq_iff_eq, and_assoc]
  · rfl

theorem loopRange_unviewEng (u a : CsAddr) (g : Eng) (v : Ctx) (l : Lvl) : loopRange u a (unviewEng g v l) = unviewEng (loopRange u a g) v l := by
  have hon : (unviewEng g v l).lbOn = g.lbOn := by cases l <;> rfl
  have hbase : (unviewEng g v l).lbBase = g.lbBase := by cases l <;> rfl
  have hlast : (unviewEng g v l).lbLast = g.lbLast := by cases l <;> rfl
  unfold loopRange
  rw [hon, hbase, hlast]
  split_ifs
  · rfl
  · cases l <;> rfl
  · rfl

/-- A word that goes back to its target sets the loop buffer's range and changes nothing else but its file. -/
theorem wordEffect_lbSet (b : Block) (n : CtxNo) (w : MWord) (c v : Ctx) (f : Block → Block)
    (hf : ∀ B : Block, B.ctx n = (selected b n).ctx n → f (B.setFile n (lvlOf b n) c) = B.setFile n (lvlOf b n) v) :
    WordEffect b (f (lbSet n (snapOf b n w none false) ((selected b n).setFile n (lvlOf b n) c))) n v (loopRange (b.ctx n).upc w.target)
      (fun v => v) 0 := by
  rw [lbSet_eq, upc_snapOf, word_snapOf]
  split
  · rw [modEng_setFile _ _ _ _ _ (fun g v => loopRange_unviewEng _ _ g v _),
      hf _ (by rw [modEng_eq, ctx_setEng])]
    exact wordEffect_modEng ..
  · next h =>
    rw [hf _ rfl]
    refine .of_onlyFile (onlyFile_setFile ..) ?_
    exact if_neg h

end

/-! ### The sequencer operations -/

section
variable {n : CtxNo} {s : Snap}

theorem seqApply_jump (h : s.w.seq = 1) (b : Block) : seqApply n s b = goto n s.w.target (lbSet n s b) := by
  simp only [seqApply, h]; rfl

theorem seqApply_trap (h : s.w.seq = 5) (b : Block) :
    seqApply n s b = trap n s 0x0C (s.w.aux8.setWidth 48) (goto n (s.upc + 1) b) := by
  simp only [seqApply, h]; rfl

theorem seqApply_dispatch (h : s.w.seq = 8) (b : Block) : seqApply n s b =
    goto n (s.w.target + BitVec.ofNat 14 (s.a.toNat % 2 ^ (s.w.aux8.extractLsb' 0 4).toNat * 2 ^ (s.w.aux8.extractLsb' 4 2).toNat)) b := by
  simp only [seqApply, h]; rfl

theorem seqApply_loop (h : s.w.seq = 9) (b : Block) : seqApply n s b =
    goto n (if (b.file n s.lvl).lc - 1 = 0 then s.upc + 1 else s.w.target)
      ((lbSet n s b).modFile n s.lvl (fun c => { c with lc := (b.file n s.lvl).lc - 1 })) := by
  simp only [seqApply, h]; rfl

theorem seqApply_sync (h : s.w.seq = 12) (b : Block) : seqApply n s b = syncArrive n s b := by
  simp only [seqApply, h]; rfl

theorem seqApply_halt (h : s.w.seq = 14) (b : Block) : seqApply n s b = seqHalt n s b := by
  simp only [seqApply, h]; rfl
end

/-- Settles O9: each operation by its target, JUMP and LOOP with the loop buffer's range (`wordEffect_lbSet`). -/
theorem nextJumpDispatchAndLoopContinueAtTheirTarget : Obligations.NextJumpDispatchAndLoopContinueAtTheirTarget := by
  unfold Obligations.NextJumpDispatchAndLoopContinueAtTheirTarget
  refine fun s e k w h ha => ⟨fun hseq => ?next, fun hseq => ?jump, fun hseq => ?dispatch, fun hseq => ?loop⟩
  case next =>
    refine gives_of_exec rfl ?_
    rw [issueAs_seqAlone h ha rowNext (by simp [rowNext, hseq]) (by simp [hseq]) (by simp [hseq]) (by simp [hseq]),
      seqApply_next (s := snapOf s.blk (ctxNo e k) w none false) hseq, goto_quieted, upc_snapOf]
    exact onlyFile_setFile ..
  case jump =>
    refine gives_of_exec rfl ?_
    rw [issueAs_seqAlone h ha rowJump (by simp [rowJump, hseq]) (by simp [hseq]) (by simp [hseq]) (by simp [hseq]),
      seqApply_jump (s := snapOf s.blk (ctxNo e k) w none false) hseq]
    exact wordEffect_lbSet _ _ _ _ _ (goto _ w.target) fun B _ => goto_setFile ..
  case dispatch =>
    have hlow : (w.aux8.extractLsb' 0 4).toNat = w.aux8.toNat % 16 := by
      rw [BitVec.extractLsb'_toNat, Nat.shiftRight_zero]
    have hscale : (w.aux8.extractLsb' 4 2).toNat = w.aux8.toNat / 16 % 4 := by
      rw [BitVec.extractLsb'_toNat, Nat.shiftRight_eq_div_pow]
    refine gives_of_exec rfl ?_
    rw [issueAs_seqAlone h ha rowDispatch (by simp [rowDispatch, hseq]) (by simp [hseq]) (by simp [hseq]) (by simp [hseq]),
      seqApply_dispatch (s := snapOf s.blk (ctxNo e k) w none false) hseq, goto_quieted, word_snapOf, hlow, hscale]
    exact onlyFile_setFile ..
  case loop =>
    refine gives_of_exec rfl ?_
    rw [issueAs_seqAlone h ha rowLoop (by simp [rowLoop, hseq]) (by simp [hseq]) (by simp [hseq]) (by simp [hseq]),
      seqApply_loop (s := snapOf s.blk (ctxNo e k) w none false) hseq]
    have hfor := fileFor_selected s.blk (ctxNo e k) (lvlOf s.blk (ctxNo e k)) (stepOver (readFile s.blk (ctxNo e k) w)) rfl
    have hlc : ((quieted s.blk (ctxNo e k) w).file (ctxNo e k) (lvlOf s.blk (ctxNo e k))).lc = (readFile s.blk (ctxNo e k) w).lc := by
      rw [file_setFile _ _ _ _ hfor]
      rfl
    have hends : (readFile s.blk (ctxNo e k) w).lc - 1 = 0 ↔ (readFile s.blk (ctxNo e k) w).lc = 1 := sub_eq_zero
    simp only [snap_lvl, hlc, hends, upc_snapOf, word_snapOf]
    refine wordEffect_lbSet s.blk (ctxNo e k) w (stepOver (readFile s.blk (ctxNo e k) w)) _
      (fun B => goto _ _ (B.modFile _ _ (fun c => { c with lc := (readFile s.blk (ctxNo e k) w).lc - 1 }))) fun B hB => ?_
    rw [modFile_setFile _ _ _ _ _ (by rw [hB]; exact hfor), goto_setFile]
    rfl

theorem dbg_quieted (b : Block) (n : CtxNo) (w : MWord) : ((quieted b n w).eng (engOf n)).dbg = (b.eng (engOf n)).dbg := by
  obtain ⟨i, r1, r2, rc, cs, buf, he⟩ := lb_eng b n
  rw [eng_setFile, if_pos rfl, eng_selected, issuedEng, he]
  cases lvlOf b n <;> rfl

theorem askHalt_setFile (B : Block) (n : CtxNo) (l : Lvl) (v : Ctx) (x : BitVec 3) (y : BitVec 5) :
    askHalt n x y (B.setFile n l v) = B.setFile n l { v with halt := { v.halt with request := some (x, y) } } :=
  modCtx_setFile B n l v _ (by cases l <;> intros <;> rfl) (by cases l <;> intros <;> rfl)

theorem askEngineHalt_setFile (B : Block) (n : CtxNo) (l : Lvl) (v : Ctx) :
    askEngineHalt (engOf n) (B.setFile n l v) = (askEngineHalt (engOf n) B).setFile n l v :=
  modEng_setFile B n l v _ (by cases l <;> intros <;> rfl)

section
variable {b : Block} {n : CtxNo} {w : MWord}

theorem issueAs_halt (h : Issues b n w) (ha : SeqAlone w) (hseq : w.seq = 14) :
    issueAs rowHalt n b = seqHalt n (snapOf b n w none false) (quieted b n w) := by
  rw [issueAs_seqAlone h ha rowHalt (by simp [rowHalt, hseq]) (by simp [hseq]) (by simp [hseq]) (by simp [hseq]),
    seqApply_halt (s := snapOf b n w none false) hseq]

/-- HALT under MODE = 1 asks a halt of its context, and of its engine under HALTALL (R465, R467). -/
theorem wordEffect_halt (h : Issues b n w) (ha : SeqAlone w) (hseq : w.seq = 14) (hmode : (b.eng (engOf n)).dbg.mode = 1) :
    let at1 := goneTo ((b.ctx n).upc + 1) (readFile b n w)
    WordEffect b (issueAs rowHalt n b) n { at1 with halt := { at1.halt with request := some (2, 0) } }
      (fun g => if (b.eng (engOf n)).dbg.haltAll then { g with dbg := { g.dbg with haltReq := true } } else g) (fun v => v) 0 := by
  rw [issueAs_halt h ha hseq, seqHalt]
  simp only [dbg_quieted, goto_quieted, upc_snapOf, hmode, if_true, askHalt_setFile]
  cases hall : (b.eng (engOf n)).dbg.haltAll
  · exact .of_onlyFile (onlyFile_setFile ..) rfl
  · simp only [if_true, askEngineHalt_setFile]
    exact wordEffect_modEng ..

/-- HALT under MODE = 2 at program level raises DEBUG (R472). -/
theorem onlyFile_halt_debug (h : Issues b n w) (ha : SeqAlone w) (hseq : w.seq = 14) (hmode : (b.eng (engOf n)).dbg.mode = 2)
    (hprog : lvlOf b n = .prog) :
    OnlyFile b (issueAs rowHalt n b) n { goneTo ((b.ctx n).upc + 1) (readFile b n w) with
      excs := withExc b.now (readFile b n w).excs
        { code := 0x0E, kind := 2, sub := 0x3E, fupc := (b.ctx n).upc, lvl := .prog } } := by
  rw [issueAs_halt h ha hseq, seqHalt, ← hprog]
  simp only [dbg_quieted, goto_quieted, upc_snapOf, snap_lvl, hmode, show ¬ (2 : BitVec 2) = 1 by decide, hprog, and_self, if_true, if_false]
  rw [pendExc_setFile rfl]
  have hfile := onlyFile_setFile b n { goneTo ((b.ctx n).upc + 1) (readFile b n w) with
    excs := withExc b.now (readFile b n w).excs { code := 0x0E, kind := 2, sub := 0x3E, fupc := (b.ctx n).upc, lvl := .prog } }
  rw [hprog] at hfile
  exact hfile

/-- HALT otherwise passes. -/
theorem onlyFile_halt_pass (h : Issues b n w) (ha : SeqAlone w) (hseq : w.seq = 14) (hmode : ¬ (b.eng (engOf n)).dbg.mode = 1)
    (hdebug : ¬ ((b.eng (engOf n)).dbg.mode = 2 ∧ lvlOf b n = .prog)) :
    OnlyFile b (issueAs rowHalt n b) n (goneTo ((b.ctx n).upc + 1) (readFile b n w)) := by
  rw [issueAs_halt h ha hseq, seqHalt]
  simp only [dbg_quieted, goto_quieted, upc_snapOf, snap_lvl, hmode, hdebug, if_false]
  exact onlyFile_setFile ..

end

/-- Settles O12: TRAP with its exception (`pendExc_setFile`), and HALT by the debug mode. -/
theorem trapAndHaltActAsTheDebugModeAndTheTrapRuleSay : Obligations.TrapAndHaltActAsTheDebugModeAndTheTrapRuleSay := by
  unfold Obligations.TrapAndHaltActAsTheDebugModeAndTheTrapRuleSay
  refine fun s e k w h ha => ⟨fun hseq => ?trap, fun hseq => ?halt⟩
  case trap =>
    refine gives_of_exec rfl ?_
    rw [issueAs_seqAlone h ha rowTrap (by simp [rowTrap, hseq]) (by simp [hseq]) (by simp [hseq]) (by simp [hseq]),
      seqApply_trap (s := snapOf s.blk (ctxNo e k) w none false) hseq, goto_quieted, upc_snapOf, trap, pendExc_setFile rfl, upc_snapOf]
    exact onlyFile_setFile ..
  case halt =>
    have he : engOf (ctxNo e k) = e := engOf_ctxNo e k
    refine gives_of_exec rfl ?_
    have hask := wordEffect_halt h ha hseq
    have hdebug := onlyFile_halt_debug h ha hseq
    have hpass := onlyFile_halt_pass h ha hseq
    rw [he] at hask hdebug hpass
    split
    · next hmode => exact hask hmode
    · next hmode =>
      split
      · next hprog => exact hdebug hprog.1 hprog.2
      · next hprog => exact hpass hmode hprog

end Sys2Proof.Machine

/-! SYNC: an arrival, the release by the last one, and a timeout (R51, R95). -/

namespace Sys2Proof.Machine
open Sys2Proof

section
variable {b : Block} {n : CtxNo} {w : MWord}

/-- A member of a barrier goes on behind its SYNC. -/
def passBarrier (m : CtxNo) (b : Block) : Block := b.modCtx m (fun c => { c with upc := c.upc + 1, act := .idle })

/-- The members of a barrier go on, once for each arrival. -/
def passAll (l : List CtxNo) (b : Block) : Block := l.foldl (fun b m => passBarrier m b) b

theorem passAll_frame (l : List CtxNo) : ∀ b : Block, passAll l b = { b with ctxs := (passAll l b).ctxs } := by
  induction l with
  | nil => exact fun b => rfl
  | cons m l ih => exact fun b => ih (passBarrier m b)

theorem ctx_passAll (l : List CtxNo) (x : CtxNo) : ∀ b : Block, (passAll l b).ctx x =
    if x ∈ l then { b.ctx x with upc := (b.ctx x).upc + BitVec.ofNat 14 (l.count x), act := .idle } else b.ctx x := by
  induction l with
  | nil => exact fun b => rfl
  | cons m l ih =>
    intro b
    have hstep : (passBarrier m b).ctx x = if x = m then { b.ctx m with upc := (b.ctx m).upc + 1, act := .idle } else b.ctx x := by
      rw [passBarrier, modCtx_eq, ctx_setCtx]
    rw [show passAll (m :: l) b = passAll l (passBarrier m b) from rfl, ih, hstep]
    by_cases hx : x = m
    · subst hx
      simp only [if_true, List.mem_cons, true_or, List.count_cons_self]
      split
      · next hmem =>
        rw [BitVec.ofNat_add, BitVec.add_assoc, BitVec.add_comm (1 : CsAddr)]
        rfl
      · next hmem => rw [List.count_eq_zero_of_not_mem hmem]; rfl
    · simp only [hx, List.mem_cons, false_or, if_false, List.count_cons_of_ne (Ne.symm hx)]

theorem clu_quieted (b : Block) (n : CtxNo) (w : MWord) (x : CluId) : (quieted b n w).clu x = b.clu x := by
  rw [quieted, Block.setFile, modEng_eq, clu_setCtx, clu_setEng, clu_selected]

/-- The cluster with a barrier. -/
def setBar (bar : BitVec 3) (r : Barrier) (v : Clu) : Clu := { v with bars := Map.set {} v.bars bar.toNat r }

/-- An arrival that does not complete its barrier stops its context; the last one releases every member. -/
theorem syncArrive_quieted : syncArrive n (snapOf b n w none false) (quieted b n w) =
    let cl := cluOf (engOf n)
    let bar := w.imm48.extractLsb' 0 3
    let want := (w.imm48.extractLsb' 3 8).toNat
    let here := (Map.get {} (b.clu cl).bars bar.toNat).members
    if want ≤ here.length + 1 then goto n ((b.ctx n).upc + 1) (passAll here ((quieted b n w).modClu cl (setBar bar {})))
    else stop n (.sync bar (deadline b.now w.aux8) w.target)
      ((quieted b n w).modClu cl (setBar bar { n := want, members := here ++ [n] })) := by
  unfold syncArrive
  simp only [word_snapOf, now_quieted, upc_snapOf, clu_quieted]
  rfl

theorem wordEffect_syncHeld (hwant : ¬ (w.imm48.extractLsb' 3 8).toNat ≤
      (Map.get {} (b.clu (cluOf (engOf n))).bars (w.imm48.extractLsb' 0 3).toNat).members.length + 1) :
    let bar := w.imm48.extractLsb' 0 3
    let here := (Map.get {} (b.clu (cluOf (engOf n))).bars bar.toNat).members
    WordEffect b (syncArrive n (snapOf b n w none false) (quieted b n w)) n
      (heldIn (.sync bar (deadline b.now w.aux8) w.target) (readFile b n w)) (fun g => g)
      (setBar bar { n := (w.imm48.extractLsb' 3 8).toNat, members := here ++ [n] }) 0 := by
  rw [syncArrive_quieted]
  simp only [hwant, if_false]
  rw [setFile_modClu, stop_setFile]
  exact wordEffect_modClu ..

theorem syncReleased (hwant : (w.imm48.extractLsb' 3 8).toNat ≤
      (Map.get {} (b.clu (cluOf (engOf n))).bars (w.imm48.extractLsb' 0 3).toNat).members.length + 1) :
    let bar := w.imm48.extractLsb' 0 3
    let here := (Map.get {} (b.clu (cluOf (engOf n))).bars bar.toNat).members
    let c := readFile b n w
    let t := syncArrive n (snapOf b n w none false) (quieted b n w)
    t = { granted b n with ctxs := t.ctxs, engs := t.engs, clus := t.clus, free := t.free } ∧
      (∀ m, t.ctx m = if m = n then unviewCtx (b.ctx n) (goneTo ((b.ctx n).upc + 1) c) (lvlOf b n)
        else if m ∈ here then { b.ctx m with upc := (b.ctx m).upc + BitVec.ofNat 14 (here.count m), act := .idle } else b.ctx m) ∧
      (∀ x, t.eng x = if x = engOf n then unviewEng (issuedEng b n) c (lvlOf b n) else b.eng x) ∧
      ∀ x, t.clu x = if x = cluOf (engOf n) then setBar bar {} (b.clu x) else b.clu x := by
  intro bar here c t
  obtain ⟨hframe, hctx, heng, hclu⟩ := wordEffect_modClu b n (stepOver c) (setBar bar {})
  have ht : t = goto n ((b.ctx n).upc + 1) (passAll here (((selected b n).modClu (cluOf (engOf n)) (setBar bar {})).setFile n
      (lvlOf b n) (stepOver c))) := by
    rw [← setFile_modClu]
    show syncArrive n (snapOf b n w none false) (quieted b n w) = _
    rw [syncArrive_quieted]
    simp only [hwant, if_true]
    rfl
  generalize ((selected b n).modClu (cluOf (engOf n)) (setBar bar {})).setFile n (lvlOf b n) (stepOver c) = X at ht hframe hctx heng hclu
  have hpass := passAll_frame here X
  have hengs : t.engs = X.engs := by rw [ht, goto, modCtx_eq, hpass]; rfl
  have hclus : t.clus = X.clus := by rw [ht, goto, modCtx_eq, hpass]; rfl
  have hfree : t.free = X.free := by rw [ht, goto, modCtx_eq, hpass]; rfl
  refine ⟨?frame, fun m => ?ctx, fun x => ?eng, fun x => ?clu⟩
  case frame =>
    have hall : t = { X with ctxs := t.ctxs } := by rw [ht, goto, modCtx_eq, hpass]; rfl
    rw [hengs, hclus, hfree, hall, hframe]
    rfl
  case ctx =>
    rw [ht, goto, modCtx_eq, ctx_setCtx]
    split
    · have hn : { (passAll here X).ctx n with upc := (b.ctx n).upc + 1, act := .idle } =
          { X.ctx n with upc := (b.ctx n).upc + 1, act := .idle } := by
        rw [ctx_passAll]
        split
        · rfl
        · rfl
      rw [hn, hctx, if_pos rfl]
      cases lvlOf b n <;> rfl
    · next hm => rw [ctx_passAll, hctx, if_neg hm]
  case eng =>
    rw [show t.eng x = X.eng x by simp only [Block.eng, hengs], heng]
    cases lvlOf b n <;> rfl
  case clu => rw [show t.clu x = X.clu x by simp only [Block.clu, hclus], hclu]

end

section
variable {b : Block} {n : CtxNo} {bar : BitVec 3} {tmo : Option Nat} {target : CsAddr}

/-- The barrier without a member. -/
def without (n : CtxNo) (r : Barrier) : Barrier :=
  if r.members.filter (fun x => x != n) = [] then {} else { r with members := r.members.filter (fun x => x != n) }

theorem members_without (n : CtxNo) (r : Barrier) : (without n r).members = r.members.filter (fun x => x != n) := by
  unfold without
  split
  · next h => exact h.symm
  · rfl

/-- A withdrawn arrival takes its context out of its barrier. -/
theorem withdraw_eq (hact : (b.ctx n).act = .sync bar tmo target) : withdraw n b =
    b.modClu (cluOf (engOf n)) (fun v => setBar bar (without n (Map.get {} v.bars bar.toNat)) v) := by
  unfold withdraw
  rw [hact]
  rfl

/-- A due timeout withdraws the arrival, sets TMO and goes to its target (R51, R95). -/
theorem opSyncTimeout_eq {d : Nat} (hact : (b.ctx n).act = .sync bar (some d) target) (hlvl : lvlOf b n = .prog) (hd : d ≤ b.now)
    (hpause : b.paused_ (cluOf (engOf n)) = false) : opSyncTimeout n b =
      (b.setFile n .prog { b.ctx n with stat := putBit (b.ctx n).stat 8 true, upc := target, act := .idle }).setClu (cluOf (engOf n))
        (setBar bar (without n (Map.get {} (b.clu (cluOf (engOf n))).bars bar.toNat)) (b.clu (cluOf (engOf n)))) := by
  have hmod : ∀ (B : Block) (f : Ctx → Ctx), B.modFile n (b.ctx n).lvl f = B.modFile n .prog f := fun B f => congrArg (B.modFile n · f) hlvl
  unfold opSyncTimeout
  rw [hact]
  simp only [hd, hpause, decide_true, Bool.not_false, Bool.and_self, if_true]
  have hfile : ∀ (x : CluId) (u : Clu), (b.setClu x u).file n .prog = b.ctx n := fun _ _ => rfl
  rw [withdraw_eq hact, hmod, modClu_eq, Block.modFile, hfile, goto_setFile, setFile_setClu]

end

/-- Settles O11: an arrival waits or releases its barrier (`wordEffect_syncHeld`, `syncReleased`), a timeout withdraws it. -/
theorem syncHoldsItsMembersUntilTheLastArrives : Obligations.SyncHoldsItsMembersUntilTheLastArrives := by
  unfold Obligations.SyncHoldsItsMembersUntilTheLastArrives
  refine ⟨fun s e k w h ha hseq => ?arrive, fun s e k bar d target hact hlvl hd hpause => ?timeout⟩
  case arrive =>
    have he : engOf (ctxNo e k) = e := engOf_ctxNo e k
    refine gives_of_exec rfl ?_
    rw [issueAs_seqAlone h ha rowSync (by simp [rowSync, hseq]) (by simp [hseq]) (by simp [hseq]) (by simp [hseq]),
      seqApply_sync (s := snapOf s.blk (ctxNo e k) w none false) hseq]
    have hheld := wordEffect_syncHeld (b := s.blk) (n := ctxNo e k) (w := w)
    have hreleased := syncReleased (b := s.blk) (n := ctxNo e k) (w := w)
    rw [he, deadline_eq] at hheld
    rw [he] at hreleased
    split
    · next hlt => exact hheld (by omega)
    · next hge => exact hreleased (by omega)
  case timeout =>
    have he : engOf (ctxNo e k) = e := engOf_ctxNo e k
    refine gives_of_exec rfl ?_
    rw [opSyncTimeout_eq hact hlvl hd (by rw [he]; exact hpause), he]
    refine ⟨rfl, fun m => ?_, fun x => ?_, fun x hx => ?_, ?_, fun j hj => ?_⟩
    · rw [ctx_setClu, ctx_setFile]
      rfl
    · rw [eng_setClu, eng_setFile]
      split
      · next hx => rw [hx]; rfl
      · rfl
    · rw [clu_setClu, if_neg hx]
      rfl
    · rw [clu_setClu_same, setBar, Map.get_set_self, members_without]
    · rw [clu_setClu_same, setBar, Map.get_set_ne _ _ _ hj]

end Sys2Proof.Machine

/-! Words that hold one XFER code (R111, R203, R208). -/

namespace Sys2Proof.Machine
open Sys2Proof

/-! ### A word without an ALU or memory operation -/

/-- What an XFER code leaves of a register file: a get code's value in DST, or a set code's register (R111). -/
def xferRegs (b : Block) (n : CtxNo) (s : Snap) (c : Ctx) : Ctx :=
  let c := if xferGets s.w.xfer then writeDst s.priv c s.w.dst (xferGet b n s) else c
  match s.w.xfer.toNat with
  | 0x02 => { c with latch := c.latch.clear b.now (s.b.extractLsb' 0 24) }
  | 0x04 => { c with evMask := s.b.extractLsb' 0 16 }
  | 0x06 => { c with stkBase := s.b }
  | _ => c

/-- The word has no ALU and no memory operation, and but one of a lane operation and an XFER code. -/
abbrev NoAluMem (w : MWord) : Prop := w.aluop = 0 ∧ w.memop = 0 ∧ (w.laneop = 0 ∨ w.xfer = 0)

section
variable {b : Block} {n : CtxNo} {s : Snap}

theorem dstValue_get (ha : NoAluMem s.w) (hget : xferGets s.w.xfer = true) : dstValue b n s = some (xferGet b n s) := by
  obtain ⟨halu, -, hl | hx⟩ := ha
  · simp [dstValue, halu, hl, hget, aluWritesDst, laneWritesDst]
  · rw [hx] at hget
    exact absurd hget (by decide)

theorem wRegs_noAluMem (ha : NoAluMem s.w) : wRegs b n s = xferRegs b n s (b.file n s.lvl) := by
  obtain ⟨halu, hm, -⟩ := id ha
  have hmem : s.w.isMem = false := by simp [MWord.isMem, hm]
  have hval : aluOf b n s = {} := alu_none _ (.inl (by rw [halu]; rfl)) ..
  have hflags : aluFlags 0 = false := rfl
  have hacc : aluAccDst 0 = false := rfl
  have hdst : aluWritesDst 0 = false := rfl
  unfold wRegs xferRegs
  simp only [hval, halu, hflags, hacc, hdst, hmem, setReg16_reg16, Bool.and_false, Bool.false_and, Bool.false_or, Bool.or_false,
    Bool.false_eq_true, if_false, putBit_getLsbD]
  cases hget : xferGets s.w.xfer
  · rfl
  · rw [dstValue_get ha hget] <;> rfl

/-- The file that such a word leaves, with the sticky EARLY. -/
def xferFile (b : Block) (n : CtxNo) (s : Snap) : Ctx := earlied (seesEarly b n s.w) (xferRegs b n s (b.file n s.lvl))

theorem xferRegs_shadow (c : Ctx) : (xferRegs b n s c).shadow = c.shadow := by
  have hget : (if xferGets s.w.xfer then writeDst s.priv c s.w.dst (xferGet b n s) else c).shadow = c.shadow := by
    split
    · exact writeDst_shadow ..
    · rfl
  unfold xferRegs
  dsimp only
  split
  · exact hget
  · exact hget
  · exact hget
  · exact hget

theorem fileFor_xferFile (B : Block) (h : B.ctx n = b.ctx n) : FileFor (B.ctx n) s.lvl (xferFile b n s) := by
  rw [h]
  exact fileFor_of_shadow _ _ _ (xferRegs_shadow _)

theorem mulOf_none (halu : s.w.aluop = 0) : mulOf s = none := by
  simp only [mulOf, halu]
  rfl

/-- SETEUPC's write of its level's bank (R111). -/
def bankWith (s : Snap) (g : Eng) : Eng :=
  if s.w.xfer = 0x0B then g.modBank s.lvl (fun k => { k with eupc := s.b.extractLsb' 0 14 }) else g

theorem bankWith_unviewEng (g : Eng) (v : Ctx) : bankWith s (unviewEng g v s.lvl) = unviewEng (bankWith s g) v s.lvl := by
  unfold bankWith
  split
  · cases s.lvl <;> rfl
  · rfl

/-- The W stage within the context. -/
theorem wInternal_noAluMem (ha : NoAluMem s.w) (b : Block) : wInternal n s b =
    if s.w.xfer = 0x0B then (b.modEng (engOf n) (bankWith s)).setFile n s.lvl (xferFile b n s)
    else b.setFile n s.lvl (xferFile b n s) := by
  have hdiv : s.w.isDiv = false := by simp [MWord.isDiv, ha.1]
  unfold wInternal
  simp only [mulOf_none ha.1, hdiv, ha.1, show aluFlags 0 = false from rfl, Bool.and_false, Bool.false_and, Bool.false_eq_true, if_false,
    wRegs_noAluMem ha]
  split
  · next hx =>
    have hbank : bankWith s = fun g => g.modBank s.lvl (fun k => { k with eupc := s.b.extractLsb' 0 14 }) :=
      funext fun g => if_pos hx
    rw [← modEng_setFile _ _ _ _ _ (fun g v => bankWith_unviewEng g v), hbank]
    rfl
  · rfl

theorem requestOf_noAluMem (ha : NoAluMem s.w) : requestOf s = none := by
  simp [requestOf, MWord.isAfx, MWord.isLongMem, MWord.isMem, ha.1, ha.2.1]

/-- An XFER word reaches outside its context with SETETC only (R208). -/
theorem wExternal_xfer (ha : XferAlone s.w) (b : Block) : wExternal n s b =
    if 0x14 ≤ s.w.xfer.toNat ∧ s.w.xfer.toNat ≤ 0x17 then setCmp (cluOf (engOf n)) (etIdx (engOf n) (s.w.xfer.toNat - 0x14)) s.b b else b := by
  obtain ⟨halu, hm, hl, -⟩ := ha
  have hreq := requestOf_noAluMem (s := s) ⟨halu, hm, .inl hl⟩
  unfold wExternal
  simp [hreq, hm, hl, laneWritesDst, laneAct_none hl, wordCmps, MWord.isMem]

/-- EARLY set once more is as it was. -/
theorem xferFile_early (h : seesEarly b n s.w = true) :
    { xferFile b n s with stat := putBit (xferFile b n s).stat 5 true } = xferFile b n s := by
  unfold xferFile
  rw [h]
  exact earlied_earlied _

theorem modFile_xferFile (B : Block) (hB : B.ctx n = b.ctx n) :
    (if seesEarly b n s.w then (B.setFile n s.lvl (xferFile b n s)).modFile n s.lvl (fun c => { c with stat := putBit c.stat 5 true })
      else B.setFile n s.lvl (xferFile b n s)) = B.setFile n s.lvl (xferFile b n s) := by
  split
  · next he => rw [modFile_setFile _ _ _ _ _ (fileFor_xferFile B hB), xferFile_early he]
  · rfl

/-- The W stage of an XFER word that writes no more than its file. -/
theorem wStage_xfer (ha : XferAlone s.w) (hx : s.w.xfer ≠ 0x0B ∧ ¬ (0x14 ≤ s.w.xfer.toNat ∧ s.w.xfer.toNat ≤ 0x17)) :
    wStage n s b = b.setFile n s.lvl (xferFile b n s) := by
  unfold wStage
  simp only [wInternal_noAluMem ⟨ha.1, ha.2.1, .inl ha.2.2.1⟩, wExternal_xfer ha, hx, if_false]
  exact modFile_xferFile b rfl

theorem wStage_seteupc (ha : XferAlone s.w) (hx : s.w.xfer = 0x0B) :
    wStage n s b = (b.modEng (engOf n) (bankWith s)).setFile n s.lvl (xferFile b n s) := by
  have hrange : ¬ (0x14 ≤ (0x0B : BitVec 6).toNat ∧ (0x0B : BitVec 6).toNat ≤ 0x17) := by decide
  unfold wStage
  simp only [wInternal_noAluMem ⟨ha.1, ha.2.1, .inl ha.2.2.1⟩, wExternal_xfer ha, hx, hrange, if_true, if_false]
  exact modFile_xferFile _ (by rw [modEng_eq, ctx_setEng])

theorem setCmp_setFile (B : Block) (m : CtxNo) (l : Lvl) (v : Ctx) (c : CluId) (x : Nat) (u : Word) :
    setCmp c x u (B.setFile m l v) = (setCmp c x u B).setFile m l v := rfl

theorem wStage_setetc (ha : XferAlone s.w) (hx : 0x14 ≤ s.w.xfer.toNat ∧ s.w.xfer.toNat ≤ 0x17) :
    wStage n s b = (setCmp (cluOf (engOf n)) (etIdx (engOf n) (s.w.xfer.toNat - 0x14)) s.b b).setFile n s.lvl (xferFile b n s) := by
  have hne : ¬ s.w.xfer = 0x0B := by
    intro h
    rw [h] at hx
    exact absurd hx (by decide)
  unfold wStage
  simp only [wInternal_noAluMem ⟨ha.1, ha.2.1, .inl ha.2.2.1⟩, wExternal_xfer ha, hne, hx, and_self, if_true, if_false, setCmp_setFile]
  exact modFile_xferFile _ (by rw [setCmp, Block.modTimer, modClu_eq, ctx_setClu])

end

/-! ### The whole word -/

section
variable {b : Block} {n : CtxNo} {w : MWord}

/-- A word with SEQ NEXT goes on behind what its W stage leaves. -/
theorem issueAs_next (h : Issues b n w) (hlong : w.isLong = false) (hseq : w.seq = 0) (p : MWord → Bool) (hp : p w = true) {B : Block} {v : Ctx}
    (hstage : wStage n (snapOf b n w none false) (selected b n) = B.setFile n (lvlOf b n) v) :
    issueAs p n b = B.setFile n (lvlOf b n) { v with upc := (b.ctx n).upc + 1, act := .idle } := by
  rw [issueAs_issues h p hp (by rw [hseq]; decide)]
  unfold perform
  simp only [word_snapOf, hlong, hseq, hstage]
  rw [seqApply_next (s := snapOf b n w none false) hseq, upc_snapOf]
  exact goto_setFile ..

/-- The file of an XFER word, from the one that its selection found. -/
theorem xferFile_selected (w : MWord) : xferFile (selected b n) n (snapOf b n w none false) =
    stepOver (earlied (seesEarly b n w) (xferRegs b n (snapOf b n w none false) (fileOf b n))) := by
  have hnow := now_selected b n
  unfold xferFile xferRegs
  rw [snap_lvl, word_snapOf, seesEarly_selected, stepOver_file, hnow, xferGet_selected]
  dsimp only
  cases xferGets w.xfer
  · simp only [Bool.false_eq_true, if_false]
    split <;> rfl
  · simp only [if_true, stepOver_writeDst]
    split <;> rfl

/-- A get code neither sets nor reads anything else. -/
theorem get_codes : ∀ x : BitVec 6, xferGets x = true →
    xferSets x = false ∧ x ≠ 0x0B ∧ ¬ (0x14 ≤ x.toNat ∧ x.toNat ≤ 0x17) ∧ x.toNat ≠ 2 ∧ x.toNat ≠ 4 ∧ x.toNat ≠ 6 := by decide

/-- A word that reads no operand leaves EARLY as it is. -/
theorem readFile_of_not_early (h : earlyRead w = false) : readFile b n w = fileOf b n := by
  unfold readFile
  rw [h]
  exact earlied_false _

theorem earlyRead_get (ha : XferAlone w) (hget : xferGets w.xfer = true) : earlyRead w = false := by
  obtain ⟨halu, hm, hl, hseq⟩ := ha
  have hsets := (get_codes _ hget).1
  simp [earlyRead, MWord.readsA, MWord.readsB, MWord.isMem, MWord.isLongMem, halu, hm, hl, hseq, hsets, aluReadsA, aluReadsB, isStoreOp]

/-- A get code writes its value to DST (R111). -/
theorem onlyFile_get (h : Issues b n w) (ha : XferAlone w) (hget : xferGets w.xfer = true) (p : MWord → Bool) (hp : p w = true) :
    let c := readFile b n w
    OnlyFile b (issueAs p n b) n (goneTo ((b.ctx n).upc + 1) (writeDst (statPriv c.stat) c w.dst (xferGet b n (snapOf b n w none false)))) := by
  obtain ⟨-, hne, hrange, h2, h4, h6⟩ := get_codes _ hget
  have hearly := earlyRead_get ha hget
  have hregs : xferRegs b n (snapOf b n w none false) (fileOf b n) =
      writeDst (statPriv (fileOf b n).stat) (fileOf b n) w.dst (xferGet b n (snapOf b n w none false)) := by
    have hpriv : (snapOf b n w none false).priv = statPriv (fileOf b n).stat := Bool.or_false _
    unfold xferRegs
    rw [word_snapOf, hget, hpriv]
    dsimp only
    split
    · exact absurd ‹_› h2
    · exact absurd ‹_› h4
    · exact absurd ‹_› h6
    · rfl
  have hsees : seesEarly b n w = false := by rw [seesEarly, hearly, Bool.false_and]
  intro c
  rw [issueAs_next h (isLong_of_slots ha.2.1 ha.2.2.1) ha.2.2.2 p hp (wStage_xfer (s := snapOf b n w none false) ha ⟨hne, hrange⟩),
    xferFile_selected, hsees, earlied_false, hregs, ← readFile_of_not_early hearly]
  exact onlyFile_setFile ..

theorem xferGets_timer {x : BitVec 6} {j : Nat} (hx : x.toNat = 0x10 + j) (hj : j < 4) : xferGets x = true := by
  have hrange : 0x10 ≤ x.toNat ∧ x.toNat ≤ 0x13 := by omega
  simp [xferGets, hrange]

theorem xferGet_timer (s : Snap) {j : Nat} (hx : s.w.xfer.toNat = 0x10 + j) (hj : j < 4) : xferGet b n s = etCount b n j := by
  unfold xferGet
  dsimp only
  split
  · omega
  · omega
  · omega
  · omega
  · omega
  · omega
  · rw [hx, Nat.add_sub_cancel_left]

theorem evMask_file (b : Block) (n : CtxNo) (l : Lvl) : (b.file n l).evMask = (b.ctx n).evMask := by cases l <;> rfl
theorem stkBase_file (b : Block) (n : CtxNo) (l : Lvl) : (b.file n l).stkBase = (b.ctx n).stkBase := by cases l <;> rfl

/-- A set code writes its register of the context; the codes that reach elsewhere leave the file (R111). -/
theorem onlyFile_set (h : Issues b n w) (ha : XferAlone w) (hx : w.xfer ≠ 0x0B ∧ ¬ (0x14 ≤ w.xfer.toNat ∧ w.xfer.toNat ≤ 0x17))
    (p : MWord → Bool) (hp : p w = true) :
    OnlyFile b (issueAs p n b) n (goneTo ((b.ctx n).upc + 1)
      (earlied (seesEarly b n w) (xferRegs b n (snapOf b n w none false) (fileOf b n)))) := by
  rw [issueAs_next h (isLong_of_slots ha.2.1 ha.2.2.1) ha.2.2.2 p hp (wStage_xfer (s := snapOf b n w none false) ha hx), xferFile_selected]
  exact onlyFile_setFile ..

/-- SETEUPC and SETETC leave the file of a word without a result. -/
theorem xferRegs_outside (hx : w.xfer = 0x0B ∨ (0x14 ≤ w.xfer.toNat ∧ w.xfer.toNat ≤ 0x17)) (s : Snap) (hw : s.w = w) (c : Ctx) :
    xferRegs b n s c = c := by
  have hcodes : ∀ x : BitVec 6, x = 0x0B ∨ (0x14 ≤ x.toNat ∧ x.toNat ≤ 0x17) →
      xferGets x = false ∧ x.toNat ≠ 2 ∧ x.toNat ≠ 4 ∧ x.toNat ≠ 6 := by decide
  obtain ⟨hget, h2, h4, h6⟩ := hcodes _ hx
  unfold xferRegs
  rw [hw, hget]
  dsimp only
  split
  · exact absurd ‹_› h2
  · exact absurd ‹_› h4
  · exact absurd ‹_› h6
  · rfl

/-- SETEUPC writes the return address of its level's bank (R111). -/
theorem wordEffect_seteupc (h : Issues b n w) (ha : XferAlone w) (hx : w.xfer = 0x0B) (p : MWord → Bool) (hp : p w = true) :
    WordEffect b (issueAs p n b) n (goneTo ((b.ctx n).upc + 1) (readFile b n w))
      (fun g => g.modBank (lvlOf b n) (fun x => { x with eupc := (srcB b n w).extractLsb' 0 14 })) (fun v => v) 0 := by
  have hbank : bankWith (snapOf b n w none false) =
      fun g => g.modBank (lvlOf b n) (fun x => { x with eupc := (srcB b n w).extractLsb' 0 14 }) := funext fun g => if_pos hx
  rw [issueAs_next h (isLong_of_slots ha.2.1 ha.2.2.1) ha.2.2.2 p hp (wStage_seteupc (s := snapOf b n w none false) ha hx),
    xferFile_selected, xferRegs_outside (.inl hx) _ rfl, hbank]
  exact wordEffect_modEng ..

/-- SETETC commits the compare of its engine timer (R208). -/
theorem wordEffect_setetc (h : Issues b n w) (ha : XferAlone w) (hx : 0x14 ≤ w.xfer.toNat ∧ w.xfer.toNat ≤ 0x17) (p : MWord → Bool)
    (hp : p w = true) :
    let set (x : Timer) : Timer := { x with cmp := srcB b n w, armed := true, armedAt := b.now, cmpf := x.cmpf.clear b.now }
    WordEffect b (issueAs p n b) n (goneTo ((b.ctx n).upc + 1) (readFile b n w)) (fun g => g)
      (fun v => { v with timers := Map.mod {} v.timers (etIdx (engOf n) (w.xfer.toNat - 0x14)) set }) 0 := by
  have hnow := now_selected b n
  intro set
  rw [issueAs_next h (isLong_of_slots ha.2.1 ha.2.2.1) ha.2.2.2 p hp (wStage_setetc (s := snapOf b n w none false) ha hx),
    xferFile_selected, xferRegs_outside (.inr hx) _ rfl, setCmp, hnow]
  exact wordEffect_modClu ..

end

/-- Settles O25: the get codes (`onlyFile_get`), the set codes of the context's registers (`onlyFile_set`), SETEUPC and SETETC. -/
theorem xferWordsReadAndWriteTheContextState : Obligations.XferWordsReadAndWriteTheContextState := by
  unfold Obligations.XferWordsReadAndWriteTheContextState
  intro s e k w h ha n c b bank next Get
  have he : engOf (ctxNo e k) = e := engOf_ctxNo e k
  have hget : ∀ (i : Instr) (p : MWord → Bool) (v : Word), exec i s = atTurn (turnOf i) (issueAs p (ctxNo e k)) s → p w = true →
      xferGets w.xfer = true → xferGet s.blk n (snapOf s.blk n w none false) = v → Get i v := by
    rintro i p v hexec hp hgets rfl
    exact gives_of_exec hexec (onlyFile_get h ha hgets p hp)
  have hset := onlyFile_set h ha
  refine ⟨fun hx => ?getl, fun hx => ?clrl, fun hx => ?getevm, fun hx => ?setevm, fun hx => ?getstk, fun hx => ?setstk, fun hx => ?getecause,
    fun hx => ?geteupc, fun hx => ?geteinfo, fun hx => ?seteupc, fun j hj hx => ?getet, fun j hj hx => ?setetc⟩
  case getl =>
    refine hget _ rowGetl _ rfl (by simp [rowGetl, hx]) (by rw [hx]; rfl) ?_
    simp only [xferGet, word_snapOf, hx, latch_file]
    rfl
  case getevm =>
    refine hget _ rowGetevm _ rfl (by simp [rowGetevm, hx]) (by rw [hx]; rfl) ?_
    simp only [xferGet, word_snapOf, hx, evMask_file]
    rfl
  case getstk =>
    refine hget _ rowGetstk _ rfl (by simp [rowGetstk, hx]) (by rw [hx]; rfl) ?_
    simp only [xferGet, word_snapOf, hx, stkBase_file]
    rfl
  case getecause =>
    refine hget _ rowGetecause _ rfl (by simp [rowGetecause, hx]) (by rw [hx]; rfl) ?_
    simp only [xferGet, word_snapOf, hx, n, he]
    rfl
  case geteupc =>
    refine hget _ rowGeteupc _ rfl (by simp [rowGeteupc, hx]) (by rw [hx]; rfl) ?_
    simp only [xferGet, word_snapOf, hx, n, he]
    rfl
  case geteinfo =>
    refine hget _ rowGeteinfo _ rfl (by simp [rowGeteinfo, hx]) (by rw [hx]; rfl) ?_
    simp only [xferGet, word_snapOf, hx, n, he]
    rfl
  case clrl =>
    refine gives_of_exec rfl ?_
    have hfile := hset (by rw [hx]; decide) rowClrl (by simp [rowClrl, hx])
    simp only [xferRegs, word_snapOf, hx] at hfile
    exact hfile
  case setevm =>
    refine gives_of_exec rfl ?_
    have hfile := hset (by rw [hx]; decide) rowSetevm (by simp [rowSetevm, hx])
    simp only [xferRegs, word_snapOf, hx] at hfile
    exact hfile
  case setstk =>
    refine gives_of_exec rfl ?_
    have hfile := hset (by rw [hx]; decide) rowSetstk (by simp [rowSetstk, hx])
    simp only [xferRegs, word_snapOf, hx] at hfile
    exact hfile
  case seteupc => exact gives_of_exec rfl (wordEffect_seteupc h ha hx rowSeteupc (by simp [rowSeteupc, hx]))
  case getet =>
    refine hget _ rowGetet _ rfl (by simp only [rowGetet, decide_eq_true_eq]; omega) (xferGets_timer hx hj) ?_
    have hcount := xferGet_timer (b := s.blk) (n := ctxNo e k) (snapOf s.blk (ctxNo e k) w none false) hx hj
    rwa [etCount, etIdx, he] at hcount
  case setetc =>
    have heff := wordEffect_setetc h ha (by omega) rowSetetc (by simp only [rowSetetc, decide_eq_true_eq]; omega)
    have hidx : etIdx (engOf (ctxNo e k)) (w.xfer.toNat - 0x14) = 8 + 4 * (engIn e).toNat + j := by rw [he, hx, etIdx, Nat.add_sub_cancel_left]
    rw [hidx] at heff
    exact gives_of_exec rfl heff

end Sys2Proof.Machine

/-! An access that its banks let pass, and the store that they accept (R106, R230, R242, R243, R247, R248, R250). -/

namespace Sys2Proof.Machine
open Sys2Proof

/-! ### An access that passes its checks -/

section
variable {b : Block} {u : Tenant} {rd wr : Bool} {a n : Nat}

theorem refusedAt_of_pass (h : bankCheck b u rd wr a n = .pass) : refusedAt b u rd wr a n = none := by
  unfold bankCheck at h
  rw [inFenced_of_pass h] at h
  cases hr : refusedAt b u rd wr a n
  · rfl
  · simp [hr] at h

theorem unpoisoned_of_pass (h : bankCheck b u rd wr a n = .pass) : ((rd && poisoned b a n) || (wr && poisonedPart b a n)) = false := by
  have hfenced := inFenced_of_pass h
  have hrefused := refusedAt_of_pass h
  unfold bankCheck at h
  rw [hfenced, hrefused] at h
  cases hp : (rd && poisoned b a n) || (wr && poisonedPart b a n)
  · rfl
  · simp [hp] at h

/-- A run is let pass where its first address and its later pages are (R250). -/
theorem refusedAt_eq_none_iff : refusedAt b u rd wr a n = none ↔
    n = 0 ∨ addrOk b u rd wr a = true ∧ ∀ i, 0 < i → (a / 4096 + i) * 4096 < a + n → addrOk b u rd wr ((a / 4096 + i) * 4096) = true := by
  unfold refusedAt
  split
  · next h => simp [h]
  · next h =>
    simp only [List.find?_eq_none, List.mem_map, List.mem_range, forall_exists_index, and_imp, forall_apply_eq_imp_iff₂, Bool.not_eq_true,
      Bool.not_eq_false', h, false_or]
    constructor
    · intro hall
      refine ⟨by simpa using hall 0 (by omega), fun i hi hlt => ?_⟩
      have hok := hall i (by omega)
      rwa [if_neg (by omega)] at hok
    · rintro ⟨hfirst, hpages⟩ i hi
      split
      · exact hfirst
      · exact hpages i (by omega) (by omega)

/-- Each part of a run that is let pass is let pass. -/
theorem refusedAt_part (h : refusedAt b u rd wr a n = none) {x : Nat × Nat} (hx : x ∈ partsOf a n) : refusedAt b u rd wr x.1 x.2 = none := by
  rw [refusedAt_eq_none_iff] at h ⊢
  unfold partsOf at hx
  dsimp only at hx
  split at hx
  · rw [List.mem_singleton] at hx
    subst hx
    exact h
  · next hsplit =>
    have hn : n ≠ 0 := by omega
    obtain ⟨hfirst, hpages⟩ := h.resolve_left hn
    simp only [List.mem_cons, List.not_mem_nil, or_false] at hx
    obtain rfl | rfl := hx
    · exact .inr ⟨hfirst, fun i hi hlt => hpages i hi (by omega)⟩
    · obtain ⟨q, hq, hlt⟩ : ∃ q, (a / 0x800000 + 1) * 0x800000 = q * 4096 ∧ a / 4096 < q :=
        ⟨(a / 0x800000 + 1) * 2048, by rw [Nat.mul_assoc], by omega⟩
      rw [hq] at hsplit ⊢
      have hpage : ∀ i, q + i = a / 4096 + (q - a / 4096 + i) := fun i => by omega
      refine .inr ⟨?_, fun i hi hend => ?_⟩
      · have hok := hpages (q - a / 4096) (by omega)
        rw [show a / 4096 + (q - a / 4096) = q by omega] at hok
        exact hok (by omega)
      · dsimp only at hend ⊢
        rw [Nat.mul_div_cancel _ (by decide : 0 < 4096), hpage] at hend ⊢
        exact hpages _ (by omega) (by omega)

/-- Lines without an error are read without an effect. -/
theorem eccAt_of_sound {ls : List Nat} {k : Ecc} (h : ∀ i, ∀ l ∈ ls, lineErr b k i l = none) : eccAt ls k b = b := by
  have hfrom : ∀ (ls : List Nat) (i : Nat), (∀ i, ∀ l ∈ ls, lineErr b k i l = none) → eccFrom k i ls b = b := by
    intro ls
    induction ls with
    | nil => exact fun _ _ => rfl
    | cons l ls ih =>
      intro i h
      rw [eccFrom, h i l List.mem_cons_self]
      exact ih _ fun j x hx => h j x (List.mem_cons_of_mem _ hx)
  exact hfrom ls 0 h

/-- An access that passes its checks, and that reads lines without an error, changes nothing on its arrival. -/
theorem arrive_of_pass {ls : List Nat} {k : Ecc} (h : bankCheck b u rd wr a n = .pass) (hls : ∀ i, ∀ l ∈ ls, lineErr b k i l = none) :
    arrive b u rd wr a n ls k = b := by
  have hbad : (partsOf a n).filterMap (fun x => if inFenced b x.1 x.2 then none else refusedAt b u rd wr x.1 x.2) = [] := by
    rw [List.filterMap_eq_nil_iff]
    intro x hx
    rw [refusedAt_part (refusedAt_of_pass h) hx, ite_self]
  unfold arrive
  dsimp only
  rw [hbad, List.foldl_nil]
  exact eccAt_of_sound fun i l hl => hls i l (List.mem_filter.1 hl).1

theorem lineErr_ok {i l : Nat} {k : Ecc} (hk : k.errs = []) (h : b.poison.contains l = false) : lineErr b k i l = none := by
  unfold lineErr
  rw [if_neg (by rw [h]; decide), hk]
  rfl

/-- The lines that an accepted read reads, and those that an accepted write merges, have no error but a new one. -/
theorem sound_linesOf (h : bankCheck b u true wr a n = .pass) {k : Ecc} (hk : k.errs = []) : ∀ i, ∀ l ∈ linesOf a n, lineErr b k i l = none := by
  have hp := (Bool.or_eq_false_iff.1 (unpoisoned_of_pass h)).1
  rw [Bool.true_and, poisoned, List.any_eq_false] at hp
  exact fun i l hl => lineErr_ok hk (Bool.eq_false_iff.2 (hp l hl))

theorem sound_mergeLines (h : bankCheck b u rd true a n = .pass) {k : Ecc} (hk : k.errs = []) :
    ∀ i, ∀ l ∈ mergeLines false a n, lineErr b k i l = none := by
  have hp := (Bool.or_eq_false_iff.1 (unpoisoned_of_pass h)).2
  rw [Bool.true_and, poisonedPart, List.any_eq_false] at hp
  intro i l hl
  have hmem : l ∈ (linesOf a n).filter (fun l => !(covered a n l)) := hl
  obtain ⟨hline, hcov⟩ := List.mem_filter.1 hmem
  refine lineErr_ok hk ?_
  have hpart := hp l hline
  rw [hcov, Bool.and_true] at hpart
  exact Bool.eq_false_iff.2 hpart

end
/-! ### What a write at the banks leaves (R233, R243, R248) -/

theorem readByte_writeBytesAt (l : List Byte) : ∀ (b : Block) (a x : Nat), readByte (writeBytesAt b a l) x =
    if a ≤ x ∧ x < a + l.length then l[x - a]?.getD 0 else readByte b x := by
  induction l with
  | nil =>
    intro b a x
    rw [if_neg (by rw [List.length_nil]; omega)]
    rfl
  | cons v l ih =>
    intro b a x
    rw [writeBytesAt, ih, readByte_writeByte, List.length_cons]
    by_cases hx : x = a
    · subst hx
      rw [if_neg (by omega), if_pos rfl, if_pos (by omega), Nat.sub_self]
      rfl
    · by_cases hin : a + 1 ≤ x ∧ x < a + 1 + l.length
      · rw [if_pos hin, if_pos (by omega), show x - a = x - (a + 1) + 1 by omega, List.getElem?_cons_succ]
      · rw [if_neg hin, if_neg hx, if_neg (by omega)]

theorem getElem?_bytesOf {w : Nat} (k : Nat) (v : BitVec w) {i : Nat} (h : i < k) : (bytesOf k v)[i]?.getD 0 = v.extractLsb' (8 * i) 8 := by
  simp [bytesOf, h]

section
variable (n : CtxNo) (a : Nat) (l : List Byte) (b : Block)

/-- Bytes of the main memory lie in no line of the dual-port region. -/
theorem dprLines_main {a k : Nat} (h : a + k ≤ 0x4000000) : dprLines a k = [] := by
  unfold dprLines
  rw [List.filter_eq_nil_iff]
  intro x hx
  unfold linesOf at hx
  split at hx
  · exact absurd hx List.not_mem_nil
  · next hk =>
    obtain ⟨i, hi, rfl⟩ := List.mem_map.1 hx
    rw [List.mem_range] at hi
    rw [decide_eq_true_eq]
    omega

theorem touch_main (spine wr : Bool) {a k : Nat} (h : a + k ≤ 0x4000000) : touch spine wr a k b = b := by
  rw [touch, dprLines_main h]
  rfl

/-- A write at the banks changes the bytes, their lines' poison and write-backs, the reservations, and what the ports note. -/
theorem bankWrite_frame : bankWrite n a l b =
    let t := bankWrite n a l b
    { b with mem := t.mem, leases := t.leases, poison := t.poison, wbs := t.wbs, touched := t.touched, units := t.units, imp := t.imp
             free := t.free } := by
  rw [bankWrite, breakLeases, memWrite, writeBytesAt_frame, touched_touch]

theorem eng_bankWrite (x : EngId) : (bankWrite n a l b).eng x = b.eng x := by rw [bankWrite_frame]; rfl
theorem ctx_bankWrite (m : CtxNo) : (bankWrite n a l b).ctx m = b.ctx m := by rw [bankWrite_frame]; rfl

/-- A write of main memory meets no other port. -/
theorem ports_bankWrite_main (h : a + l.length ≤ 0x4000000) : (bankWrite n a l b).touched = b.touched ∧ (bankWrite n a l b).units = b.units ∧
    (bankWrite n a l b).imp = b.imp ∧ (bankWrite n a l b).free = b.free := by
  rw [bankWrite, touch_main _ _ _ h, breakLeases, memWrite, writeBytesAt_frame]
  exact ⟨rfl, rfl, rfl, rfl⟩

theorem readByte_bankWrite (x : Nat) : readByte (bankWrite n a l b) x =
    if a ≤ x ∧ x < a + l.length then l[x - a]?.getD 0 else readByte b x := by
  have hmem : readByte (bankWrite n a l b) x = readByte (writeBytesAt (touch false true a l.length b) a l) x := rfl
  have htouch : readByte (touch false true a l.length b) x = readByte b x := by rw [touched_touch]; rfl
  rw [hmem, readByte_writeBytesAt, htouch]

theorem leases_bankWrite : (bankWrite n a l b).leases =
    b.leases.filter (fun x => decide (x.owner = n ∨ ¬ (x.addr < a + l.length ∧ a < x.addr + 6))) := by
  rw [bankWrite, breakLeases, memWrite, writeBytesAt_frame, touched_touch]
  refine List.filter_congr fun x _ => ?_
  simp only [Lease.touches, Option.some.injEq, ne_eq, ← Bool.decide_and, ← decide_not]
  exact decide_eq_decide.2 (by tauto)

theorem poison_bankWrite : (bankWrite n a l b).poison =
    b.poison.filter (fun x => !decide (a ≤ 8 * x ∧ 8 * x + 8 ≤ a + l.length)) := by
  rw [bankWrite, breakLeases, memWrite, writeBytesAt_frame, touched_touch]
  rfl

end

/-! ### A WAIT that completes (R50) -/

section
variable {n : CtxNo} {b : Block}

/-- A context settles in its own file alone. -/
theorem settle_eq_setFile (n : CtxNo) (b : Block) : settle n b = b ∨ ∃ v, settle n b = b.setFile n (lvlOf b n) v := by
  cases hact : (b.ctx n).act with
  | wait src lq dl tg =>
    cases hsrc : source b n (fileOf b n) lq src
    · left
      unfold settle
      simp only [hact, hsrc, Bool.false_eq_true, if_false]
    · exact .inr ⟨_, settle_true hact hsrc⟩
  | _ => exact .inl (settle_of_not_wait (by rw [hact]; rfl))

theorem tag_unviewEng (g : Eng) (v : Ctx) (l : Lvl) (t : BitVec 5) : (unviewEng g v l).tag t = g.tag t := by cases l <;> rfl

theorem tag_setTag (g : Eng) (t : BitVec 5) (x : Option Pend) (t' : BitVec 5) : (g.setTag t x).tag t' = if t' = t then x else g.tag t' := by
  unfold Eng.tag Eng.setTag
  rw [Map.get_set]
  simp only [BitVec.toNat_inj]

theorem settle_frame (n : CtxNo) (b : Block) : settle n b = { b with ctxs := (settle n b).ctxs, engs := (settle n b).engs } := by
  obtain h | ⟨v, h⟩ := settle_eq_setFile n b
  · rw [h]
  · rw [h]; rfl

theorem eng_settle_ne (b : Block) {x : EngId} (h : x ≠ engOf n) : (settle n b).eng x = b.eng x := by
  obtain hs | ⟨v, hs⟩ := settle_eq_setFile n b
  · rw [hs]
  · rw [hs, eng_setFile, if_neg h]

theorem tag_settle (n : CtxNo) (b : Block) (x : EngId) (t : BitVec 5) : ((settle n b).eng x).tag t = (b.eng x).tag t := by
  obtain hs | ⟨v, hs⟩ := settle_eq_setFile n b
  · rw [hs]
  · rw [hs, eng_setFile]
    split
    · next hx => rw [tag_unviewEng, hx]
    · rfl

end
/-! ### An accepted store (R106, R108) -/

section
variable {b : Block} {e : EngId} {t : BitVec 5} {p : Pend} {op : BitVec 6} {ecc : Ecc}

/-- An access of a tag that holds no access of the register window goes to the banks. -/
theorem opStoreResponse_mem (htag : (b.eng e).tag t = some p) (hkind : p.kind = .mem op) :
    opStoreResponse e t ecc b = opStoreAccepted e t ecc b := by
  have hwindow : tagWindow b e t = false := by simp [tagWindow, htag, Pend.acc, hkind]
  simp [opStoreResponse, hwindow]

theorem store_codes : ∀ op : BitVec 6, 0x10 ≤ op.toNat ∧ op.toNat ≤ 0x15 →
    isLoadOp op = false ∧ (op == 0x19) = false ∧ (op != 0x1A) = true := by decide

/-- A store that passes its checks writes its bytes, and frees its tag. -/
theorem opStoreResponse_store (htag : (b.eng e).tag t = some p) (hkind : p.kind = .mem op)
    (hbehind : bankBehind b e p.seq (banksOf b p.ea.toNat (opSize op)) = false) (hop : 0x10 ≤ op.toNat ∧ op.toNat ≤ 0x15)
    (hactive : b.dbg.pActive = false) (hpass : bankCheck b p.tenant false true p.ea.toNat (opSize op) = .pass) :
    opStoreResponse e t .ok b = settle (ctxNo e p.k)
      ((bankWrite (ctxNo e p.k) p.ea.toNat (bytesOf (opSize op) p.data) b).modEng e (fun g => g.setTag t none)) := by
  obtain ⟨hload, hsc, hwr⟩ := store_codes op hop
  have hdbg : (bankWrite (ctxNo e p.k) p.ea.toNat (bytesOf (opSize op) p.data) b).dbg.pActive = false := by
    rw [bankWrite_frame]
    exact hactive
  rw [opStoreResponse_mem htag hkind]
  unfold opStoreAccepted
  simp only [htag, hkind, hload, hsc, hbehind, hwr, Bool.or_self, Bool.false_eq_true, if_false, if_true,
    arrive_of_pass hpass (sound_mergeLines hpass (k := Ecc.ok) rfl), hpass, ne_eq, not_true_eq_false]
  rw [memPerturb_off hdbg]

/-- A REL that passes its checks ends the context's own reservation at its address. -/
theorem opStoreResponse_rel (htag : (b.eng e).tag t = some p) (hkind : p.kind = .mem 0x1A)
    (hbehind : bankBehind b e p.seq (banksOf b p.ea.toNat (opSize 0x1A)) = false)
    (hpass : bankCheck b p.tenant false false p.ea.toNat (opSize 0x1A) = .pass) :
    opStoreResponse e t ecc b = settle (ctxNo e p.k)
      ((release (ctxNo e p.k) p.ea.toNat b).modEng e (fun g => g.setTag t none)) := by
  rw [opStoreResponse_mem htag hkind]
  unfold opStoreAccepted
  simp only [htag, hkind, hbehind, show isLoadOp 0x1A = false from rfl, show ((0x1A : BitVec 6) == 0x19) = false from rfl,
    show ((0x1A : BitVec 6) != 0x1A) = false from rfl, Bool.or_self, Bool.false_eq_true, if_false,
    arrive_of_pass hpass (fun _ _ h => absurd h List.not_mem_nil), hpass, ne_eq, not_true_eq_false]

end

/-- Nothing differs but what an access at the banks changes, contexts and engines. -/
abbrev Stored (b t : Block) : Prop := t = { b with mem := t.mem, leases := t.leases, poison := t.poison, wbs := t.wbs, engs := t.engs
                                                   ctxs := t.ctxs, touched := t.touched, units := t.units, imp := t.imp, free := t.free }

theorem Stored.trans {b t u : Block} (h : Stored b t) (h' : Stored t u) : Stored b u := by
  unfold Stored at *
  rw [h', h]

theorem stored_bankWrite (n : CtxNo) (a : Nat) (l : List Byte) (b : Block) : Stored b (bankWrite n a l b) := by
  unfold Stored
  rw [bankWrite_frame]

theorem stored_modEng (e : EngId) (f : Eng → Eng) (b : Block) : Stored b (b.modEng e f) := rfl

theorem stored_settle (n : CtxNo) (b : Block) : Stored b (settle n b) := by
  unfold Stored
  rw [settle_frame]

/-- Settles O18: the arrival of a store that its banks pass changes nothing (`arrive_of_pass`), and its write the bytes of its own
range (`readByte_bankWrite`). -/
theorem anAcceptedStoreChangesItsOwnBytesOnly : Obligations.AnAcceptedStoreChangesItsOwnBytesOnly := by
  unfold Obligations.AnAcceptedStoreChangesItsOwnBytesOnly
  intro s e t p op n a size htag hkind hbehind
  refine ⟨fun hop hactive hpass => ?store, fun ecc hop hpass => ?rel⟩
  case store =>
    have he : engOf n = e := engOf_ctxNo e p.k
    have hsize : (bytesOf size p.data).length = size := length_bytesOf ..
    refine gives_of_exec (f := opStoreResponse e t .ok) rfl ?_
    rw [opStoreResponse_store htag hkind hbehind hop hactive hpass]
    generalize hM : bankWrite (ctxNo e p.k) p.ea.toNat (bytesOf (opSize op) p.data) s.blk = M
    have hfree : ∀ x, (M.modEng e (fun g => g.setTag t none)).eng x = if x = e then (s.blk.eng e).setTag t none else s.blk.eng x := by
      intro x
      rw [modEng_eq, eng_setEng, ← hM, eng_bankWrite, eng_bankWrite]
    have hsettle := settle_frame (ctxNo e p.k) (M.modEng e (fun g => g.setTag t none))
    refine ⟨fun x => ?bytes, ?leases, ?poison, fun x t' => ?tags, fun x hx => ?engs, fun m hm => ?ctxs, fun hmain => ?ports, ?frame⟩
    case bytes =>
      have hbyte : readByte (settle (ctxNo e p.k) (M.modEng e (fun g => g.setTag t none))) x = readByte M x := by rw [hsettle]; rfl
      rw [hbyte, ← hM, readByte_bankWrite, length_bytesOf]
      split
      · next hx => exact getElem?_bytesOf _ _ (by omega)
      · rfl
    case leases =>
      have hleases := leases_bankWrite (ctxNo e p.k) p.ea.toNat (bytesOf (opSize op) p.data) s.blk
      rw [hM, hsize] at hleases
      rw [hsettle]
      exact hleases
    case poison =>
      have hpoison := poison_bankWrite (ctxNo e p.k) p.ea.toNat (bytesOf (opSize op) p.data) s.blk
      rw [hM, hsize] at hpoison
      rw [hsettle]
      exact hpoison
    case tags =>
      rw [tag_settle, hfree]
      by_cases hx : x = e
      · subst hx
        simp only [if_true, true_and, tag_setTag]
      · simp only [hx, false_and, if_false]
    case engs => rw [eng_settle_ne _ (by rw [he]; exact hx), hfree, if_neg hx]
    case ctxs => rw [ctx_settle_ne hm, modEng_eq, ctx_setEng, ← hM, ctx_bankWrite]
    case ports =>
      have hports := ports_bankWrite_main (ctxNo e p.k) p.ea.toNat (bytesOf (opSize op) p.data) s.blk (by rw [hsize]; exact hmain)
      rw [hM] at hports
      rw [hsettle]
      exact hports
    case frame =>
      rw [← hM]
      exact (stored_bankWrite ..).trans ((stored_modEng ..).trans (stored_settle ..))
  case rel =>
    subst hop
    have hdoes : Does (.storeAccepted e ⟨t, ecc⟩) s _ := does_of_exec (f := opStoreResponse e t ecc) rfl
    rw [opStoreResponse_rel htag hkind hbehind hpass] at hdoes
    exact hdoes

end Sys2Proof.Machine

/-! CALL and RET: the word's stop, and the transfers of its frame (R97..R103). -/

namespace Sys2Proof.Machine
open Sys2Proof

/-! ### The word -/

section
variable {b : Block} {n : CtxNo} {w : MWord}

/-- A word that takes a number of the issue order. -/
theorem WordEffect.bump {t : Block} {c : Ctx} {fe : Eng → Eng} {fc : Clu → Clu} {q : Nat} (h : WordEffect b t n c fe fc q) :
    WordEffect b t.bump n c fe fc (q + 1) := by
  obtain ⟨hframe, hctx, heng, hclu⟩ := h
  have hseq : t.seq = b.seq + q := by rw [hframe]
  refine ⟨?_, hctx, heng, hclu⟩
  rw [Block.bump, hseq, hframe]
  rfl

theorem issueAs_call (h : Issues b n w) (ha : SeqAlone w) (hseq : w.seq = 2) :
    issueAs rowCall n b = (stop n (.call (snapOf b n w none false)) (quieted b n w)).bump := by
  rw [issueAs_issues h rowCall (by simp [rowCall, hseq]) (by rw [hseq]; decide)]
  unfold perform
  simp only [word_snapOf, isLong_of_slots ha.2.1 ha.2.2.1, wStage_seqAlone h ha, hseq]
  rfl

theorem issueAs_ret (h : Issues b n w) (ha : SeqAlone w) (hseq : w.seq = 3) :
    issueAs rowRet n b = (stop n (.ret (snapOf b n w none false)) (quieted b n w)).bump := by
  rw [issueAs_issues h rowRet (by simp [rowRet, hseq]) (by rw [hseq]; decide)]
  unfold perform
  simp only [word_snapOf, isLong_of_slots ha.2.1 ha.2.2.1, wStage_seqAlone h ha, hseq]
  rfl

theorem wordEffect_stopped (x : Act) : WordEffect b (stop n x (quieted b n w)).bump n (heldIn x (readFile b n w)) (fun g => g) (fun v => v) 1 := by
  rw [stop_quieted]
  have hfile : WordEffect b ((selected b n).setFile n (lvlOf b n) (heldIn x (readFile b n w))) n (heldIn x (readFile b n w)) (fun g => g)
      (fun v => v) 0 := .of_onlyFile (onlyFile_setFile ..) rfl
  exact hfile.bump

end

/-! ### A frame that its checks let pass (R98, R100) -/

section
variable {b : Block} {n : CtxNo} {r : Snap} {wr : Bool} {a : Word} {len : Nat}

theorem checks_of_no_frameFault (h : frameFault b n r wr a len = none) :
    mapFault b r.priv 0x20 a.toNat len = none ∧ bankCheck b (reqTenant (b.ctx n) r.lvl) (!wr) wr a.toNat len = .pass := by
  unfold frameFault at h
  split at h
  · exact absurd h nofun
  · next hmap =>
    refine ⟨hmap, ?_⟩
    cases hbank : bankCheck b (reqTenant (b.ctx n) r.lvl) (!wr) wr a.toNat len
    · rfl
    all_goals
      rw [hbank] at h
      exact absurd h nofun

theorem frameArrive_write (h : frameFault b n r true a len = none) :
    frameArrive n r true a.toNat len (mergeLines false a.toNat len) .ok b = b := by
  obtain ⟨hmap, hpass⟩ := checks_of_no_frameFault h
  rw [frameArrive, hmap]
  exact arrive_of_pass hpass (sound_mergeLines hpass rfl)

theorem frameArrive_read {k : Ecc} (hk : k.errs = []) (h : frameFault b n r false a len = none) :
    frameArrive n r false a.toNat len (linesOf a.toNat len) k b = b := by
  obtain ⟨hmap, hpass⟩ := checks_of_no_frameFault h
  rw [frameArrive, hmap]
  exact arrive_of_pass hpass (sound_linesOf hpass hk)

end

/-! ### A read of the engines' port (R240) -/

theorem touched_portARead (a k : Nat) (b : Block) : Touched b (portARead a k b).1 := by
  have hfold : ∀ (ls : List Nat) (x : Block × List (Nat × List Byte)), Touched b x.1 →
      Touched b (ls.foldl (fun x l =>
        let m := meet false false l x.1
        (noteTouch false false l m.1, match m.2 with
          | some t => x.2 ++ [(l, t.old)]
          | none => x.2)) x).1 := by
    intro ls
    induction ls with
    | nil => exact fun _ h => h
    | cons l ls ih =>
      intro x h
      refine ih _ (touched_noteTouch ?_ false false l)
      have hmeet := touched_meet false false l x.1
      unfold Touched at *
      rw [hmeet, h]
  have hread : Touched b (touchRead a k b).1 := hfold _ (b, []) rfl
  unfold portARead
  dsimp only
  split
  · exact hread
  · unfold Touched at *
    rw [hread]

theorem ctx_portARead (a k : Nat) (b : Block) (m : CtxNo) : (portARead a k b).1.ctx m = b.ctx m := by rw [touched_portARead]; rfl
theorem eng_portARead (a k : Nat) (b : Block) (x : EngId) : (portARead a k b).1.eng x = b.eng x := by rw [touched_portARead]; rfl

/-- A block with the same contexts and engines has the same files. -/
theorem file_congr {b c : Block} {n : CtxNo} (hctx : c.ctx n = b.ctx n) (heng : c.eng (engOf n) = b.eng (engOf n)) (l : Lvl) :
    c.file n l = b.file n l := by
  rw [Block.file, Block.file, hctx, heng]

/-! ### The transfers -/

section
variable {b : Block} {n : CtxNo} {r : Snap}

/-- The frame's transfer: its bytes, its shadow entry and SSP, and the target (R97, R100). -/
theorem opCallFrameDone_eq (hact : (b.ctx n).act = .call r)
    (hbehind : bankBehind b (engOf n) r.seq (banksOf b (frameAddr b n r.lvl r.ssp.toNat).toNat r.frame.length) = false)
    (hfault : frameFault b n r true (frameAddr b n r.lvl r.ssp.toNat) r.frame.length = none) :
    opCallFrameDone n .ok b = (bankWrite n (frameAddr b n r.lvl r.ssp.toNat).toNat r.frame b).setFile n r.lvl
      { b.file n r.lvl with
        shadow := (b.file n r.lvl).shadow.setIfInBounds r.ssp.toNat (r.upc + 1), ssp := r.ssp + 1, act := .idle, upc := callTarget r } := by
  have hfile := file_congr (ctx_bankWrite n (frameAddr b n r.lvl r.ssp.toNat).toNat r.frame b n)
    (eng_bankWrite n (frameAddr b n r.lvl r.ssp.toNat).toNat r.frame b (engOf n)) r.lvl
  have hssp : BitVec.ofNat 6 (r.ssp.toNat + 1) = r.ssp + 1 := by rw [BitVec.ofNat_add, BitVec.ofNat_toNat, BitVec.setWidth_eq]; rfl
  unfold opCallFrameDone
  simp only [hact, hbehind, frameArrive_write hfault, hfault, Bool.false_eq_true, if_false, hssp, Block.modFile, goto_setFile, hfile]

/-- What RET finds in the header of its frame at `a`, and in its shadow entry (R101). -/
structure RetFrame where
  ret : BitVec 16
  mask : BitVec 16
  cls : BitVec 2
  depth : Byte
  entry : CsAddr

def retFrame (c : Ctx) (d : Nat) (h : List Byte) : RetFrame :=
  { ret := ofBytes 16 (h.take 2), mask := ofBytes 16 ((h.drop 2).take 2), cls := (nth 0 h 4).extractLsb' 0 2, depth := nth 0 h 5
    entry := nth 0 c.shadow.toList d }

/-- The bytes that it saves. -/
def RetFrame.len (f : RetFrame) : Nat := ((savedBits f.cls f.mask).map (savedSize f.cls)).foldl (· + ·) 0

/-- The information of its fault. -/
def RetFrame.info (f : RetFrame) : Word :=
  (f.ret.extractLsb' 0 14).setWidth 48 ||| f.entry.setWidth 48 <<< 14 ||| f.depth.setWidth 48 <<< 28

/-- RET's transfer after its header is read: the fault of a frame that does not match, or the registers that it restores. -/
theorem opRetRestoreDone_eq (hact : (b.ctx n).act = .ret r)
    (hbehind : bankBehind b (engOf n) r.seq (banksOf b (frameAddr b n r.lvl (r.ssp.toNat - 1)).toNat 0x68) = false)
    (hfault : frameFault b n r false (frameAddr b n r.lvl (r.ssp.toNat - 1)) 8 = none) : opRetRestoreDone n .ok b =
      let a := frameAddr b n r.lvl (r.ssp.toNat - 1)
      let x := portARead a.toNat 8 b
      let f := retFrame (b.file n r.lvl) (r.ssp.toNat - 1) x.2
      if f.ret ≠ f.entry.setWidth 16 then preciseFault n r 4 2 f.info false (stop n .idle x.1)
      else if f.depth.toNat ≠ r.ssp.toNat - 1 then preciseFault n r 4 3 f.info false (stop n .idle x.1)
      else if f.cls = 3 ∨ (f.cls = 2 ∧ f.mask.extractLsb' 8 8 ≠ 0) then
        preciseFault n r 4 8 (f.mask.setWidth 48 ||| f.cls.setWidth 48 <<< 16) false (stop n .idle x.1)
      else
        let z := if f.len = 0 then x.1 else frameArrive n r false (a + 8).toNat f.len (linesOf (a + 8).toNat f.len) (Ecc.ok.from 1) x.1
        match (if f.len = 0 then none else frameFault z n r false (a + 8) f.len) with
        | some (k, sub) => preciseFault n r k sub (a + 8) false (stop n .idle z)
        | none =>
          let y := portARead (a + 8).toNat f.len z
          goto n (f.ret.extractLsb' 0 14) (y.1.modFile n r.lvl (fun c =>
            { restoreAll f.cls (savedBits f.cls f.mask) y.2 c with ssp := BitVec.ofNat 6 (r.ssp.toNat - 1) })) := by
  unfold opRetRestoreDone
  simp only [hact, hbehind, frameArrive_read (k := Ecc.ok) rfl hfault, hfault, Bool.false_eq_true, if_false]
  rfl

/-- A frame that matches gives the saved registers back (R101). -/
theorem opRetRestoreDone_restores (hact : (b.ctx n).act = .ret r)
    (hbehind : bankBehind b (engOf n) r.seq (banksOf b (frameAddr b n r.lvl (r.ssp.toNat - 1)).toNat 0x68) = false)
    (hfault : frameFault b n r false (frameAddr b n r.lvl (r.ssp.toNat - 1)) 8 = none) {x : Block × List Byte} {f : RetFrame}
    (hx : x = portARead (frameAddr b n r.lvl (r.ssp.toNat - 1)).toNat 8 b) (hf : f = retFrame (b.file n r.lvl) (r.ssp.toNat - 1) x.2)
    (hret : f.ret = f.entry.setWidth 16) (hdepth : f.depth.toNat = r.ssp.toNat - 1) (hcls : f.cls ≠ 3)
    (hmask : f.cls = 2 → f.mask.extractLsb' 8 8 = 0)
    (hrest : f.len = 0 ∨ frameFault x.1 n r false (frameAddr b n r.lvl (r.ssp.toNat - 1) + 8) f.len = none) :
    opRetRestoreDone n .ok b =
      let y := portARead (frameAddr b n r.lvl (r.ssp.toNat - 1) + 8).toNat f.len x.1
      y.1.setFile n r.lvl { restoreAll f.cls (savedBits f.cls f.mask) y.2 (b.file n r.lvl) with
        ssp := BitVec.ofNat 6 (r.ssp.toNat - 1), upc := f.entry, act := .idle } := by
  have hentry : f.ret.extractLsb' 0 14 = f.entry := by
    rw [hret, BitVec.extractLsb'_setWidth_of_le (by decide), BitVec.extractLsb'_eq_self]
  have hclass : ¬ (f.cls = 3 ∨ (f.cls = 2 ∧ f.mask.extractLsb' 8 8 ≠ 0)) := by tauto
  have hctx : ∀ k m : Nat, (portARead k m x.1).1.file n r.lvl = b.file n r.lvl := fun k m => by
    refine file_congr ?_ ?_ _
    · rw [ctx_portARead, hx, ctx_portARead]
    · rw [eng_portARead, hx, eng_portARead]
  rw [opRetRestoreDone_eq hact hbehind hfault]
  dsimp only
  rw [← hx, ← hf, if_neg (not_not.2 hret), if_neg (not_not.2 hdepth), if_neg hclass]
  have harrive : (if f.len = 0 then x.1 else frameArrive n r false (frameAddr b n r.lvl (r.ssp.toNat - 1) + 8).toNat f.len
      (linesOf (frameAddr b n r.lvl (r.ssp.toNat - 1) + 8).toNat f.len) (Ecc.ok.from 1) x.1) = x.1 := by
    split
    · rfl
    · next hlen => exact frameArrive_read rfl (hrest.resolve_left hlen)
  have hnone : (if f.len = 0 then none else frameFault x.1 n r false (frameAddr b n r.lvl (r.ssp.toNat - 1) + 8) f.len) = none := by
    split
    · rfl
    · next hlen => exact hrest.resolve_left hlen
  simp only [harrive, hnone, Block.modFile, goto_setFile, hctx, hentry]

/-- A frame that does not match its shadow entry is a control-flow fault, and restores nothing (R101). -/
theorem opRetRestoreDone_faults (hact : (b.ctx n).act = .ret r)
    (hbehind : bankBehind b (engOf n) r.seq (banksOf b (frameAddr b n r.lvl (r.ssp.toNat - 1)).toNat 0x68) = false)
    (hfault : frameFault b n r false (frameAddr b n r.lvl (r.ssp.toNat - 1)) 8 = none) {x : Block × List Byte} {f : RetFrame}
    (hx : x = portARead (frameAddr b n r.lvl (r.ssp.toNat - 1)).toNat 8 b) (hf : f = retFrame (b.file n r.lvl) (r.ssp.toNat - 1) x.2)
    (hbad : f.ret ≠ f.entry.setWidth 16 ∨ f.depth.toNat ≠ r.ssp.toNat - 1) :
    opRetRestoreDone n .ok b = pendExc n
      { code := 4, kind := 0, sub := if f.ret ≠ f.entry.setWidth 16 then 2 else 3, fupc := r.upc, lvl := r.lvl, einfo := f.info }
      (x.1.setCtx n { b.ctx n with act := .idle }) := by
  have hstop : stop n .idle x.1 = x.1.setCtx n { b.ctx n with act := .idle } := by
    rw [stop, modCtx_eq, show x.1.ctx n = b.ctx n by rw [hx, ctx_portARead]]
  rw [opRetRestoreDone_eq hact hbehind hfault]
  dsimp only
  rw [← hx, ← hf, hstop]
  split
  · next hret => rw [preciseFault]
  · next hret => rw [if_pos (hbad.resolve_left hret), preciseFault]

end

/-- Settles O13: the words stop with their frame (`wordEffect_stopped`), CALL's transfer writes it (`opCallFrameDone_eq`), and RET's
restores it or faults. -/
theorem callAndReturnTransferTheirFrame : Obligations.CallAndReturnTransferTheirFrame := by
  unfold Obligations.CallAndReturnTransferTheirFrame
  refine ⟨fun s e k w h ha => ⟨fun hseq => ?call, fun hseq => ?ret⟩, ?callDone, ?retDone⟩
  case call =>
    refine gives_of_exec rfl ?_
    rw [issueAs_call h ha hseq]
    exact wordEffect_stopped _
  case ret =>
    refine gives_of_exec rfl ?_
    rw [issueAs_ret h ha hseq]
    exact wordEffect_stopped _
  case callDone =>
    intro s e k r n c a hact hbehind hfault m
    have he : engOf (ctxNo e k) = e := engOf_ctxNo e k
    refine gives_of_exec (f := opCallFrameDone (ctxNo e k) .ok) rfl ?_
    rw [opCallFrameDone_eq hact (by rw [he]; exact hbehind) hfault]
    have hparts := onlyParts_setFile m n r.lvl { c with
        shadow := c.shadow.setIfInBounds r.ssp.toNat (r.upc + 1), ssp := r.ssp + 1, act := .idle, upc := callTarget r }
    rw [ctx_bankWrite, eng_bankWrite, he] at hparts
    exact hparts
  case retDone =>
    intro s e k r n c d a x h ret mask cls entry bits len hact hbehind hfault
    have he : engOf (ctxNo e k) = e := engOf_ctxNo e k
    refine ⟨?restores, ?faults⟩
    case restores =>
      rintro ⟨hret, hdepth, hcls, hmask, hrest⟩
      refine gives_of_exec (f := opRetRestoreDone (ctxNo e k) .ok) rfl ?_
      rw [opRetRestoreDone_restores (x := x) (f := retFrame c d h) hact (by rw [he]; exact hbehind) hfault rfl rfl hret hdepth hcls hmask hrest]
      intro y c'
      have hparts := onlyParts_setFile y.1 n r.lvl c'
      rw [ctx_portARead, ctx_portARead, eng_portARead, eng_portARead, he] at hparts
      exact hparts
    case faults =>
      intro hbad
      have hdoes : Does (.retRestoreDone e k .ok) s _ := does_of_exec (f := opRetRestoreDone (ctxNo e k) .ok) rfl
      rw [opRetRestoreDone_faults (x := x) (f := retFrame c d h) hact (by rw [he]; exact hbehind) hfault rfl rfl hbad] at hdoes
      exact hdoes

end Sys2Proof.Machine

/-! The issue of a word in a block with other lane groups or records, and the release of pin groups (R66, R268, R278). -/

namespace Sys2Proof.Machine
open Sys2Proof

/-! ### Blocks that agree -/

/-- `t` and `v` have the same clusters by number, and everything else as it stands. -/
def CluAgree (t v : Block) : Prop := t = { v with clus := t.clus } ∧ ∀ x, t.clu x = v.clu x

section
variable {b t v : Block} {n : CtxNo} {c : Ctx} {fe : Eng → Eng} {fc : Clu → Clu} {q : Nat}

theorem WordEffect.of_cluAgree (h : CluAgree t v) (hv : WordEffect b v n c fe fc q) : WordEffect b t n c fe fc q := by
  obtain ⟨hframe, hclu⟩ := h
  obtain ⟨hframe', hctx', heng', hclu'⟩ := hv
  have hctxs : ∀ m, t.ctx m = v.ctx m := fun m => by rw [hframe]; rfl
  have hengs : ∀ x, t.eng x = v.eng x := fun x => by rw [hframe]; rfl
  exact ⟨by rw [hframe, hframe'], fun m => (hctxs m).trans (hctx' m), fun x => (hengs x).trans (heng' x), fun x => (hclu x).trans (hclu' x)⟩

theorem WordEffect.of_agree (h : Agree t v) (hv : WordEffect b v n c fe fc q) : WordEffect b t n c fe fc q := by
  obtain ⟨hframe, hctx, heng⟩ := h
  obtain ⟨hframe', hctx', heng', hclu'⟩ := hv
  have hclus : ∀ x, t.clu x = v.clu x := fun x => by rw [hframe]; rfl
  exact ⟨by rw [hframe, hframe'], fun m => (hctx m).trans (hctx' m), fun x => (heng x).trans (heng' x), fun x => (hclus x).trans (hclu' x)⟩

end

/-! ### The selection reads no lane group and no record -/

/-- The block with other clusters and other impairment records. -/
def withClus (C : Map Clu) (I : Imp) (b : Block) : Block := { b with clus := C, imp := I }

section
variable {C : Map Clu} {I : Imp} {b : Block} {n : CtxNo}

/-- The clusters differ in no patch table: an engine fetches what it fetched. -/
def SameTables (C : Map Clu) (b : Block) : Prop := ∀ e, tableOf { b with clus := C } e = tableOf b e

theorem fetchAddr_withClus (h : SameTables C b) (e : EngId) (x : CsAddr) : fetchAddr (withClus C I b) e x = fetchAddr b e x := by
  have htable : tableOf (withClus C I b) e = tableOf b e := h e
  unfold fetchAddr
  rw [htable]

theorem storeAddr_withClus (h : SameTables C b) (m : CtxNo) : storeAddr (withClus C I b) m = storeAddr b m := by
  have hctx : (withClus C I b).ctx m = b.ctx m := rfl
  have heng : (withClus C I b).eng (engOf m) = b.eng (engOf m) := rfl
  unfold storeAddr
  simp only [hctx, heng, fetchAddr_withClus h]

theorem csRivals_withClus (h : SameTables C b) (x : CsAddr) : csRivals (withClus C I b) n x = csRivals b n x := by
  have hctx : ∀ m, (withClus C I b).ctx m = b.ctx m := fun _ => rfl
  have hrr : (withClus C I b).csRr = b.csRr := rfl
  unfold csRivals
  simp only [storeAddr_withClus h, hctx, hrr]

theorem storeFetch_withClus (h : SameTables C b) : storeFetch n (withClus C I b) = withClus C I (storeFetch n b) := by
  unfold storeFetch
  rw [storeAddr_withClus h]
  split
  · rfl
  · dsimp only
    rw [csRivals_withClus h]
    split
    · rfl
    · rfl

theorem modEng_withClus (B : Block) (e : EngId) (f : Eng → Eng) : (withClus C I B).modEng e f = withClus C I (B.modEng e f) := rfl

theorem select_withClus (h : SameTables C b) : select n (withClus C I b) = withClus C I (select n b) := by
  have hhigh : highClass (withClus C I b) n = highClass b n := rfl
  have hnow : (withClus C I b).now = b.now := rfl
  unfold select
  dsimp only
  rw [hhigh, hnow, modEng_withClus]
  refine storeFetch_withClus fun e => ?_
  exact h e

theorem fetchP_withClus (h : SameTables C b) (e : EngId) (x : CsAddr) : fetchP (withClus C I b) e x = fetchP b e x := by
  have heng : (withClus C I b).eng e = b.eng e := rfl
  have hcs : (withClus C I b).cs = b.cs := rfl
  unfold fetchP
  rw [heng, hcs, fetchAddr_withClus h]

theorem lbCapture_withClus (h : SameTables C b) (x : CsAddr) : lbCapture n x (withClus C I b) = withClus C I (lbCapture n x b) := by
  unfold lbCapture
  rw [fetchP_withClus h]
  rfl

theorem sameTables_select (h : SameTables C b) : SameTables C (select n b) := by
  rw [select_eq]
  exact h

theorem selected_withClus (h : SameTables C b) : selected (withClus C I b) n = withClus C I (selected b n) := by
  have hctx : (withClus C I b).ctx n = b.ctx n := rfl
  have heng : ∀ B : Block, (withClus C I B).eng (engOf n) = B.eng (engOf n) := fun _ => rfl
  have hcsRr : (withClus C I (select n b)).csRr = (select n b).csRr := rfl
  have hfree : (withClus C I (select n b)).free = (select n b).free := rfl
  unfold selected granted selFree
  rw [hctx, select_withClus h, lbCapture_withClus (sameTables_select h), heng, hcsRr, hfree]
  generalize (lbCapture n (b.ctx n).upc (select n b)).eng (engOf n) = g
  generalize (select n b).csRr = r, (select n b).free = f
  rfl

end

/-! ### The release of pin groups (R268, R278) -/

/-- A pin group released in its lanes. -/
def releasedGroup (now : Nat) (g : BitVec 4) (l : Lanes) : Lanes :=
  let p := l.pg g
  let l := if p.op != 4 then
      let lq : BitVec 4 := (p.lq &&& 7) ||| 8
      l.setQueue lq { l.queue lq with pos := 0, part := 0, back := none } else l
  l.modPg g (fun p => { p with
    owner := none, lvl := .prog, op := 0, lq := 0, bits := 0, done := 0, began := none, notBefore := 0
    sample := none, stopped := false, outPrev := 0, outCur := 0, dA := 0, dB := 0, dC := 0
    rel := some (now, p.dA, p.op, p.lq) })

/-- The pin groups that the levels `p` of a context hold, in its cluster's lanes. -/
def heldGroups (p : Lvl → Bool) (n : CtxNo) (l : Lanes) : List (BitVec 4) :=
  ((List.range 16).map (BitVec.ofNat 4)).filter (fun g => (l.pg g).owner == some n && p (l.pg g).lvl)

/-- The lanes in which the levels `p` of a context hold no pin group and request none. -/
def releasedLanes (p : Lvl → Bool) (n : CtxNo) (now : Nat) (l : Lanes) : Lanes :=
  let l' := (heldGroups p n l).foldl (fun l g => releasedGroup now g l) l
  { l' with reqs := l'.reqs.filter (fun r => !(r.n == n && p r.lvl)) }

section
variable {p : Lvl → Bool} {n : CtxNo} {b : Block}

theorem releaseGroup_eq (c : CluId) (g : BitVec 4) (b : Block) : releaseGroup c g true b = b.modLanes c (releasedGroup b.now g) := rfl

theorem pg_setQueue (l : Lanes) (lq : BitVec 4) (q : Queue) (h : BitVec 4) : (l.setQueue lq q).pg h = l.pg h := by
  unfold Lanes.setQueue
  dsimp only
  split
  · rfl
  · rfl

theorem pg_modPg (l : Lanes) (g h : BitVec 4) (f : PinGroup → PinGroup) : (l.modPg g f).pg h = if h = g then f (l.pg g) else l.pg h := by
  unfold Lanes.modPg Lanes.pg
  rw [Map.mod, Map.get_set]
  simp only [BitVec.toNat_inj]

theorem pg_releasedGroup_ne (now : Nat) {g h : BitVec 4} (hne : h ≠ g) (l : Lanes) : (releasedGroup now g l).pg h = l.pg h := by
  unfold releasedGroup
  rw [pg_modPg, if_neg hne]
  split
  · exact pg_setQueue ..
  · rfl

theorem owner_releasedGroup (now : Nat) (g : BitVec 4) (l : Lanes) : ((releasedGroup now g l).pg g).owner = none := by
  unfold releasedGroup
  rw [pg_modPg, if_pos rfl]

/-- Of the groups released, none has an owner; the others are as before. -/
theorem pg_foldl_released (now : Nat) (ls : List (BitVec 4)) : ∀ (l : Lanes) (h : BitVec 4),
    (h ∈ ls → ((ls.foldl (fun l g => releasedGroup now g l) l).pg h).owner = none) ∧
    (h ∉ ls → (ls.foldl (fun l g => releasedGroup now g l) l).pg h = l.pg h) := by
  induction ls with
  | nil => exact fun l h => ⟨fun hmem => absurd hmem List.not_mem_nil, fun _ => rfl⟩
  | cons g ls ih =>
    intro l h
    obtain ⟨hin, hout⟩ := ih (releasedGroup now g l) h
    refine ⟨fun hmem => ?_, fun hmem => ?_⟩
    · by_cases hls : h ∈ ls
      · exact hin hls
      · obtain rfl : h = g := (List.mem_cons.1 hmem).resolve_right hls
        rw [List.foldl_cons, hout hls]
        exact owner_releasedGroup ..
    · rw [List.mem_cons, not_or] at hmem
      rw [List.foldl_cons, hout hmem.2, pg_releasedGroup_ne now hmem.1]

/-- A context holds no group of the levels that it has released. -/
theorem heldGroups_released (now : Nat) (l : Lanes) : heldGroups p n (releasedLanes p n now l) = [] := by
  refine List.filter_eq_nil_iff.2 fun g hg => ?_
  obtain ⟨hin, hout⟩ := pg_foldl_released now (heldGroups p n l) l g
  have hpg : (releasedLanes p n now l).pg g = ((heldGroups p n l).foldl (fun l g => releasedGroup now g l) l).pg g := rfl
  rw [hpg]
  by_cases hheld : g ∈ heldGroups p n l
  · rw [hin hheld]
    exact Bool.false_ne_true
  · rw [hout hheld]
    exact fun hp => hheld (List.mem_filter.2 ⟨hg, hp⟩)

/-- A second release finds nothing. -/
theorem releasedLanes_twice (now : Nat) (l : Lanes) : releasedLanes p n now (releasedLanes p n now l) = releasedLanes p n now l := by
  have hnone := heldGroups_released (p := p) (n := n) now l
  rw [releasedLanes, hnone]
  unfold releasedLanes
  simp only [List.foldl_nil, List.filter_filter, Bool.and_self]

/-- A release changes the lanes of its context's cluster alone. -/
theorem clu_foldl_released (c : CluId) (ls : List (BitVec 4)) : ∀ (b : Block) (x : CluId),
    (ls.foldl (fun b g => releaseGroup c g true b) b).clu x =
      if x = c then { b.clu c with lanes := ls.foldl (fun l g => releasedGroup b.now g l) (b.clu c).lanes } else b.clu x := by
  induction ls with
  | nil =>
    intro b x
    split
    · next h => rw [h]; rfl
    · rfl
  | cons g ls ih =>
    intro b x
    have hnow : (releaseGroup c g true b).now = b.now := rfl
    rw [List.foldl_cons, ih, hnow, releaseGroup_eq, Block.modLanes, modClu_eq, clu_setClu_same, clu_setClu, List.foldl_cons]
    split
    · rfl
    · rfl

theorem clu_releaseOwn (p : Lvl → Bool) (n : CtxNo) (b : Block) (x : CluId) : (releaseOwn p n b).clu x =
    if x = cluOf (engOf n) then
      { b.clu (cluOf (engOf n)) with lanes := releasedLanes p n b.now (b.clu (cluOf (engOf n))).lanes }
    else b.clu x := by
  have hown : ownGroups p b n = heldGroups p n (b.clu (cluOf (engOf n))).lanes := rfl
  unfold releaseOwn
  rw [Block.modLanes, modClu_eq, clu_setClu, clu_foldl_released, if_pos rfl, clu_foldl_released, hown]
  split
  · rfl
  · rfl

/-- The clusters after a release depend on the clusters and the time before it alone. -/
theorem releaseOwn_eq {B : Block} (hclus : B.clus = b.clus) (hnow : B.now = b.now) :
    releaseOwn p n B = { B with clus := (releaseOwn p n b).clus } := by
  have hfold : ∀ (ls : List (BitVec 4)) (B b : Block), B.clus = b.clus → B.now = b.now →
      ls.foldl (fun b g => releaseGroup (cluOf (engOf n)) g true b) B =
        { B with clus := (ls.foldl (fun b g => releaseGroup (cluOf (engOf n)) g true b) b).clus } := by
    intro ls
    induction ls with
    | nil => exact fun B b h _ => by rw [List.foldl_nil, List.foldl_nil, ← h]
    | cons g ls ih =>
      intro B b h h'
      have hstep : (releaseGroup (cluOf (engOf n)) g true B).clus = (releaseGroup (cluOf (engOf n)) g true b).clus := by
        rw [releaseGroup_eq, releaseGroup_eq, h']
        simp only [Block.modLanes, modClu_eq, Block.setClu, Block.clu, h]
      rw [List.foldl_cons, List.foldl_cons, ih _ _ hstep h']
      rfl
  have hown : ownGroups p B n = ownGroups p b n := by simp only [ownGroups, Block.pg, Block.lanes, Block.clu, hclus]
  have hls := hfold (ownGroups p b n) B b hclus hnow
  unfold releaseOwn
  rw [hown, hls]
  simp only [Block.modLanes, modClu_eq, Block.setClu, Block.clu]

end
end Sys2Proof.Machine

/-! Shift words request, keep and give up their pin group (R134..R137, R267, R268, R273, R278). -/

namespace Sys2Proof.Machine
open Sys2Proof

/-! ### A release, seen from the selection and from the file -/

section
variable {p : Lvl → Bool} {b t v : Block} {n : CtxNo} {l : Lvl}

theorem releaseOwn_self : releaseOwn p n b = { b with clus := (releaseOwn p n b).clus } := releaseOwn_eq rfl rfl

theorem now_releaseOwn : (releaseOwn p n b).now = b.now := by rw [releaseOwn_self]
theorem ctx_releaseOwn (m : CtxNo) : (releaseOwn p n b).ctx m = b.ctx m := by rw [releaseOwn_self]; rfl
theorem file_releaseOwn : (releaseOwn p n b).file n l = b.file n l := by rw [releaseOwn_self]; rfl

theorem releaseOwn_setFile (c : Ctx) : releaseOwn p n (b.setFile n l c) = (releaseOwn p n b).setFile n l c := by
  rw [releaseOwn_eq (B := b.setFile n l c) (b := b) rfl rfl, releaseOwn_self]
  rfl

/-- A release leaves the patch tables as they are. -/
theorem sameTables_releaseOwn : SameTables (releaseOwn p n b).clus b := by
  intro e
  have hclu : ({ b with clus := (releaseOwn p n b).clus } : Block).clu (cluOf e) = (releaseOwn p n b).clu (cluOf e) := rfl
  unfold tableOf
  rw [hclu, clu_releaseOwn]
  split
  · next h => rw [h]
  · rfl

/-- A release and the selection of its context may be exchanged. -/
theorem selected_releaseOwn : selected (releaseOwn p n b) n = releaseOwn p n (selected b n) := by
  have hnow := now_selected b n
  have hself : releaseOwn p n b = withClus (releaseOwn p n b).clus b.imp b := releaseOwn_self
  rw [releaseOwn_eq (clus_selected b n) hnow]
  exact (congrArg (fun B => selected B n) hself).trans (selected_withClus sameTables_releaseOwn)

/-- Released once, the levels hold no group. -/
theorem holdsGroup_releaseOwn (g : BitVec 4) : holdsGroup (releaseOwn (fun x => x == l) n b) n l g = false := by
  have hnone := heldGroups_released (p := fun x => x == l) (n := n) b.now (b.clu (cluOf (engOf n))).lanes
  have hpg : (releaseOwn (fun x => x == l) n b).pg (cluOf (engOf n)) g =
      (releasedLanes (fun x => x == l) n b.now (b.clu (cluOf (engOf n))).lanes).pg g := by
    rw [Block.pg, Block.lanes, clu_releaseOwn, if_pos rfl]
  have hmem : g ∈ (List.range 16).map (BitVec.ofNat 4) := List.mem_map.2 ⟨g.toNat, List.mem_range.2 g.isLt, (BitVec.ofNat_toNat 4 g).trans (BitVec.setWidth_eq g)⟩
  rw [holdsGroup, hpg]
  exact Bool.eq_false_iff.2 (List.filter_eq_nil_iff.1 hnone g hmem)

/-- A second release changes nothing by number. -/
theorem cluAgree_releaseOwn_twice : CluAgree (releaseOwn p n (releaseOwn p n b)) (releaseOwn p n b) := by
  refine ⟨releaseOwn_self, fun x => ?_⟩
  rw [clu_releaseOwn (b := releaseOwn p n b), now_releaseOwn]
  split
  · next h =>
    rw [h, clu_releaseOwn, if_pos rfl, releasedLanes_twice]
  · rfl

theorem CluAgree.modLanes (h : CluAgree t v) (c : CluId) (f : Lanes → Lanes) : CluAgree (t.modLanes c f) (v.modLanes c f) := by
  obtain ⟨hframe, hclu⟩ := h
  refine ⟨?_, fun x => ?_⟩
  · rw [hframe]
    rfl
  · rw [Block.modLanes, Block.modLanes, modClu_eq, modClu_eq, clu_setClu, clu_setClu, hclu, hclu]

theorem CluAgree.setFile (h : CluAgree t v) (c : Ctx) : CluAgree (t.setFile n l c) (v.setFile n l c) := by
  obtain ⟨hframe, hclu⟩ := h
  exact ⟨by rw [hframe]; rfl, hclu⟩

end

/-! ### The request for a pin group -/

/-- The lanes with a request more. -/
def asking (r : ShiftReq) (l : Lanes) : Lanes := { l with reqs := l.reqs ++ [r] }

/-- What a shift word asks for, from its bit `d` on (R267). -/
def shiftReq (n : CtxNo) (s : Snap) (d now : Nat) : ShiftReq :=
  { n := n, g := shiftGroup s.w, op := s.w.laneop, lq := s.w.lq, bits := longCount s, done := d, lvl := s.lvl, at_ := now }

section
variable {b : Block} {n : CtxNo} {w : MWord} {s : Snap}

theorem requestGroup_held {B : Block} (d : Nat) (h : holdsGroup B n s.lvl (shiftGroup s.w) = true) : requestGroup n s d B =
    B.modPg (cluOf (engOf n)) (shiftGroup s.w) (fun p => { p with
      stopped := false, bits := longCount s, done := d, op := s.w.laneop, lq := s.w.lq
      notBefore := max p.notBefore (B.now + 1) }) := by
  simp only [requestGroup, h, if_true]

theorem requestGroup_other {B : Block} (d : Nat) (h : holdsGroup B n s.lvl (shiftGroup s.w) = false) : requestGroup n s d B =
    (releaseOwn (fun x => x == s.lvl) n B).modLanes (cluOf (engOf n)) (asking (shiftReq n s d B.now)) := by
  simp only [requestGroup, h, Bool.false_eq_true, if_false]
  rfl

/-- A word that has released its level's groups, and asks for one. -/
theorem wordEffect_asking (b : Block) (n : CtxNo) (r : ShiftReq) (v : Ctx) :
    let released := releaseOwn (fun x => x == lvlOf b n) n
    WordEffect (released b) (((released (selected b n)).modLanes (cluOf (engOf n)) (asking r)).setFile n (lvlOf b n) v) n v (fun g => g)
      (fun c => { c with lanes := asking r c.lanes }) 0 := by
  intro released
  have hlvl : lvlOf (released b) n = lvlOf b n := congrArg Ctx.lvl (ctx_releaseOwn n)
  have heff := wordEffect_modClu (released b) n v (fun c => { c with lanes := asking r c.lanes })
  rw [hlvl, selected_releaseOwn] at heff
  exact heff

/-! ### The W stage of a lane word -/

/-- A value that POP, PEEK or IN supplies is written to DST. -/
def dstWritten (n : CtxNo) (s : Snap) (v : Option Word) (b : Block) : Block :=
  v.elim b fun v => b.modFile n s.lvl (fun c => writeDst s.priv c s.w.dst v)

/-- The effects of a lane word outside its context, in their order. -/
theorem wExternal_lane (ha : LaneAlone s.w) (B : Block) : wExternal n s B =
    let t := dstWritten n s (if laneWritesDst s.w.laneop then laneGet B n s else none) (laneAct n s B)
    let t := if s.w.laneop = 1 ∨ s.w.laneop = 2 ∨ s.w.laneop = 11 then settleClu (cluOf (engOf n)) t else t
    if s.w.laneop = 10 then resetProg n s t else t := by
  obtain ⟨halu, hm, hx, -⟩ := ha
  have hreq := requestOf_noAluMem (s := s) ⟨halu, hm, .inr hx⟩
  have hset : ¬ (0x14 ≤ (0 : BitVec 6).toNat ∧ (0 : BitVec 6).toNat ≤ 0x17) := by decide
  have hmem : s.w.isMem = false := by rw [MWord.isMem, hm]; rfl
  unfold wExternal dstWritten
  simp only [hreq, hx, hset, hmem, wordCmps, if_false, Bool.false_and, Bool.false_eq_true]
  cases (if laneWritesDst s.w.laneop then laneGet B n s else none)
  · rfl
  · rfl

/-- Before its effects outside, the word has left its operands' file. -/
theorem wStage_lane (ha : LaneAlone w) : wStage n (snapOf b n w none false) (selected b n) =
    if seesEarly b n w then
      (wExternal n (snapOf b n w none false) (quieted b n w)).modFile n (lvlOf b n) (fun c => { c with stat := putBit c.stat 5 true })
    else wExternal n (snapOf b n w none false) (quieted b n w) := by
  obtain ⟨halu, hm, hx, -⟩ := ha
  have hregs : xferRegs b n (snapOf b n w none false) (fileOf b n) = fileOf b n := by
    simp only [xferRegs, word_snapOf, hx]
    rfl
  have hcode : ¬ (0 : BitVec 6) = 0x0B := by decide
  have hin : wInternal n (snapOf b n w none false) (selected b n) = quieted b n w := by
    rw [wInternal_noAluMem (s := snapOf b n w none false) ⟨halu, hm, .inr hx⟩, word_snapOf, hx, if_neg hcode, xferFile_selected, hregs]
    rfl
  have hearly : (earlyRead w && mulInFlight ((selected b n).ctx n)) = seesEarly b n w := seesEarly_selected b n w
  unfold wStage
  simp only [word_snapOf, hin, hearly]
  rfl

/-! ### A shift word's W stage and its progress -/

/-- A shift word without another operation (R110, R134). -/
abbrev ShiftAlone (w : MWord) : Prop := (w.laneop = 4 ∨ w.laneop = 5 ∨ w.laneop = 6) ∧ LaneAlone w

/-- A lane word without another operation reads no SRCA. -/
theorem readsA_lane (h : LaneAlone w) : w.readsA = false := by
  obtain ⟨halu, hm, -, hseq⟩ := h
  simp [MWord.readsA, MWord.isMem, halu, hm, hseq, aluReadsA]

theorem readsB_lane (h : LaneAlone w) : w.readsB = (w.laneop == 1 || w.laneop == 7 || w.laneop == 8) := by
  obtain ⟨halu, hm, hx, -⟩ := h
  have hsets : xferSets (0 : BitVec 6) = false := rfl
  rw [MWord.readsB, halu, hm, hx, hsets]
  simp [MWord.isLongMem, hm, aluReadsB, isStoreOp]

theorem earlyRead_lane (h : LaneAlone w) (hread : (w.laneop == 1 || w.laneop == 7 || w.laneop == 8) = false) : earlyRead w = false := by
  rw [earlyRead, readsA_lane h, readsB_lane h, hread]
  rfl

theorem earlyRead_shift (h : ShiftAlone w) : earlyRead w = false := by
  obtain ⟨hl, ha⟩ := h
  refine earlyRead_lane ha ?_
  obtain hl | hl | hl := hl
  all_goals
    rw [hl]
    rfl

theorem noteEarly_shift (h : ShiftAlone s.w) (B : Block) : noteEarly n s B = B := by
  simp only [noteEarly, earlyRead_shift h, Bool.false_and, Bool.false_eq_true, if_false]

theorem longWord_shift (h : ShiftAlone w) : w.isLong = true ∧ w.isLongMem = false := by
  obtain ⟨hl, -, hm, -⟩ := h
  obtain hl | hl | hl := hl
  all_goals simp [MWord.isLong, MWord.isLongMem, MWord.isShift, hm, hl]

theorem wExternal_shift (h : ShiftAlone s.w) (B : Block) : wExternal n s B = B := by
  obtain ⟨hl, ha⟩ := h
  obtain hl | hl | hl := hl
  all_goals
    simp only [wExternal_lane ha, laneAct, hl]
    rfl

theorem wStage_shift (h : ShiftAlone w) : wStage n (snapOf b n w none false) (selected b n) = quieted b n w := by
  have hsees : seesEarly b n w = false := by rw [seesEarly, earlyRead_shift h, Bool.false_and]
  rw [wStage_lane h.2, hsees, if_neg Bool.false_ne_true, wExternal_shift (s := snapOf b n w none false) h]

theorem progDone_fresh : ∀ op : Byte, progDone (mkProg op 0) = 0 := by decide

theorem progress_setProgress (l : Lvl) (c : Ctx) (v : Word) : progress l (setProgress l c v) = v := by
  unfold progress setProgress
  split <;> rfl

theorem shadow_setProgress (l : Lvl) (c : Ctx) (v : Word) : (setProgress l c v).shadow = c.shadow := by
  unfold setProgress
  split <;> rfl

theorem progress_stepOver (l : Lvl) (c : Ctx) : progress l (stepOver c) = progress l c := by
  unfold progress
  split <;> rfl

end
end Sys2Proof.Machine

/-! The issue of a shift word: afresh, resumed on its group, resumed without it, and replaced under a false condition. -/

namespace Sys2Proof.Machine
open Sys2Proof

section
variable {b : Block} {n : CtxNo} {w : MWord}

/-- A shift word that issues starts or resumes. -/
theorem issueAs_shift (h : Issues b n w) (ha : ShiftAlone w) (p : MWord → Bool) (hp : p w = true) :
    let s := snapOf b n w none false
    issueAs p n b = if resumes (fileOf b n) (lvlOf b n) w then longIssue n s false (selected b n) else longIssue n s true (quieted b n w) := by
  obtain ⟨-, -, -, -, hseq⟩ := id ha
  intro s
  rw [issueAs_issues h p hp (by rw [hseq]; decide)]
  unfold perform
  simp only [snap_lvl, word_snapOf, resumes_selected, (longWord_shift ha).1, if_true, wStage_shift ha,
    noteEarly_shift (s := snapOf b n w none false) ha]
  cases resumes (fileOf b n) (lvlOf b n) w
  · rfl
  · rfl

theorem longCount_shift (ha : ShiftAlone w) : longCount (snapOf b n w none false) = if w.aux8 = 0 then 256 else w.aux8.toNat := by
  simp only [longCount, word_snapOf, (longWord_shift ha).2, Bool.false_eq_true, if_false]
  rfl

theorem longCount_pos (ha : ShiftAlone w) : ¬ longCount (snapOf b n w none false) ≤ 0 := by
  rw [longCount_shift ha]
  split
  · omega
  · next h => exact fun hle => h (BitVec.eq_of_toNat_eq (Nat.le_zero.1 hle))

theorem mkProg_fresh (ha : ShiftAlone w) : mkProg w.longOp 0 = 0x800000000000 ||| (0x40 + w.laneop.setWidth 48) <<< 32 := by
  have hop : w.longOp = 0x40 + w.laneop.setWidth 8 := by simp only [MWord.longOp, (longWord_shift ha).2, Bool.false_eq_true, if_false]
  rw [hop]
  obtain hl | hl | hl := ha.1
  all_goals
    rw [hl]
    rfl

/-- The steps of a shift word without a fresh start. -/
theorem longIssue_resumed (ha : ShiftAlone w) {B : Block} (s : Snap) (hs : s.w = w) : longIssue n s false B =
    if longCount s ≤ progDone (progress s.lvl (B.file n s.lvl)) ∧ holdsGroup B n s.lvl (shiftGroup w) = false then longEnd n s B
    else stop n (.shift s) (requestGroup n s (progDone (progress s.lvl (B.file n s.lvl))) B) := by
  unfold longIssue
  simp only [Bool.false_eq_true, if_false, hs, (longWord_shift ha).2, Bool.not_eq_true']

/-- A release, and a change of the file, behind a word's D stage. -/
theorem modFile_released_quieted (p : Lvl → Bool) (f : Ctx → Ctx) :
    (releaseOwn p n (quieted b n w)).modFile n (lvlOf b n) f =
      (releaseOwn p n (selected b n)).setFile n (lvlOf b n) (f (stepOver (readFile b n w))) := by
  have hfor : FileFor ((releaseOwn p n (selected b n)).ctx n) (lvlOf b n) (stepOver (readFile b n w)) := by
    rw [ctx_releaseOwn]
    exact fileFor_selected b n _ _ rfl
  rw [releaseOwn_setFile, modFile_setFile _ _ _ _ _ hfor]

theorem progress_released_quieted (m : Word) :
    progress (lvlOf b n) (((releaseOwn (fun x => x == lvlOf b n) n (selected b n)).setFile n (lvlOf b n)
      (setProgress (lvlOf b n) (stepOver (readFile b n w)) m)).file n (lvlOf b n)) = m := by
  have hfor : FileFor ((releaseOwn (fun x => x == lvlOf b n) n (selected b n)).ctx n) (lvlOf b n)
      (setProgress (lvlOf b n) (stepOver (readFile b n w)) m) := by
    rw [ctx_releaseOwn]
    exact fileFor_selected b n _ _ (shadow_setProgress ..)
  rw [file_setFile _ _ _ _ hfor, progress_setProgress]

theorem holdsGroup_setFile (B : Block) (l : Lvl) (v : Ctx) (x : Lvl) (g : BitVec 4) : holdsGroup (B.setFile n l v) n x g = holdsGroup B n x g := by
  have hclu : ∀ c, (B.setFile n l v).clu c = B.clu c := fun _ => rfl
  simp only [holdsGroup, Block.pg, Block.lanes, hclu]

theorem setFile_modLanes (B : Block) (l : Lvl) (v : Ctx) (c : CluId) (f : Lanes → Lanes) :
    (B.setFile n l v).modLanes c f = (B.modLanes c f).setFile n l v := setFile_modClu B n l v c _

theorem stop_progress (B : Block) (l : Lvl) (x : Act) (c : Ctx) (m : Word) :
    stop n x (B.setFile n l (setProgress l (stepOver c) m)) = B.setFile n l (heldIn x (setProgress l c m)) := by
  rw [stop_setFile]
  cases l
  · rfl
  · rfl
  · rfl

theorem goto_progress (B : Block) (l : Lvl) (a : CsAddr) (c : Ctx) (m : Word) :
    goto n a (B.setFile n l (setProgress l (stepOver c) m)) = B.setFile n l (goneTo a (setProgress l c m)) := by
  rw [goto_setFile]
  cases l
  · rfl
  · rfl
  · rfl

/-- A fresh start asks for its group (R267). -/
theorem longIssue_fresh (ha : ShiftAlone w) : longIssue n (snapOf b n w none false) true (quieted b n w) =
    stop n (.shift (snapOf b n w none false)) (requestGroup n (snapOf b n w none false) 0
      ((releaseOwn (fun x => x == lvlOf b n) n (selected b n)).setFile n (lvlOf b n)
        (setProgress (lvlOf b n) (stepOver (readFile b n w)) (mkProg w.longOp 0)))) := by
  unfold longIssue
  simp only [if_true, snap_lvl, word_snapOf, (longWord_shift ha).2, modFile_released_quieted, progress_released_quieted, progDone_fresh,
    longCount_pos ha, false_and, Bool.false_eq_true, if_false]

/-- Its group is none that it holds: it is released once more, and nothing is left to release. -/
theorem wordEffect_fresh (h : Issues b n w) (ha : ShiftAlone w) (hres : resumes (fileOf b n) (lvlOf b n) w = false) (p : MWord → Bool)
    (hp : p w = true) :
    WordEffect (releaseOwn (fun x => x == lvlOf b n) n b) (issueAs p n b) n
      (heldIn (.shift (snapOf b n w none false)) (setProgress (lvlOf b n) (readFile b n w) (mkProg w.longOp 0))) (fun g => g)
      (fun c => { c with lanes := asking (shiftReq n (snapOf b n w none false) 0 b.now) c.lanes }) 0 := by
  have hnow := now_selected b n
  have hgroup : ∀ v, holdsGroup ((releaseOwn (fun x => x == lvlOf b n) n (selected b n)).setFile n (lvlOf b n) v) n (lvlOf b n)
      (shiftGroup w) = false := fun v => by rw [holdsGroup_setFile, holdsGroup_releaseOwn]
  rw [issueAs_shift h ha p hp, hres, if_neg Bool.false_ne_true, longIssue_fresh ha,
    requestGroup_other (s := snapOf b n w none false) 0 (hgroup _), snap_lvl, releaseOwn_setFile, setFile_modLanes, stop_progress, setFile_now,
    now_releaseOwn, hnow]
  exact (wordEffect_asking b n _ _).of_cluAgree ((cluAgree_releaseOwn_twice.modLanes _ _).setFile _)

theorem file_modLanes (B : Block) (c : CluId) (f : Lanes → Lanes) (l : Lvl) : (B.modLanes c f).file n l = B.file n l := (rfl)
theorem file_modPg (B : Block) (c : CluId) (g : BitVec 4) (f : PinGroup → PinGroup) (l : Lvl) : (B.modPg c g f).file n l = B.file n l := (rfl)

theorem readFile_shift (ha : ShiftAlone w) : readFile b n w = fileOf b n := readFile_of_not_early (earlyRead_shift ha)

theorem progress_selected : progress (lvlOf b n) ((selected b n).file n (lvlOf b n)) = progress (lvlOf b n) (fileOf b n) := by
  rw [stepOver_file, progress_stepOver]

theorem holdsGroup_selected (l : Lvl) (g : BitVec 4) : holdsGroup (selected b n) n l g = holdsGroup b n l g := (rfl)

theorem issueAs_resumed (h : Issues b n w) (ha : ShiftAlone w) (hres : resumes (fileOf b n) (lvlOf b n) w = true) (p : MWord → Bool)
    (hp : p w = true) :
    let s := snapOf b n w none false
    let d := progDone (progress (lvlOf b n) (fileOf b n))
    issueAs p n b = if longCount s ≤ d ∧ holdsGroup b n (lvlOf b n) (shiftGroup w) = false then longEnd n s (selected b n)
      else stop n (.shift s) (requestGroup n s d (selected b n)) := by
  intro s d
  rw [issueAs_shift h ha p hp, hres, if_pos rfl, longIssue_resumed ha (snapOf b n w none false) rfl]
  simp only [snap_lvl, progress_selected, holdsGroup_selected]
  rfl

/-- Resumed on the group that it holds, it goes on there (R137, R273). -/
theorem wordEffect_goesOn (h : Issues b n w) (ha : ShiftAlone w) (hres : resumes (fileOf b n) (lvlOf b n) w = true)
    (hheld : holdsGroup b n (lvlOf b n) (shiftGroup w) = true) (p : MWord → Bool) (hp : p w = true) :
    WordEffect b (issueAs p n b) n (heldIn (.shift (snapOf b n w none false)) (readFile b n w)) (fun g => g)
      (fun v => { v with lanes := v.lanes.modPg (shiftGroup w) (fun x => { x with
        stopped := false, bits := longCount (snapOf b n w none false), done := progDone (progress (lvlOf b n) (fileOf b n))
        op := w.laneop, lq := w.lq, notBefore := max x.notBefore (b.now + 1) }) }) 0 := by
  have hnow := now_selected b n
  have hgo := requestGroup_held (n := n) (s := snapOf b n w none false) (B := selected b n) (progDone (progress (lvlOf b n) (fileOf b n))) hheld
  rw [issueAs_resumed h ha hres p hp, if_neg (by rw [hheld]; exact fun h => Bool.noConfusion h.2), hgo, hnow]
  refine .of_agree (agree_stop_selected ((file_modPg ..).trans (stepOver_file b n _)) _) ?_
  rw [readFile_shift ha, Block.modPg, Block.modLanes]
  exact wordEffect_modClu b n _ _

/-- Resumed without its group at its last bit, it ends (R140, R273). -/
theorem wordEffect_ends (h : Issues b n w) (ha : ShiftAlone w) (hres : resumes (fileOf b n) (lvlOf b n) w = true)
    (hheld : holdsGroup b n (lvlOf b n) (shiftGroup w) = false)
    (hdone : longCount (snapOf b n w none false) ≤ progDone (progress (lvlOf b n) (fileOf b n))) (p : MWord → Bool) (hp : p w = true) :
    WordEffect b (issueAs p n b) n (goneTo ((b.ctx n).upc + 1) (setProgress (lvlOf b n) (readFile b n w) 0)) (fun g => g) (fun v => v) 0 := by
  rw [issueAs_resumed h ha hres p hp, if_pos ⟨hdone, hheld⟩]
  unfold longEnd
  simp only [word_snapOf, (longWord_shift ha).2, Bool.false_eq_true, if_false, snap_lvl]
  rw [seqApply_next (s := snapOf b n w none false) ha.2.2.2.2, upc_snapOf, Block.modFile, stepOver_file, goto_progress, readFile_shift ha]
  exact .of_onlyFile (onlyFile_setFile ..) rfl

/-- Resumed without its group before its last bit, it asks for the rest (R137, R267). -/
theorem wordEffect_asksAgain (h : Issues b n w) (ha : ShiftAlone w) (hres : resumes (fileOf b n) (lvlOf b n) w = true)
    (hheld : holdsGroup b n (lvlOf b n) (shiftGroup w) = false)
    (hdone : ¬ longCount (snapOf b n w none false) ≤ progDone (progress (lvlOf b n) (fileOf b n))) (p : MWord → Bool) (hp : p w = true) :
    WordEffect (releaseOwn (fun x => x == lvlOf b n) n b) (issueAs p n b) n (heldIn (.shift (snapOf b n w none false)) (readFile b n w))
      (fun g => g) (fun c => { c with
        lanes := asking (shiftReq n (snapOf b n w none false) (progDone (progress (lvlOf b n) (fileOf b n))) b.now) c.lanes }) 0 := by
  have hnow := now_selected b n
  have hasks := requestGroup_other (n := n) (s := snapOf b n w none false) (B := selected b n)
    (progDone (progress (lvlOf b n) (fileOf b n))) hheld
  have hfile : ∀ r, (((releaseOwn (fun x => x == lvlOf b n) n (selected b n)).modLanes (cluOf (engOf n)) (asking r)).file n (lvlOf b n)) =
      stepOver (fileOf b n) := fun r => by rw [file_modLanes, file_releaseOwn, stepOver_file]
  rw [issueAs_resumed h ha hres p hp, if_neg fun hd => hdone hd.1, hasks, hnow]
  refine .of_agree (agree_stop_selected (hfile _) _) ?_
  rw [readFile_shift ha]
  exact wordEffect_asking b n _ _

/-- Replaced under a false condition, it gives up the group of the word before it (R278). -/
theorem onlyFile_gives_up (h : Selects b n w) (hlong : w.isLong = true) (hcond : cond b n (fileOf b n) w = false)
    (hres : resumes (fileOf b n) (lvlOf b n) w = false) (hown : ownGroups (fun x => x == lvlOf b n) b n ≠ []) (p : MWord → Bool) (hp : p w = true) :
    OnlyFile (releaseOwn (fun x => x == lvlOf b n) n b) (issueAs p n b) n (goneTo ((b.ctx n).upc + 1) (fileOf b n)) := by
  have hlvl : lvlOf (releaseOwn (fun x => x == lvlOf b n) n b) n = lvlOf b n := congrArg Ctx.lvl (ctx_releaseOwn n)
  have honly := onlyFile_setFile (releaseOwn (fun x => x == lvlOf b n) n b) n (goneTo ((b.ctx n).upc + 1) (fileOf b n))
  have hkeep : (!(ownGroups (fun x => x == lvlOf b n) b n).isEmpty) = true := by simp [hown]
  rw [hlvl, selected_releaseOwn] at honly
  rw [issueAs_selects h p hp]
  unfold act
  rw [dropTag_selected h.2]
  simp only [snap_lvl, word_snapOf, resumes_selected, cond_selected, hres, hcond, ownGroups_selected, hlong, hkeep, upc_snapOf, Bool.not_false,
    Bool.and_self, if_true]
  exact .of_agree (agree_goto_selected (file_releaseOwn.trans (stepOver_file b n _)) _) honly

end

/-- The row of a shift word's code issues it. -/
theorem exec_shift {e : EngId} {k : CtxId} {w : MWord} {i : Instr}
    (h : w.laneop = 4 ∧ i = .sho e k ∨ w.laneop = 5 ∧ i = .shi e k ∨ w.laneop = 6 ∧ i = .shx e k) (s : State) :
    ∃ p : MWord → Bool, p w = true ∧ exec i s = atTurn (turnOf i) (issueAs p (ctxNo e k)) s := by
  obtain ⟨hl, rfl⟩ | ⟨hl, rfl⟩ | ⟨hl, rfl⟩ := h
  · exact ⟨rowSho, by simp [rowSho, hl], rfl⟩
  · exact ⟨rowShi, by simp [rowShi, hl], rfl⟩
  · exact ⟨rowShx, by simp [rowShx, hl], rfl⟩

theorem isLong_of_shift {w : MWord} (h : w.laneop = 4 ∨ w.laneop = 5 ∨ w.laneop = 6) : w.isLong = true := by
  obtain h | h | h := h
  all_goals simp [MWord.isLong, MWord.isShift, h]

/-- Settles O24: a fresh start, a resumption on and without the group, and a replaced word under a false condition. -/
theorem shiftWordsRequestOrResumeTheirPinGroup : Obligations.ShiftWordsRequestOrResumeTheirPinGroup := by
  unfold Obligations.ShiftWordsRequestOrResumeTheirPinGroup
  refine ⟨fun s e k w i h halu hm hx hseq hrow => ?issues, fun s e k w i h hrow => ?replaced⟩
  case issues =>
    obtain ⟨p, hp, hexec⟩ := exec_shift hrow s
    have hl : w.laneop = 4 ∨ w.laneop = 5 ∨ w.laneop = 6 := hrow.imp And.left (Or.imp And.left And.left)
    have ha : ShiftAlone w := ⟨hl, halu, hm, hx, hseq⟩
    have hbits := longCount_shift (b := s.blk) (n := ctxNo e k) ha
    intro n l g bits b done request
    have hdone : progDone (progress l (fileOf s.blk n)) = done := by rw [progDone, BitVec.extractLsb'_toNat, Nat.shiftRight_zero]
    refine ⟨fun hres => ?_, fun hres hheld => ?_, fun hres hheld => ?_⟩
    · have heff := wordEffect_fresh h ha hres p hp
      rw [mkProg_fresh ha, shiftReq, hbits] at heff
      exact gives_of_exec hexec heff
    · have heff := wordEffect_goesOn h ha hres hheld p hp
      rw [hbits, hdone] at heff
      exact gives_of_exec hexec heff
    · refine gives_of_exec hexec ?_
      split
      · next hle => exact wordEffect_ends h ha hres hheld (by rwa [hbits, hdone]) p hp
      · next hlt =>
        have heff := wordEffect_asksAgain h ha hres hheld (by rwa [hbits, hdone]) p hp
        rw [shiftReq, hbits, hdone] at heff
        exact heff
  case replaced =>
    obtain ⟨p, hp, hexec⟩ := exec_shift hrow s
    intro n l b hcond hres hown
    exact gives_of_exec hexec (onlyFile_gives_up h (isLong_of_shift (hrow.imp And.left (Or.imp And.left And.left))) hcond hres hown p hp)

end Sys2Proof.Machine

/-! The WAITs of a cluster complete one after another, and none touches a context that is in no WAIT (R50). -/

namespace Sys2Proof.Machine
open Sys2Proof

section
variable {b t v : Block} {n m : CtxNo}

/-! ### What a WAIT's source reads -/

/-- A source reads its context, its engine and its cluster. -/
theorem source_congr (hctx : t.ctx m = v.ctx m) (heng : t.eng (engOf m) = v.eng (engOf m))
    (hclu : t.clu (cluOf (engOf m)) = v.clu (cluOf (engOf m))) (c : Ctx) (lq : BitVec 4) (src : BitVec 6) :
    source t m c lq src = source v m c lq src := by
  simp only [source, Block.lanes, Block.timer, hctx, heng, hclu]

theorem settle_eq {src : BitVec 6} {lq : BitVec 4} {dl : Option Nat} {tg : CsAddr} (hact : (b.ctx m).act = .wait src lq dl tg) :
    settle m b = if source b m (fileOf b m) lq src then b.setFile m (lvlOf b m) (waitOver src (fileOf b m)) else b := by
  cases hsrc : source b m (fileOf b m) lq src
  · unfold settle
    simp only [hact, hsrc, Bool.false_eq_true, if_false]
  · exact settle_true hact hsrc

/-- A context that does not wait on a source does not settle. -/
theorem settle_cases (m : CtxNo) (b : Block) :
    (∃ src lq dl tg, (b.ctx m).act = .wait src lq dl tg) ∨ ∀ t : Block, t.ctx m = b.ctx m → settle m t = t := by
  cases hact : (b.ctx m).act with
  | wait src lq dl tg => exact .inl ⟨src, lq, dl, tg, rfl⟩
  | _ => exact .inr fun t ht => settle_of_not_wait (by rw [ht, hact]; rfl)

/-! ### Blocks that agree settle alike -/

theorem Agree.setFile (h : Agree t v) (n : CtxNo) (l : Lvl) (c : Ctx) : Agree (t.setFile n l c) (v.setFile n l c) := by
  unfold Block.setFile
  dsimp only
  rw [h.2.1 n]
  exact (h.modEng _ _).setCtx _ _

theorem Agree.settle (h : Agree t v) (m : CtxNo) : Agree (settle m t) (settle m v) := by
  obtain ⟨hframe, hctx, heng⟩ := id h
  have hclu : ∀ x, t.clu x = v.clu x := fun x => by rw [hframe]; rfl
  have hfile : ∀ l, t.file m l = v.file m l := fun l => file_congr (hctx m) (heng _) l
  obtain ⟨src, lq, dl, tg, hact⟩ | hstay := settle_cases m v
  · rw [settle_eq hact, settle_eq ((congrArg Ctx.act (hctx m)).trans hact)]
    simp only [lvlOf, fileOf, hctx, hfile, source_congr (hctx m) (heng _) (hclu _)]
    split
    · exact h.setFile ..
    · exact h
  · rw [hstay v rfl, hstay t (hctx m)]
    exact h

/-! ### An idle context among the contexts that settle -/

theorem setFile_setCtx (hne : m ≠ n) (b : Block) (l : Lvl) (c d : Ctx) : Agree ((b.setCtx n d).setFile m l c) ((b.setFile m l c).setCtx n d) := by
  refine ⟨rfl, fun x => ?_, fun _ => rfl⟩
  rw [ctx_setFile, ctx_setCtx, ctx_setCtx, ctx_setCtx, ctx_setFile, if_neg hne]
  by_cases hx : x = m
  · rw [if_pos hx, if_neg fun hn => hne (hx.symm.trans hn), if_pos hx]
  · rw [if_neg hx, if_neg hx]

theorem agree_settle_setCtx (hne : m ≠ n) (b : Block) (d : Ctx) : Agree (settle m (b.setCtx n d)) ((settle m b).setCtx n d) := by
  have hctx : (b.setCtx n d).ctx m = b.ctx m := by rw [ctx_setCtx, if_neg hne]
  obtain ⟨src, lq, dl, tg, hact⟩ | hstay := settle_cases m b
  · have hfile : ∀ l, (b.setCtx n d).file m l = b.file m l := fun l => file_congr hctx rfl l
    rw [settle_eq hact, settle_eq ((congrArg Ctx.act hctx).trans hact)]
    simp only [lvlOf, fileOf, hctx, hfile, source_congr (t := b.setCtx n d) hctx rfl rfl]
    split
    · exact setFile_setCtx hne ..
    · exact .refl _
  · rw [hstay b rfl, hstay _ hctx]
    exact .refl _

theorem act_settle_of_idle (h : (b.ctx n).act = .idle) (m : CtxNo) : ((settle m b).ctx n).act = .idle := by
  by_cases hm : n = m
  · rw [← hm, settle_of_idle h, h]
  · rw [ctx_settle_ne hm, h]

/-- An idle context may go on before or after another one settles. -/
theorem agree_settle_goto (h : (b.ctx n).act = .idle) (a : CsAddr) (m : CtxNo) : Agree (settle m (goto n a b)) (goto n a (settle m b)) := by
  by_cases hm : m = n
  · subst hm
    rw [settle_of_idle h, settle_of_idle]
    · exact .refl _
    · rw [goto, modCtx_eq, ctx_setCtx_same]
  · rw [goto, goto, modCtx_eq, modCtx_eq, ctx_settle_ne (Ne.symm hm)]
    exact agree_settle_setCtx hm _ _

theorem agree_settleClu_goto (h : (b.ctx n).act = .idle) (a : CsAddr) (c : CluId) :
    Agree (settleClu c (goto n a b)) (goto n a (settleClu c b)) := by
  have hall : ∀ (ls : List Nat) (t b : Block), (b.ctx n).act = .idle → Agree t (goto n a b) →
      Agree (ls.foldl (fun s i => settle (c ++ BitVec.ofNat 7 i : BitVec 13) s) t)
        (goto n a (ls.foldl (fun s i => settle (c ++ BitVec.ofNat 7 i : BitVec 13) s) b)) := by
    intro ls
    induction ls with
    | nil => exact fun _ _ _ h => h
    | cons i ls ih => exact fun t b hidle h => ih _ _ (act_settle_of_idle hidle _) ((h.settle _).trans (agree_settle_goto hidle a _))
  exact hall _ _ b h (.refl _)

/-! ### STAT.EARLY of a context that settles nothing -/

theorem stat_file (b : Block) (n : CtxNo) (l : Lvl) : (b.file n l).stat = if l = .prog then (b.ctx n).stat else ((b.eng (engOf n)).bank l).stat := by
  cases l <;> rfl

theorem stat_bank_unviewEng (g : Eng) (c : Ctx) {l x : Lvl} (hx : x ≠ .prog) :
    ((unviewEng g c l).bank x).stat = if x = l then c.stat else (g.bank x).stat := by
  cases l
  · rw [if_neg hx]
    rfl
  · cases x
    · exact absurd rfl hx
    · rfl
    · rfl
  · cases x
    · exact absurd rfl hx
    · rfl
    · rfl

/-- Another context's file leaves a bit of STAT that it keeps itself. -/
theorem stat_setFile_ne (hne : n ≠ m) {l x : Lvl} {c : Ctx} {i : Nat} (hc : c.stat.getLsbD i = (b.file m l).stat.getLsbD i) :
    ((b.setFile m l c).file n x).stat.getLsbD i = (b.file n x).stat.getLsbD i := by
  rw [stat_file, stat_file, ctx_setFile, if_neg hne, eng_setFile]
  split
  · rfl
  · next hx =>
    split
    · next he =>
      rw [stat_bank_unviewEng _ _ hx, he]
      split
      · next hl =>
        rw [hc, stat_file, if_neg (hl ▸ hx), hl]
      · rfl
    · rfl

theorem early_settle (h : (b.ctx n).act = .idle) (l : Lvl) (m : CtxNo) :
    ((settle m b).file n l).stat.getLsbD 5 = (b.file n l).stat.getLsbD 5 := by
  obtain ⟨src, lq, dl, tg, hact⟩ | hstay := settle_cases m b
  · have hne : n ≠ m := fun hn => by rw [← hn, h] at hact; exact nomatch hact
    rw [settle_eq hact]
    split
    · exact stat_setFile_ne hne (getLsbD_putBit _ _ _ _ (by decide))
    · rfl
  · rw [hstay b rfl]

theorem early_settleClu (h : (b.ctx n).act = .idle) (l : Lvl) (c : CluId) :
    ((settleClu c b).file n l).stat.getLsbD 5 = (b.file n l).stat.getLsbD 5 := by
  have hkeeps := times_induction (f := fun i t => settle (c ++ BitVec.ofNat 7 i : BitVec 13) t) (a := b) (n := 128)
    (fun _ t => (t.ctx n).act = .idle ∧ (t.file n l).stat.getLsbD 5 = (b.file n l).stat.getLsbD 5) ⟨h, rfl⟩
    fun i t _ ht => ⟨act_settle_of_idle ht.1 _, (early_settle ht.1 l _).trans ht.2⟩
  exact hkeeps.2

/-- EARLY set once more is as it was. -/
theorem agree_modFile_early {l : Lvl} (h : (b.file n l).stat.getLsbD 5 = true) :
    Agree (b.modFile n l (fun c => { c with stat := putBit c.stat 5 true })) b := by
  have hsame : putBit (b.file n l).stat 5 true = (b.file n l).stat := by rw [← h, putBit_getLsbD]
  rw [Block.modFile, hsame]
  exact agree_setFile_file b n l

end
end Sys2Proof.Machine

/-! PUSH, POP, PEEK, QFLUSH, OUT, OEN, IN, CAPARM and RESETPROG (R110, R259, R262, R263, R277, R279). -/

namespace Sys2Proof.Machine
open Sys2Proof

section
variable {b : Block} {n : CtxNo} {w : MWord} {s : Snap}

/-! ### The issue of a lane word -/

theorem issueAs_lane (h : Issues b n w) (ha : LaneAlone w) (hshift : w.isShift = false) (p : MWord → Bool) (hp : p w = true) :
    issueAs p n b = goto n ((b.ctx n).upc + 1) (wStage n (snapOf b n w none false) (selected b n)) := by
  obtain ⟨-, hm, -, hseq⟩ := ha
  have hlong : w.isLong = false := by rw [MWord.isLong, hshift, MWord.isLongMem, hm]; rfl
  rw [issueAs_issues h p hp (by rw [hseq]; decide)]
  unfold perform
  simp only [word_snapOf, hlong, hseq]
  rw [seqApply_next (s := snapOf b n w none false) hseq, upc_snapOf]
  rfl

/-- The file of a word that has seen EARLY shows it. -/
theorem early_readFile (h : seesEarly b n w = true) : (readFile b n w).stat.getLsbD 5 = true := by
  have hstat : (readFile b n w).stat = putBit (fileOf b n).stat 5 ((fileOf b n).stat.getLsbD 5 || seesEarly b n w) := rfl
  rw [hstat, h, Bool.or_true, getLsbD_putBit _ _ _ _ (by decide), if_pos rfl]

/-- A lane word that writes no more than its lanes and its file, and after which no WAIT completes. -/
theorem issueAs_lane_plain (h : Issues b n w) (ha : LaneAlone w) (hshift : w.isShift = false) (p : MWord → Bool) (hp : p w = true)
    {B : Block} {c : Ctx} (hB : B.ctx n = (selected b n).ctx n) (hc : c.shadow = (fileOf b n).shadow)
    (hearly : seesEarly b n w = true → c.stat.getLsbD 5 = true)
    (hext : wExternal n (snapOf b n w none false) (quieted b n w) = B.setFile n (lvlOf b n) (stepOver c)) :
    issueAs p n b = B.setFile n (lvlOf b n) (goneTo ((b.ctx n).upc + 1) c) := by
  have hfor : FileFor (B.ctx n) (lvlOf b n) (stepOver c) := by
    rw [hB]
    exact fileFor_selected b n _ _ hc
  rw [issueAs_lane h ha hshift p hp, wStage_lane ha, hext]
  split
  · next he =>
    have hsame : { stepOver c with stat := putBit (stepOver c).stat 5 true } = stepOver c := by
      have hstat : putBit (stepOver c).stat 5 true = c.stat := by rw [← hearly he]; exact putBit_getLsbD _ _
      rw [hstat]
      rfl
    rw [modFile_setFile _ _ _ _ _ hfor, hsame, goto_setFile]
    rfl
  · rw [goto_setFile]
    rfl

/-- A lane word after which the WAITs of its cluster complete: they might as well once it has gone on. -/
theorem issueAs_lane_settles (h : Issues b n w) (ha : LaneAlone w) (hshift : w.isShift = false) (p : MWord → Bool) (hp : p w = true)
    {B : Block} {c : Ctx} (hB : B.ctx n = (selected b n).ctx n) (hc : c.shadow = (fileOf b n).shadow) (hact : c.act = .idle)
    (hearly : seesEarly b n w = true → c.stat.getLsbD 5 = true)
    (hext : wExternal n (snapOf b n w none false) (quieted b n w) =
      settleClu (cluOf (engOf n)) (B.setFile n (lvlOf b n) (stepOver c))) :
    Agree (issueAs p n b) (settleClu (cluOf (engOf n)) (B.setFile n (lvlOf b n) (goneTo ((b.ctx n).upc + 1) c))) := by
  have hfor : FileFor (B.ctx n) (lvlOf b n) (stepOver c) := by
    rw [hB]
    exact fileFor_selected b n _ _ hc
  have hidle : ((B.setFile n (lvlOf b n) (stepOver c)).ctx n).act = .idle := by
    rw [ctx_setFile, if_pos rfl, ← hact]
    cases lvlOf b n
    · rfl
    · rfl
    · rfl
  have hgone : goto n ((b.ctx n).upc + 1) (B.setFile n (lvlOf b n) (stepOver c)) =
      B.setFile n (lvlOf b n) (goneTo ((b.ctx n).upc + 1) c) := goto_setFile ..
  have hstage : Agree (wStage n (snapOf b n w none false) (selected b n))
      (settleClu (cluOf (engOf n)) (B.setFile n (lvlOf b n) (stepOver c))) := by
    rw [wStage_lane ha, hext]
    split
    · next he =>
      refine agree_modFile_early ?_
      rw [early_settleClu hidle, file_setFile _ _ _ _ hfor]
      exact hearly he
    · exact .refl _
  rw [issueAs_lane h ha hshift p hp, ← hgone]
  exact (hstage.modCtx n _).trans (agree_settleClu_goto hidle _ _).symm

end
end Sys2Proof.Machine

/-! Each lane operation's lanes and file, and the statement about all of them. -/

namespace Sys2Proof.Machine
open Sys2Proof

/-! ### A change of a word's lanes -/

theorem writeDst_act (p : Bool) (c : Ctx) (o : BitVec 6) (v : Word) : (writeDst p c o v).act = c.act := by
  unfold writeDst
  split
  · rfl
  · rfl
  · split <;> rfl
  · rfl

theorem act_file (b : Block) (n : CtxNo) (l : Lvl) : (b.file n l).act = (b.ctx n).act := by cases l <;> rfl

section
variable {b t : Block} {n : CtxNo} {w : MWord} {c : Ctx} {fe : Eng → Eng} {q : Nat}

/-- Of a change of the cluster, its value at the present cluster counts. -/
theorem WordEffect.of_clu {f g : Clu → Clu} (h : WordEffect b t n c fe f q) (hfg : f (b.clu (cluOf (engOf n))) = g (b.clu (cluOf (engOf n)))) :
    WordEffect b t n c fe g q := by
  obtain ⟨hframe, hctx, heng, hclu⟩ := h
  refine ⟨hframe, hctx, heng, fun x => (hclu x).trans ?_⟩
  split
  · next hx => rw [hx, hfg]
  · rfl

/-- The lanes changed before the file. -/
abbrev laned (b : Block) (n : CtxNo) (f : Lanes → Lanes) : Block := (selected b n).modLanes (cluOf (engOf n)) f

theorem ctx_laned (f : Lanes → Lanes) : (laned b n f).ctx n = (selected b n).ctx n := by rw [laned, Block.modLanes, modClu_eq, ctx_setClu]

theorem quieted_modLanes (f : Lanes → Lanes) :
    (quieted b n w).modLanes (cluOf (engOf n)) f = (laned b n f).setFile n (lvlOf b n) (stepOver (readFile b n w)) := by
  rw [quieted, setFile_modLanes]

theorem wordEffect_laned (b : Block) (n : CtxNo) (f : Lanes → Lanes) (c : Ctx) :
    WordEffect b ((laned b n f).setFile n (lvlOf b n) c) n c (fun g => g) (fun v => { v with lanes := f v.lanes }) 0 :=
  wordEffect_modClu b n c (fun v => { v with lanes := f v.lanes })

theorem act_readFile (h : Selects b n w) : (readFile b n w).act = .idle := by
  have hact : (readFile b n w).act = (fileOf b n).act := rfl
  rw [hact, act_file, act_idle_of_selects h]

/-! ### The detection of a queue fault (R263, R440) -/

theorem detect_eq {B : Block} (himp : B.imp = b.imp) (htick : B.tick = b.tick) (hnow : B.now = b.now) (src code : Nat) (info : BitVec 24) :
    detect src code info B = { B with imp := (detect src code info b).imp } := by
  simp only [detect, himp, htick, hnow]

/-- A detection is recorded, and changes nothing else of the selection. -/
theorem selected_detect (src code : Nat) (info : BitVec 24) (b : Block) (n : CtxNo) :
    selected (detect src code info b) n = { selected b n with imp := (detect src code info b).imp } := by
  have hself : detect src code info b = withClus b.clus (detect src code info b).imp b := detect_eq rfl rfl rfl ..
  exact (congrArg (fun B => selected B n) hself).trans (selected_withClus fun _ => rfl)

theorem lvlOf_detect (src code : Nat) (info : BitVec 24) : lvlOf (detect src code info b) n = lvlOf b n := by
  have hctx : (detect src code info b).ctx n = b.ctx n := rfl
  rw [lvlOf, hctx]

/-- A detection behind a change of the lanes and the file. -/
theorem detect_setFile (B : Block) (m : CtxNo) (l : Lvl) (c : Ctx) (src code : Nat) (info : BitVec 24) :
    detect src code info (B.setFile m l c) = (detect src code info B).setFile m l c := rfl

theorem detect_modLanes (B : Block) (x : CluId) (f : Lanes → Lanes) (src code : Nat) (info : BitVec 24) :
    detect src code info (B.modLanes x f) = (detect src code info B).modLanes x f := rfl

/-- QFAULT, with the record of the block as it was before the word. -/
theorem qfault_quieted (lq : BitVec 4) : qfault (cluOf (engOf n)) lq (quieted b n w) =
    (laned (detect (0x440 + (cluOf (engOf n)).toNat) 1 (lq.setWidth 24) b) n (fun l => { l with qfault := l.qfault.set b.now })).setFile n
      (lvlOf b n) (stepOver (readFile b n w)) := by
  have himp : (selected b n).imp = b.imp := rfl
  have hnow := now_selected b n
  rw [qfault, now_quieted, quieted_modLanes, detect_setFile, laned, detect_modLanes, detect_eq (b := b) himp (tick_selected b n) hnow, laned,
    selected_detect]

/-! ### The operations (R262, R263) -/

theorem lanes_quieted (c : CluId) : (quieted b n w).lanes c = b.lanes c := by rw [Block.lanes, clu_quieted, Block.lanes]

theorem pushQ_room (v : Word) (h : ((b.lanes (cluOf (engOf n))).queue w.lq).entries.length < (b.lanes (cluOf (engOf n))).depth w.lq) :
    pushQ (cluOf (engOf n)) w.lq v (quieted b n w) = (laned b n (fun l => l.setQueue w.lq { l.queue w.lq with
      entries := (l.queue w.lq).entries ++ [v] })).setFile n (lvlOf b n) (stepOver (readFile b n w)) := by
  have hfull : (b.lanes (cluOf (engOf n))).full w.lq = false := by rw [Lanes.full, decide_eq_false (by omega)]
  rw [pushQ, lanes_quieted, hfull, quieted_modLanes]
  rfl

theorem pushQ_full (v : Word) (h : (b.lanes (cluOf (engOf n))).depth w.lq ≤ ((b.lanes (cluOf (engOf n))).queue w.lq).entries.length) :
    pushQ (cluOf (engOf n)) w.lq v (quieted b n w) = qfault (cluOf (engOf n)) w.lq (quieted b n w) := by
  have hfull : (b.lanes (cluOf (engOf n))).full w.lq = true := decide_eq_true h
  rw [pushQ, lanes_quieted, hfull]
  rfl

theorem popQ_head {v : Word} {rest : List Word} (h : ((b.lanes (cluOf (engOf n))).queue w.lq).entries = v :: rest) :
    popQ (cluOf (engOf n)) w.lq (quieted b n w) = (laned b n (fun l => unblock (l.setQueue w.lq { l.queue w.lq with
      entries := (l.queue w.lq).entries.tail }) w.lq)).setFile n (lvlOf b n) (stepOver (readFile b n w)) := by
  have hempty : (b.lanes (cluOf (engOf n))).empty w.lq = false := by rw [Lanes.empty, h]; rfl
  rw [popQ, lanes_quieted, hempty, quieted_modLanes]
  rfl

theorem popQ_empty (h : ((b.lanes (cluOf (engOf n))).queue w.lq).entries = []) :
    popQ (cluOf (engOf n)) w.lq (quieted b n w) = qfault (cluOf (engOf n)) w.lq (quieted b n w) := by
  have hempty : (b.lanes (cluOf (engOf n))).empty w.lq = true := by rw [Lanes.empty, h]; rfl
  rw [popQ, lanes_quieted, hempty]
  rfl

theorem flushQ_quieted : flushQ (cluOf (engOf n)) w.lq (quieted b n w) =
    (laned b n (fun l => l.setQueue w.lq {})).setFile n (lvlOf b n) (stepOver (readFile b n w)) := quieted_modLanes _

/-- The value that goes to DST joins the file. -/
theorem dstWritten_setFile {B : Block} (hB : B.ctx n = (selected b n).ctx n) (hearly : earlyRead w = false) (v : Word) :
    dstWritten n (snapOf b n w none false) (some v) (B.setFile n (lvlOf b n) (stepOver (readFile b n w))) =
      B.setFile n (lvlOf b n) (stepOver (writeDst (statPriv (readFile b n w).stat) (readFile b n w) w.dst v)) := by
  have hpriv : (snapOf b n w none false).priv = statPriv (readFile b n w).stat := by
    rw [readFile_of_not_early hearly]
    exact Bool.or_false _
  have hfor : FileFor (B.ctx n) (lvlOf b n) (stepOver (readFile b n w)) := by
    rw [hB]
    exact fileFor_selected b n _ _ rfl
  unfold dstWritten
  rw [Option.elim_some, snap_lvl, modFile_setFile _ _ _ _ _ hfor, hpriv, word_snapOf, stepOver_writeDst]

end
end Sys2Proof.Machine

/-! The statement about the lane operations. -/

namespace Sys2Proof.Machine
open Sys2Proof

section
variable {n : CtxNo} {s : Snap}

/-! ### The effects outside the context, by code -/

theorem wExternal_push (ha : LaneAlone s.w) (hl : s.w.laneop = 1) (B : Block) :
    wExternal n s B = settleClu (cluOf (engOf n)) (pushQ (cluOf (engOf n)) s.w.lq s.b B) := by
  simp only [wExternal_lane ha, laneAct, hl]
  rfl

theorem wExternal_pop (ha : LaneAlone s.w) (hl : s.w.laneop = 2) (B : Block) : wExternal n s B =
    settleClu (cluOf (engOf n)) (dstWritten n s (headQ B (cluOf (engOf n)) s.w.lq) (popQ (cluOf (engOf n)) s.w.lq B)) := by
  simp only [wExternal_lane ha, laneAct, laneGet, hl]
  rfl

theorem wExternal_peek (ha : LaneAlone s.w) (hl : s.w.laneop = 3) (B : Block) (h : (B.lanes (cluOf (engOf n))).empty s.w.lq = false) :
    wExternal n s B = dstWritten n s (headQ B (cluOf (engOf n)) s.w.lq) B := by
  simp only [wExternal_lane ha, laneAct, laneGet, hl, h]
  rfl

theorem wExternal_out (ha : LaneAlone s.w) (hl : s.w.laneop = 7) (B : Block) : wExternal n s B =
    B.modLanes (cluOf (engOf n)) (fun l => { l with out := under (s.w.imm48.extractLsb' 0 16) l.out (s.b.extractLsb' 0 16) }) := by
  simp only [wExternal_lane ha, laneAct, hl]
  rfl

theorem wExternal_oen (ha : LaneAlone s.w) (hl : s.w.laneop = 8) (B : Block) : wExternal n s B =
    B.modLanes (cluOf (engOf n)) (fun l => { l with oen := under (s.w.imm48.extractLsb' 0 16) l.oen (s.b.extractLsb' 0 16) }) := by
  simp only [wExternal_lane ha, laneAct, hl]
  rfl

theorem wExternal_in (ha : LaneAlone s.w) (hl : s.w.laneop = 9) (B : Block) :
    wExternal n s B = dstWritten n s (some ((B.lanes (cluOf (engOf n))).levels.setWidth 48)) B := by
  simp only [wExternal_lane ha, laneAct, laneGet, hl]
  rfl

theorem wExternal_resetprog (ha : LaneAlone s.w) (hl : s.w.laneop = 10) (B : Block) : wExternal n s B = resetProg n s B := by
  simp only [wExternal_lane ha, laneAct, hl]
  rfl

theorem wExternal_qflush (ha : LaneAlone s.w) (hl : s.w.laneop = 11) (B : Block) :
    wExternal n s B = settleClu (cluOf (engOf n)) (flushQ (cluOf (engOf n)) s.w.lq B) := by
  simp only [wExternal_lane ha, laneAct, hl]
  rfl

theorem wExternal_caparm (ha : LaneAlone s.w) (hl : s.w.laneop = 12) (B : Block) : wExternal n s B =
    B.modPg (cluOf (engOf n)) (shiftGroup s.w) (fun p => { p with armed := true, capOwner := ((B.ctx n).chan).getD 0 }) := by
  simp only [wExternal_lane ha, laneAct, hl]
  rfl

end

/-! ### The words -/

section
variable {b : Block} {n : CtxNo} {w : MWord}

theorem dstWritten_none (s : Snap) (B : Block) : dstWritten n s none B = B := rfl

/-- A word that leaves its lanes and its file, and after which the WAITs of its cluster complete. -/
def SettlesTo (b0 b t : Block) (n : CtxNo) (f : Lanes → Lanes) (c : Ctx) : Prop :=
  ∃ u, WordEffect b0 u n (goneTo ((b.ctx n).upc + 1) c) (fun g => g) (fun v => { v with lanes := f v.lanes }) 0 ∧
    Agree t (settleClu (cluOf (engOf n)) u)

theorem settlesTo_of_wExternal (h : Issues b n w) (ha : LaneAlone w) (hshift : w.isShift = false) (p : MWord → Bool) (hp : p w = true)
    {b0 : Block} {f : Lanes → Lanes} {c : Ctx} (hctx : (selected b0 n).ctx n = (selected b n).ctx n) (hlvl : lvlOf b0 n = lvlOf b n)
    (hc : c.shadow = (fileOf b n).shadow) (hact : c.act = .idle) (hearly : seesEarly b n w = true → c.stat.getLsbD 5 = true)
    (hext : wExternal n (snapOf b n w none false) (quieted b n w) =
      settleClu (cluOf (engOf n)) ((laned b0 n f).setFile n (lvlOf b n) (stepOver c))) :
    SettlesTo b0 b (issueAs p n b) n f c := by
  have heff := wordEffect_laned b0 n f (goneTo ((b.ctx n).upc + 1) c)
  rw [hlvl] at heff
  exact ⟨_, heff, issueAs_lane_settles h ha hshift p hp ((ctx_laned f).trans hctx) hc hact hearly hext⟩

/-- A queue fault (R263). -/
theorem settlesTo_qfault (h : Issues b n w) (ha : LaneAlone w) (hshift : w.isShift = false) (p : MWord → Bool) (hp : p w = true)
    (hext : wExternal n (snapOf b n w none false) (quieted b n w) =
      settleClu (cluOf (engOf n)) (qfault (cluOf (engOf n)) w.lq (quieted b n w))) :
    SettlesTo (detect (0x440 + (cluOf (engOf n)).toNat) 1 (w.lq.setWidth 24) b) b (issueAs p n b) n
      (fun l => { l with qfault := l.qfault.set b.now }) (readFile b n w) := by
  have hctx : ∀ src code info, (selected (detect src code info b) n).ctx n = (selected b n).ctx n := fun src code info => by
    have hsame : (detect src code info b).ctx n = b.ctx n := rfl
    rw [ctx_selected, ctx_selected, hsame]
  rw [qfault_quieted] at hext
  exact settlesTo_of_wExternal h ha hshift p hp (hctx _ _ _) (lvlOf_detect ..) rfl (act_readFile h.1) early_readFile hext

theorem not_isShift_of {k : BitVec 5} (hl : w.laneop = k) (hk : ¬ (4 ≤ k.toNat ∧ k.toNat ≤ 6)) : w.isShift = false := by
  rw [MWord.isShift, hl]
  exact decide_eq_false hk

theorem not_early_of {k : BitVec 5} (ha : LaneAlone w) (hl : w.laneop = k) (hk : (k == 1 || k == 7 || k == 8) = false) : earlyRead w = false :=
  earlyRead_lane ha (by rw [hl, hk])

theorem not_sees {b : Block} (h : earlyRead w = false) : ¬ seesEarly b n w = true := by
  rw [seesEarly, h, Bool.false_and]
  exact Bool.false_ne_true

theorem srcB_snapOf : (snapOf b n w none false).b = srcB b n w := rfl

/-- PUSH into a queue with room (R262). -/
theorem settlesTo_push (h : Issues b n w) (ha : LaneAlone w) (hl : w.laneop = 1)
    (hroom : ((b.lanes (cluOf (engOf n))).queue w.lq).entries.length < (b.lanes (cluOf (engOf n))).depth w.lq) :
    SettlesTo b b (issueAs rowPush n b) n
      (fun l => l.setQueue w.lq { l.queue w.lq with entries := (l.queue w.lq).entries ++ [srcB b n w] }) (readFile b n w) := by
  refine settlesTo_of_wExternal h ha (not_isShift_of hl (by decide)) rowPush (by rw [rowPush, hl]; rfl) rfl rfl rfl (act_readFile h.1)
    early_readFile ?_
  rw [wExternal_push (s := snapOf b n w none false) ha hl, word_snapOf, srcB_snapOf, pushQ_room _ hroom]

theorem settlesTo_push_full (h : Issues b n w) (ha : LaneAlone w) (hl : w.laneop = 1)
    (hfull : (b.lanes (cluOf (engOf n))).depth w.lq ≤ ((b.lanes (cluOf (engOf n))).queue w.lq).entries.length) :
    SettlesTo (detect (0x440 + (cluOf (engOf n)).toNat) 1 (w.lq.setWidth 24) b) b (issueAs rowPush n b) n
      (fun l => { l with qfault := l.qfault.set b.now }) (readFile b n w) := by
  refine settlesTo_qfault h ha (not_isShift_of hl (by decide)) rowPush (by rw [rowPush, hl]; rfl) ?_
  rw [wExternal_push (s := snapOf b n w none false) ha hl, word_snapOf, pushQ_full _ hfull]

/-- POP of a queue that holds an entry (R262). -/
theorem settlesTo_pop (h : Issues b n w) (ha : LaneAlone w) (hl : w.laneop = 2) {v : Word} {rest : List Word}
    (hq : ((b.lanes (cluOf (engOf n))).queue w.lq).entries = v :: rest) :
    SettlesTo b b (issueAs rowPop n b) n
      (fun l => unblock (l.setQueue w.lq { l.queue w.lq with entries := (l.queue w.lq).entries.tail }) w.lq)
      (writeDst (statPriv (readFile b n w).stat) (readFile b n w) w.dst v) := by
  have hearly := not_early_of ha hl rfl
  have hhead : headQ (quieted b n w) (cluOf (engOf n)) w.lq = some v := by rw [headQ, lanes_quieted, hq]; rfl
  refine settlesTo_of_wExternal h ha (not_isShift_of hl (by decide)) rowPop (by rw [rowPop, hl]; rfl) rfl rfl (writeDst_shadow ..)
    ((writeDst_act ..).trans (act_readFile h.1)) (fun he => absurd he (not_sees hearly)) ?_
  rw [wExternal_pop (s := snapOf b n w none false) ha hl, word_snapOf, hhead, popQ_head hq, dstWritten_setFile (ctx_laned _) hearly]

theorem settlesTo_pop_empty (h : Issues b n w) (ha : LaneAlone w) (hl : w.laneop = 2)
    (hq : ((b.lanes (cluOf (engOf n))).queue w.lq).entries = []) :
    SettlesTo (detect (0x440 + (cluOf (engOf n)).toNat) 1 (w.lq.setWidth 24) b) b (issueAs rowPop n b) n
      (fun l => { l with qfault := l.qfault.set b.now }) (readFile b n w) := by
  have hhead : headQ (quieted b n w) (cluOf (engOf n)) w.lq = none := by rw [headQ, lanes_quieted, hq]; rfl
  refine settlesTo_qfault h ha (not_isShift_of hl (by decide)) rowPop (by rw [rowPop, hl]; rfl) ?_
  rw [wExternal_pop (s := snapOf b n w none false) ha hl, word_snapOf, hhead, popQ_empty hq, dstWritten_none]

/-- QFLUSH (R262). -/
theorem settlesTo_qflush (h : Issues b n w) (ha : LaneAlone w) (hl : w.laneop = 0x0B) :
    SettlesTo b b (issueAs rowQflush n b) n (fun l => l.setQueue w.lq {}) (readFile b n w) := by
  refine settlesTo_of_wExternal h ha (not_isShift_of hl (by decide)) rowQflush (by rw [rowQflush, hl]; rfl) rfl rfl rfl (act_readFile h.1)
    early_readFile ?_
  rw [wExternal_qflush (s := snapOf b n w none false) ha hl, word_snapOf, flushQ_quieted]

/-- A word that changes its lanes, after which no WAIT completes. -/
theorem wordEffect_lanes (h : Issues b n w) (ha : LaneAlone w) (hshift : w.isShift = false) (p : MWord → Bool) (hp : p w = true)
    {f : Lanes → Lanes} (hext : wExternal n (snapOf b n w none false) (quieted b n w) = (quieted b n w).modLanes (cluOf (engOf n)) f) :
    WordEffect b (issueAs p n b) n (goneTo ((b.ctx n).upc + 1) (readFile b n w)) (fun g => g) (fun v => { v with lanes := f v.lanes }) 0 := by
  rw [quieted_modLanes] at hext
  rw [issueAs_lane_plain (c := readFile b n w) h ha hshift p hp (ctx_laned f) rfl early_readFile hext]
  exact wordEffect_laned ..

/-- A word that supplies a value for DST from lanes that it leaves. -/
theorem onlyFile_dst (h : Issues b n w) (ha : LaneAlone w) (hshift : w.isShift = false) (p : MWord → Bool) (hp : p w = true)
    (hearly : earlyRead w = false) {v : Word}
    (hext : wExternal n (snapOf b n w none false) (quieted b n w) = dstWritten n (snapOf b n w none false) (some v) (quieted b n w)) :
    OnlyFile b (issueAs p n b) n
      (goneTo ((b.ctx n).upc + 1) (writeDst (statPriv (readFile b n w).stat) (readFile b n w) w.dst v)) := by
  have hshadow : (writeDst (statPriv (readFile b n w).stat) (readFile b n w) w.dst v).shadow = (fileOf b n).shadow := writeDst_shadow ..
  rw [quieted, dstWritten_setFile rfl hearly] at hext
  rw [issueAs_lane_plain (B := selected b n) h ha hshift p hp rfl hshadow (fun he => absurd he (not_sees hearly)) hext]
  exact onlyFile_setFile ..

theorem onlyFile_peek (h : Issues b n w) (ha : LaneAlone w) (hl : w.laneop = 3) {v : Word} {rest : List Word}
    (hq : ((b.lanes (cluOf (engOf n))).queue w.lq).entries = v :: rest) : OnlyFile b (issueAs rowPeek n b) n
      (goneTo ((b.ctx n).upc + 1) (writeDst (statPriv (readFile b n w).stat) (readFile b n w) w.dst v)) := by
  have hhead : headQ (quieted b n w) (cluOf (engOf n)) w.lq = some v := by rw [headQ, lanes_quieted, hq]; rfl
  have hsome : ((quieted b n w).lanes (cluOf (engOf n))).empty w.lq = false := by rw [Lanes.empty, lanes_quieted, hq]; rfl
  refine onlyFile_dst h ha (not_isShift_of hl (by decide)) rowPeek (by rw [rowPeek, hl]; rfl) (not_early_of ha hl rfl) ?_
  rw [wExternal_peek (s := snapOf b n w none false) ha hl _ hsome, word_snapOf, hhead]

theorem onlyFile_in (h : Issues b n w) (ha : LaneAlone w) (hl : w.laneop = 9) : OnlyFile b (issueAs rowInW n b) n
    (goneTo ((b.ctx n).upc + 1) (writeDst (statPriv (readFile b n w).stat) (readFile b n w) w.dst
      ((b.lanes (cluOf (engOf n))).levels.setWidth 48))) := by
  refine onlyFile_dst h ha (not_isShift_of hl (by decide)) rowInW (by rw [rowInW, hl]; rfl) (not_early_of ha hl rfl) ?_
  rw [wExternal_in (s := snapOf b n w none false) ha hl, lanes_quieted]

theorem wordEffect_out (h : Issues b n w) (ha : LaneAlone w) (hl : w.laneop = 7) :
    WordEffect b (issueAs rowOut n b) n (goneTo ((b.ctx n).upc + 1) (readFile b n w)) (fun g => g) (fun v => { v with
      lanes := { v.lanes with out := under (w.imm48.extractLsb' 0 16) v.lanes.out ((srcB b n w).extractLsb' 0 16) } }) 0 :=
  wordEffect_lanes h ha (not_isShift_of hl (by decide)) rowOut (by rw [rowOut, hl]; rfl) (wExternal_out (s := snapOf b n w none false) ha hl _)

theorem wordEffect_oen (h : Issues b n w) (ha : LaneAlone w) (hl : w.laneop = 8) :
    WordEffect b (issueAs rowOen n b) n (goneTo ((b.ctx n).upc + 1) (readFile b n w)) (fun g => g) (fun v => { v with
      lanes := { v.lanes with oen := under (w.imm48.extractLsb' 0 16) v.lanes.oen ((srcB b n w).extractLsb' 0 16) } }) 0 :=
  wordEffect_lanes h ha (not_isShift_of hl (by decide)) rowOen (by rw [rowOen, hl]; rfl) (wExternal_oen (s := snapOf b n w none false) ha hl _)

theorem chan_quieted : ((quieted b n w).ctx n).chan = (b.ctx n).chan := by
  have hview : ∀ (c v : Ctx) (l : Lvl), (unviewCtx c v l).chan = v.chan := fun _ _ l => by cases l <;> rfl
  have hfile : ∀ l, (b.file n l).chan = (b.ctx n).chan := fun l => by cases l <;> rfl
  rw [quieted, ctx_setFile, if_pos rfl, hview]
  exact hfile _

/-- CAPARM arms the capture of its group for the context's channel (R279). -/
theorem wordEffect_caparm (h : Issues b n w) (ha : LaneAlone w) (hl : w.laneop = 0x0C) :
    WordEffect b (issueAs rowCaparm n b) n (goneTo ((b.ctx n).upc + 1) (readFile b n w)) (fun g => g) (fun v => { v with
      lanes := v.lanes.modPg (shiftGroup w) (fun p => { p with armed := true, capOwner := ((b.ctx n).chan).getD 0 }) }) 0 := by
  refine wordEffect_lanes (f := fun l => l.modPg (shiftGroup w) (fun p => { p with armed := true, capOwner := ((b.ctx n).chan).getD 0 })) h ha
    (not_isShift_of hl (by decide)) rowCaparm (by rw [rowCaparm, hl]; rfl) ?_
  rw [wExternal_caparm (s := snapOf b n w none false) ha hl, chan_quieted, word_snapOf, Block.modPg]

/-- What PROG shows of a shift word (R136, R277). -/
theorem prog_quieted : ((quieted b n w).file n (lvlOf b n)).prog = (readFile b n w).prog := by
  have hfor := fileFor_selected b n (lvlOf b n) (stepOver (readFile b n w)) rfl
  rw [quieted, file_setFile _ _ _ _ hfor]
  rfl

/-- RESETPROG where PROG shows a shift word (R277). -/
theorem resetprog_shift (h : Issues b n w) (ha : LaneAlone w) (hl : w.laneop = 0x0A)
    (hprog : progActive (readFile b n w).prog = true ∧ 0x44 ≤ (progOp (readFile b n w).prog).toNat ∧
      (progOp (readFile b n w).prog).toNat ≤ 0x46) :
    WordEffect (releaseOwn (fun x => x == (lvlOf b n).below) n b) (issueAs rowResetprog n b) n
      (goneTo ((b.ctx n).upc + 1) { readFile b n w with prog := 0 }) (fun g => g) (fun v => v) 0 := by
  have hshows : (progActive (readFile b n w).prog &&
      decide (0x44 ≤ (progOp (readFile b n w).prog).toNat ∧ (progOp (readFile b n w).prog).toNat ≤ 0x46)) = true := by
    rw [hprog.1, Bool.true_and]
    exact decide_eq_true hprog.2
  have hreset : resetProg n (snapOf b n w none false) (quieted b n w) =
      (releaseOwn (fun x => x == (lvlOf b n).below) n (selected b n)).setFile n (lvlOf b n)
        (stepOver { readFile b n w with prog := 0 }) := by
    unfold resetProg
    simp only [snap_lvl, prog_quieted, hshows, if_true]
    exact modFile_released_quieted _ _
  have hlvl : lvlOf (releaseOwn (fun x => x == (lvlOf b n).below) n b) n = lvlOf b n := congrArg Ctx.lvl (ctx_releaseOwn n)
  have honly := onlyFile_setFile (releaseOwn (fun x => x == (lvlOf b n).below) n b) n
    (goneTo ((b.ctx n).upc + 1) { readFile b n w with prog := 0 })
  rw [hlvl, selected_releaseOwn] at honly
  rw [issueAs_lane_plain (c := { readFile b n w with prog := 0 }) h ha (not_isShift_of hl (by decide)) rowResetprog
    (by rw [rowResetprog, hl]; rfl) (ctx_releaseOwn n) rfl early_readFile
    ((wExternal_resetprog (s := snapOf b n w none false) ha hl _).trans hreset)]
  exact .of_onlyFile honly rfl

/-- RESETPROG without one does nothing (R277). -/
theorem resetprog_none (h : Issues b n w) (ha : LaneAlone w) (hl : w.laneop = 0x0A)
    (hprog : ¬ (progActive (readFile b n w).prog = true ∧ 0x44 ≤ (progOp (readFile b n w).prog).toNat ∧
      (progOp (readFile b n w).prog).toNat ≤ 0x46)) :
    OnlyFile b (issueAs rowResetprog n b) n (goneTo ((b.ctx n).upc + 1) (readFile b n w)) := by
  have hshows : (progActive (readFile b n w).prog &&
      decide (0x44 ≤ (progOp (readFile b n w).prog).toNat ∧ (progOp (readFile b n w).prog).toNat ≤ 0x46)) = false := by
    rw [Bool.eq_false_iff, ne_eq, Bool.and_eq_true, decide_eq_true_eq]
    exact hprog
  have hreset : resetProg n (snapOf b n w none false) (quieted b n w) = quieted b n w := by
    unfold resetProg
    simp only [snap_lvl, prog_quieted, hshows, Bool.false_eq_true, if_false]
  rw [issueAs_lane_plain (B := selected b n) (c := readFile b n w) h ha (not_isShift_of hl (by decide)) rowResetprog
    (by rw [rowResetprog, hl]; rfl) rfl rfl early_readFile
    ((wExternal_resetprog (s := snapOf b n w none false) ha hl _).trans hreset)]
  exact onlyFile_setFile ..

end

/-- The lanes of a word's cluster count as they stand before it. -/
theorem SettlesTo.of_lanes {b0 b t : Block} {n : CtxNo} {f g : Lanes → Lanes} {c : Ctx} (h : SettlesTo b0 b t n f c)
    (hclu : b0.lanes (cluOf (engOf n)) = b.lanes (cluOf (engOf n))) (hfg : f (b.lanes (cluOf (engOf n))) = g (b.lanes (cluOf (engOf n)))) :
    SettlesTo b0 b t n g c := by
  obtain ⟨u, heff, hagree⟩ := h
  have hlanes : (b0.clu (cluOf (engOf n))).lanes = b.lanes (cluOf (engOf n)) := hclu
  refine ⟨u, heff.of_clu ?_, hagree⟩
  simp only [hlanes, hfg]

/-- Settles O23: the words after which WAITs complete (`SettlesTo`), those of the lanes alone, those that only supply DST, and RESETPROG. -/
theorem laneWordsActOnTheirQueueOrLanes : Obligations.LaneWordsActOnTheirQueueOrLanes := by
  unfold Obligations.LaneWordsActOnTheirQueueOrLanes
  intro s e k w h ha n l q c priv m b next Lanes' Faults Plain
  have he : engOf n = e := engOf_ctxNo e k
  have hlanes : ∀ (i : Instr) (c : Ctx) (f : Lanes → Lanes) (p : MWord → Bool), exec i s = atTurn (turnOf i) (issueAs p n) s →
      SettlesTo s.blk s.blk (issueAs p n s.blk) n f c → Lanes' i c f := by
    intro i c f p hexec hset
    refine gives_of_exec hexec ?_
    rwa [SettlesTo, he] at hset
  have hfaults : ∀ (i : Instr) (p : MWord → Bool), exec i s = atTurn (turnOf i) (issueAs p n) s →
      SettlesTo (detect (0x440 + (cluOf (engOf n)).toNat) 1 (w.lq.setWidth 24) s.blk) s.blk (issueAs p n s.blk) n
        (fun l => { l with qfault := l.qfault.set s.blk.now }) c → Faults i := by
    intro i p hexec hset
    refine gives_of_exec hexec ?_
    rwa [SettlesTo, he] at hset
  have hl : s.blk.lanes (cluOf (engOf n)) = l := by rw [he]
  refine ⟨fun hop hroom => ?push, fun hop hfull => ?pushFull, fun v rest hop hq => ?pop, fun hop hq => ?popEmpty, fun v rest hop hq => ?peek,
    fun hop => ?out, fun hop => ?oen, fun hop => ?in_, fun hop => ?resetprog, fun hop => ?qflush, fun hop => ?caparm⟩
  case push =>
    refine hlanes (.push e k) c (fun l => l.setQueue w.lq { q with entries := q.entries ++ [b] }) rowPush rfl
      (.of_lanes (settlesTo_push h ha hop (by rwa [hl])) rfl ?_)
    rw [hl]
  case pushFull => exact hfaults _ rowPush rfl (settlesTo_push_full h ha hop (by rwa [hl]))
  case pop =>
    refine hlanes (.pop e k) (writeDst priv c w.dst v) (fun l => unblock (l.setQueue w.lq { q with entries := rest }) w.lq) rowPop rfl
      (.of_lanes (settlesTo_pop h ha hop (rest := rest) (by rwa [hl])) rfl ?_)
    have htail : (l.queue w.lq).entries.tail = rest := by rw [show (l.queue w.lq).entries = v :: rest from hq, List.tail_cons]
    rw [hl, htail]
  case popEmpty => exact hfaults _ rowPop rfl (settlesTo_pop_empty h ha hop (by rwa [hl]))
  case peek => exact gives_of_exec rfl (onlyFile_peek h ha hop (rest := rest) (by rwa [hl]))
  case out => exact gives_of_exec rfl (wordEffect_out h ha hop)
  case oen => exact gives_of_exec rfl (wordEffect_oen h ha hop)
  case in_ =>
    have heff := onlyFile_in h ha hop
    rw [hl] at heff
    exact gives_of_exec rfl heff
  case resetprog =>
    refine gives_of_exec rfl ?_
    split
    · next hprog => exact resetprog_shift h ha hop hprog
    · next hprog => exact resetprog_none h ha hop hprog
  case qflush => exact hlanes _ _ _ rowQflush rfl (settlesTo_qflush h ha hop)
  case caparm => exact gives_of_exec rfl (wordEffect_caparm h ha hop)

end Sys2Proof.Machine

/-! The operations that clip their result (R119). -/

namespace Sys2Proof.Machine
open Sys2Proof

/-- The clipped value is the one nearest to the exact result, and differs from it outside the signed range alone. -/
theorem clip_eq (i : Int) : clip i = (nearest i, !fits 48 i) := by
  have hfits : fits 48 i = decide (-(2 ^ 47) ≤ i ∧ i < 2 ^ 47) := rfl
  unfold clip nearest
  rw [hfits]
  split
  · next hhigh =>
    rw [min_eq_right (by omega), max_eq_right (by norm_num), decide_eq_false (by omega)]
    rfl
  · next hhigh =>
    rw [min_eq_left (by omega)]
    split
    · next hlow =>
      rw [max_eq_left (by omega), decide_eq_false (by omega)]
      rfl
    · next hlow =>
      rw [max_eq_right (by omega), decide_eq_true (by omega)]
      rfl

theorem resClip_eq (i : Int) (c : Bool) : resClip (clip i) c = res48 (nearest i) c (!fits 48 i) (!fits 48 i) := by
  rw [clip_eq]
  rfl

theorem neg_if_neg_eq_abs (i : Int) : (if i < 0 then -i else i) = |i| := by
  split
  · next h => rw [abs_of_neg h]
  · next h => rw [abs_of_nonneg (not_lt.1 h)]

/-- Settles O5: each operation clips its exact result (`resClip_eq`). -/
theorem saturatingOperationsClipToTheWordRange : Obligations.SaturatingOperationsClipToTheWordRange := by
  unfold Obligations.SaturatingOperationsClipToTheWordRange
  refine ⟨?adds, ?subs, ?negs, ?abss, ?asat⟩
  case adds =>
    refine dstRow_of rowAddsSubsNegsAbss (fun _ _ _ => rfl) (by simp +contextual [rowAddsSubsNegsAbss]) (by decide) fun x => ?_
    have hcarry := congrArg (fun r => r.2.1) (addc_false x.a x.b)
    exact (congrArg (resClip _) hcarry).trans (resClip_eq ..)
  case subs =>
    refine dstRow_of rowAddsSubsNegsAbss (fun _ _ _ => rfl) (by simp +contextual [rowAddsSubsNegsAbss]) (by decide) fun x => ?_
    have hborrow := congrArg (fun r => r.2.1) (subb_false x.a x.b)
    exact (congrArg (resClip _) hborrow).trans (resClip_eq ..)
  case negs =>
    exact dstRow_of rowAddsSubsNegsAbss (fun _ _ _ => rfl) (by simp +contextual [rowAddsSubsNegsAbss]) (by decide) fun x => resClip_eq ..
  case abss =>
    refine dstRow_of rowAddsSubsNegsAbss (fun _ _ _ => rfl) (by simp +contextual [rowAddsSubsNegsAbss]) (by decide) fun x => ?_
    rw [← neg_if_neg_eq_abs]
    exact resClip_eq ..
  case asat =>
    exact dstRow_of rowAsat (fun _ _ _ => rfl) (by simp +contextual [rowAsat]) (by decide) fun x => resClip_eq ..

end Sys2Proof.Machine

/-! Multiplies and divides: the words that start them, and what lands (R121, R124..R129). -/

namespace Sys2Proof.Machine
open Sys2Proof

/-! ### The words that start a unit -/

/-- The codes of the multiplies and the divides (R104). -/
abbrev UnitOp (op : BitVec 7) : Prop := 0x40 ≤ op.toNat ∧ op.toNat ≤ 0x46

/-- Such a code sets no flag, and writes DST at most as an accumulator, later (R87, R117, R126). -/
theorem unit_codes : ∀ op : BitVec 7, UnitOp op →
    aluFlags op = false ∧ (aluAccDst op = true ∨ aluWritesDst op = false) ∧ (op.extractLsb' 4 3 == 7) = false := by decide

theorem alu_unit {op : BitVec 7} (h : UnitOp op) (x a b accA accD c) : alu op x a b accA accD c = {} := by
  have hcodes : ∀ op : BitVec 7, UnitOp op → op = 0x40 ∨ op = 0x41 ∨ op = 0x42 ∨ op = 0x43 ∨ op = 0x44 ∨ op = 0x45 ∨ op = 0x46 := by decide
  obtain rfl | rfl | rfl | rfl | rfl | rfl | rfl := hcodes op h
  all_goals rfl

/-- The word holds a multiply or a divide, and SEQ NEXT. -/
abbrev UnitAlone (w : MWord) : Prop := AluAlone w ∧ UnitOp w.aluop

section
variable {b : Block} {n : CtxNo} {s : Snap}

theorem wRegs_unit (ha : UnitAlone s.w) : wRegs b n s = b.file n s.lvl := by
  obtain ⟨⟨hm, -, hx, -⟩, hop⟩ := ha
  obtain ⟨hflags, hplace, -⟩ := unit_codes _ hop
  have hmem : s.w.isMem = false := by simp [MWord.isMem, hm]
  have hval : aluOf b n s = {} := alu_unit hop ..
  have hget : xferGets 0 = false := rfl
  have hdest (c : Ctx) (v : Option Word) : (if aluAccDst s.w.aluop then c
      else if (aluWritesDst s.w.aluop && !s.w.isAfx) = true then (match v with
        | some v => writeDst s.priv c s.w.dst v
        | none => c)
      else c) = c := by
    obtain hacc | hdst := hplace
    · rw [if_pos hacc]
    · rw [hdst, Bool.false_and, if_neg Bool.false_ne_true, ite_self]
  unfold wRegs
  simp only [hval, hflags, hmem, hx, hget, setReg16_reg16, putBit_getLsbD, Bool.and_false, Bool.false_and, Bool.or_false, Bool.false_eq_true, if_false]
  exact hdest ..

/-- The file that such a word leaves, but for the multiply that it starts. -/
def unitFile (b : Block) (n : CtxNo) (s : Snap) : Ctx := earlied (seesEarly b n s.w) (b.file n s.lvl)

theorem wExternal_unit (ha : UnitAlone s.w) (B : Block) : wExternal n s B = B := by
  obtain ⟨⟨hm, hl, hx, -⟩, hop⟩ := ha
  have hafx : s.w.isAfx = false := (unit_codes _ hop).2.2
  have hreq : requestOf s = none := by simp [requestOf, hafx, MWord.isLongMem, MWord.isMem, hm]
  unfold wExternal
  simp [hreq, hm, hl, hx, laneWritesDst, laneAct_none hl, wordCmps, MWord.isMem]

/-- The file of a word that starts a multiply. -/
def mulFile (m : Mul) (c : Ctx) : Ctx := { c with muls := c.muls ++ [m] }

/-- The engine whose divider a word claims. -/
def claimsDivider (d : Divide) (g : Eng) : Eng := { g with div := some d }

/-- The divide of a word. -/
def divideOf (n : CtxNo) (s : Snap) : Divide :=
  { k := ctxOf n, a := s.a, b := s.b, sgn := s.w.aluop == 0x42, lvl := s.lvl, fupc := s.upc, inj := s.inj.isSome }

/-- The word's own effects are its file and the multiply that it starts (R124, R126). -/
theorem wInternal_mul (ha : UnitAlone s.w) {m : Mul} (hm : mulOf s = some m) (hdiv : s.w.isDiv = false) :
    wInternal n s b = (b.setFile n s.lvl (unitFile b n s)).modCtx n (mulFile m) := by
  have hflags := (unit_codes _ ha.2).1
  have hx : ¬ s.w.xfer = 0x0B := by rw [ha.1.2.2.1]; decide
  unfold wInternal
  simp only [wRegs_unit ha, hflags, hx, hm, hdiv, Bool.and_false, Bool.false_and, Bool.false_eq_true, if_false]
  rfl

/-- The word's own effects are its file and the divider that it claims (R127). -/
theorem wInternal_div (ha : UnitAlone s.w) (hm : mulOf s = none) (hdiv : s.w.isDiv = true) :
    wInternal n s b = (b.setFile n s.lvl (unitFile b n s)).modEng (engOf n) (claimsDivider (divideOf n s)) := by
  have hflags := (unit_codes _ ha.2).1
  have hx : ¬ s.w.xfer = 0x0B := by rw [ha.1.2.2.1]; decide
  unfold wInternal
  simp only [wRegs_unit ha, hflags, hx, hm, hdiv, Bool.and_false, Bool.false_and, Bool.false_eq_true, if_false, if_true]
  rfl

/-- EARLY set once more is as it was. -/
theorem modFile_early {B : Block} {l : Lvl} {v : Ctx} (hfor : FileFor (B.ctx n) l v) {early : Bool} (hv : early = true → v.stat.getLsbD 5 = true) :
    (if early then (B.setFile n l v).modFile n l (fun c => { c with stat := putBit c.stat 5 true }) else B.setFile n l v) = B.setFile n l v := by
  split
  · next he =>
    have hstat : putBit v.stat 5 true = v.stat := by rw [← hv he, putBit_getLsbD]
    rw [modFile_setFile _ _ _ _ _ hfor, hstat]
  · rfl

theorem early_unitFile (h : seesEarly b n s.w = true) : (unitFile b n s).stat.getLsbD 5 = true := by
  simp only [unitFile, earlied, h, Bool.or_true, getLsbD_putBit _ _ _ _ (show 5 < 48 by decide), if_true]

theorem wStage_mul (ha : UnitAlone s.w) {m : Mul} (hm : mulOf s = some m) (hdiv : s.w.isDiv = false) :
    wStage n s b = b.setFile n s.lvl (mulFile m (unitFile b n s)) := by
  have hin : wInternal n s b = b.setFile n s.lvl (mulFile m (unitFile b n s)) := by
    rw [wInternal_mul ha hm hdiv]
    exact modCtx_setFile b n s.lvl _ _ (by cases s.lvl <;> intros <;> rfl) (by cases s.lvl <;> intros <;> rfl)
  unfold wStage
  rw [hin, wExternal_unit ha]
  exact modFile_early (fileFor_of_shadow b n s.lvl rfl) (v := mulFile m (unitFile b n s)) (early_unitFile (b := b) (n := n) (s := s))

theorem wStage_div (ha : UnitAlone s.w) (hm : mulOf s = none) (hdiv : s.w.isDiv = true) :
    wStage n s b = (b.modEng (engOf n) (claimsDivider (divideOf n s))).setFile n s.lvl (unitFile b n s) := by
  have hin : wInternal n s b = (b.modEng (engOf n) (claimsDivider (divideOf n s))).setFile n s.lvl (unitFile b n s) := by
    rw [wInternal_div ha hm hdiv]
    exact modEng_setFile b n s.lvl (unitFile b n s) (claimsDivider (divideOf n s)) (by cases s.lvl <;> intros <;> rfl)
  unfold wStage
  rw [hin, wExternal_unit ha]
  refine modFile_early ?_ early_unitFile
  rw [modEng_eq, ctx_setEng]
  exact fileFor_of_shadow b n s.lvl rfl

end

section
variable {b : Block} {n : CtxNo} {w : MWord}

theorem unitFile_selected (w : MWord) : unitFile (selected b n) n (snapOf b n w none false) = stepOver (readFile b n w) := by
  rw [unitFile, word_snapOf, seesEarly_selected, snap_lvl, stepOver_file]
  rfl

/-- A multiply joins those that its context has in flight, and no register changes (R124, R126). -/
theorem onlyFile_mul (h : Issues b n w) (ha : UnitAlone w) {m : Mul} (hm : mulOf (snapOf b n w none false) = some m) (hdiv : w.isDiv = false)
    (p : MWord → Bool) (hp : p w = true) :
    OnlyFile b (issueAs p n b) n (goneTo ((b.ctx n).upc + 1) (mulFile m (readFile b n w))) := by
  rw [issueAs_next h (isLong_of_slots ha.1.1 ha.1.2.1) ha.1.2.2.2 p hp (wStage_mul (s := snapOf b n w none false) ha hm hdiv), unitFile_selected]
  exact onlyFile_setFile ..

/-- A divide claims its engine's divider with its operands (R127). -/
theorem wordEffect_div (h : Issues b n w) (ha : UnitAlone w) (hm : mulOf (snapOf b n w none false) = none) (hdiv : w.isDiv = true)
    (p : MWord → Bool) (hp : p w = true) :
    WordEffect b (issueAs p n b) n (goneTo ((b.ctx n).upc + 1) (readFile b n w)) (claimsDivider (divideOf n (snapOf b n w none false)))
      (fun v => v) 0 := by
  rw [issueAs_next h (isLong_of_slots ha.1.1 ha.1.2.1) ha.1.2.2.2 p hp (wStage_div (s := snapOf b n w none false) ha hm hdiv), unitFile_selected]
  exact wordEffect_modEng ..

/-- A row whose word starts the multiply `m`. -/
theorem gives_mul {i : Instr} {s : State} {op : BitVec 7} {m : Mul} (p : MWord → Bool) (hexec : exec i s = atTurn (turnOf i) (issueAs p n) s)
    (h : Issues s.blk n w) (ha : AluAlone w) (hop : w.aluop = op) (hunit : UnitOp op ∧ op ≠ 0x42 ∧ op ≠ 0x43) (hp : p w = true)
    (hm : mulOf (snapOf s.blk n w none false) = some m) :
    Gives i s (fun t => OnlyFile s.blk t n (goneTo ((s.blk.ctx n).upc + 1) (mulFile m (readFile s.blk n w)))) := by
  have hdiv : w.isDiv = false := by simpa [MWord.isDiv, hop] using hunit.2
  exact gives_of_exec hexec (onlyFile_mul h ⟨ha, hop ▸ hunit.1⟩ hm hdiv p hp)

end

/-! ### Products and terms (R124, R126) -/

/-- A product of two signed words fits 95 bits. -/
theorem abs_product_le (a b : Word) : |a.toInt * b.toInt| ≤ 2 ^ 94 := by
  have habs : ∀ x : Word, |x.toInt| ≤ 2 ^ 47 := fun x => abs_le.2 ⟨x.le_toInt, x.toInt_lt.le⟩
  calc |a.toInt * b.toInt| = |a.toInt| * |b.toInt| := abs_mul ..
    _ ≤ 2 ^ 47 * 2 ^ 47 := mul_le_mul (habs a) (habs b) (abs_nonneg _) (by norm_num)
    _ = 2 ^ 94 := by norm_num

theorem signExtend_product (a b : Word) : (product true a b).signExtend 104 = BitVec.ofInt 104 (a.toInt * b.toInt) := by
  have hbound := abs_le.1 (abs_product_le a b)
  have hfits : ∀ w : Nat, 96 ≤ w → (BitVec.ofInt w (a.toInt * b.toInt)).toInt = a.toInt * b.toInt := fun w hw => by
    have hpow : (2 : Int) ^ 95 ≤ 2 ^ (w - 1) := pow_le_pow_right₀ (by norm_num) (by omega)
    exact BitVec.toInt_ofInt_eq_self (by omega) (by omega) (by omega)
  apply BitVec.eq_of_toInt_eq
  rw [BitVec.toInt_signExtend_of_le (by decide), hfits 104 (by decide)]
  exact hfits 96 (by decide)

theorem setWidth_product (a b : Word) : (product false a b).setWidth 104 = BitVec.ofNat 104 (a.toNat * b.toNat) := by
  have hbound : a.toNat * b.toNat < 2 ^ 96 := by
    calc a.toNat * b.toNat < 2 ^ 48 * 2 ^ 48 := Nat.mul_lt_mul'' a.isLt b.isLt
      _ = 2 ^ 96 := by norm_num
  apply BitVec.eq_of_toNat_eq
  rw [BitVec.toNat_setWidth, BitVec.toNat_ofNat, product, if_neg Bool.false_ne_true, BitVec.toNat_ofNat, Nat.mod_eq_of_lt hbound]

/-! ### What lands (R121, R124, R126..R129) -/

theorem opMulProductWrite_eq {b : Block} {n : CtxNo} {p : BitVec 96} {rest : List Mul} (h : (b.ctx n).muls = .prod p :: rest) :
    opMulProductWrite n b = settle n (b.setCtx n
      { b.ctx n with mph := BitVec.ofNat 48 (p.toNat / 2 ^ 48), mpl := BitVec.ofNat 48 p.toNat, muls := rest }) := by
  have hhigh : p.extractLsb' 48 48 = BitVec.ofNat 48 (p.toNat / 2 ^ 48) := by
    rw [BitVec.extractLsb', Nat.shiftRight_eq_div_pow]
  unfold opMulProductWrite
  simp only [h, hhigh, modCtx_eq]
  rfl

theorem opMacAccumulate_eq {b : Block} {n : CtxNo} {i : BitVec 2} {p : Acc} {rest : List Mul} (h : (b.ctx n).muls = .mac i p :: rest) :
    opMacAccumulate n b = settle n (b.setCtx n
      { b.ctx n with acc := setAcc4 (b.ctx n).acc i (acc4 (b.ctx n).acc i + p), muls := rest }) := by
  unfold opMacAccumulate
  simp only [h, modCtx_eq]

/-- The registers in which a divide lands (R121, R128). -/
def dividedFile (d : Divide) (c : Ctx) : Ctx :=
  if d.b = 0 then { c with
    dvq := if !d.sgn then 0xFFFFFFFFFFFF else if d.a.toInt < 0 then 0x800000000000 else 0x7FFFFFFFFFFF
    dvr := d.a, stat := putBit c.stat 4 true }
  else if d.sgn then { c with
    dvq := BitVec.ofInt 48 (d.a.toInt.tdiv d.b.toInt), dvr := BitVec.ofInt 48 (d.a.toInt.tmod d.b.toInt)
    stat := if d.a = 0x800000000000 ∧ d.b = 0xFFFFFFFFFFFF then putBit c.stat 3 true else c.stat }
  else { c with dvq := BitVec.ofNat 48 (d.a.toNat / d.b.toNat), dvr := BitVec.ofNat 48 (d.a.toNat % d.b.toNat) }

/-- STAT after a divide (R121, R129): V where the quotient wraps, and the sticky DZ. -/
def dividedStat (d : Divide) (st : Word) : Word :=
  putBit (if divWraps d.sgn d.a d.b then putBit st 3 true else st) 4 (st.getLsbD 4 || decide (d.b = 0))

theorem divide_zero {d : Divide} (h : d.b = 0) : divide d.sgn d.a d.b =
    (if !d.sgn then 0xFFFFFFFFFFFF else if d.a.toInt < 0 then 0x800000000000 else 0x7FFFFFFFFFFF, d.a) := by
  have hsign : d.a.getLsbD 47 = decide (d.a.toInt < 0) := by rw [← BitVec.msb_eq_toInt, BitVec.msb_eq_getLsbD_last]
  unfold divide
  rw [if_pos h, hsign]
  cases d.sgn
  · rfl
  · simp only [decide_eq_true_eq, Bool.not_true, Bool.false_eq_true, if_true, if_false]

theorem dividedStat_zero {d : Divide} (h : d.b = 0) (st : Word) : dividedStat d st = putBit st 4 true := by
  have hwraps : divWraps d.sgn d.a d.b = false := by rw [h, divWraps]; exact Bool.and_false _
  rw [dividedStat, hwraps, decide_eq_true h, Bool.or_true]
  rfl

/-- V and DZ are different bits of STAT (R43). -/
theorem dividedStat_nonzero {d : Divide} (h : d.b ≠ 0) (st : Word) :
    dividedStat d st = if d.sgn = true ∧ d.a = 0x800000000000 ∧ d.b = 0xFFFFFFFFFFFF then putBit st 3 true else st := by
  have hkeep : (putBit st 3 true).getLsbD 4 = st.getLsbD 4 := by rw [getLsbD_putBit _ _ _ _ (by decide)]; rfl
  have hwraps : divWraps d.sgn d.a d.b = decide (d.sgn = true ∧ d.a = 0x800000000000 ∧ d.b = 0xFFFFFFFFFFFF) := by
    simp [divWraps, minWord, Bool.and_assoc]
    rfl
  rw [dividedStat, hwraps, decide_eq_false h, Bool.or_false]
  simp only [decide_eq_true_eq]
  split
  · rw [← hkeep, putBit_getLsbD]
  · rw [putBit_getLsbD]

/-- What the divider writes is what R121 and R128 say. -/
theorem dividedFile_eq (d : Divide) (c : Ctx) :
    { c with dvq := (divide d.sgn d.a d.b).1, dvr := (divide d.sgn d.a d.b).2, stat := dividedStat d c.stat } = dividedFile d c := by
  unfold dividedFile
  split
  · next h => rw [divide_zero h, dividedStat_zero h]
  · next h =>
    rw [dividedStat_nonzero h, divide, if_neg h]
    cases d.sgn
    · rfl
    · simp only [true_and, if_true]

theorem dividedFile_shadow (d : Divide) (c : Ctx) : (dividedFile d c).shadow = c.shadow := by
  rw [← dividedFile_eq]

/-- The divide-by-zero trap (R129), precise where the word was injected. -/
def divideTrap (d : Divide) : Exc :=
  { code := 0x0B, kind := if d.inj then 0 else 2, sub := 0, fupc := d.fupc, einfo := d.a, lvl := d.lvl }

/-- A divide lands in its level's file, and a zero divisor traps under STAT.DZT (R127..R129). -/
theorem opDivideResult_eq {b : Block} {e : EngId} {d : Divide} (h : (b.eng e).div = some d) : let n := ctxNo e d.k
    let b' := b.setEng e { b.eng e with div := none }
    let c := b'.file n d.lvl
    let t := b'.setFile n d.lvl (dividedFile d c)
    opDivideResult e b = settle n (if d.b = 0 ∧ c.stat.getLsbD 18 then injErrIf d.inj e (pendExc n (divideTrap d) t) else t) := by
  intro n b' c t
  have hfor : FileFor (b'.ctx n) d.lvl (dividedFile d c) := fileFor_of_shadow b' n d.lvl (dividedFile_shadow d c)
  have hdzt : d.b = 0 → (dividedFile d c).stat.getLsbD 18 = c.stat.getLsbD 18 := fun hz => by
    rw [dividedFile, if_pos hz]
    exact (getLsbD_putBit _ _ _ _ (by decide)).trans (if_neg (by decide))
  have hlands : b'.modFile n d.lvl (fun c => { c with
      dvq := (divide d.sgn d.a d.b).1, dvr := (divide d.sgn d.a d.b).2, stat := dividedStat d c.stat }) = t := by
    rw [Block.modFile, dividedFile_eq]
  have hfile : t.file n d.lvl = dividedFile d c := file_setFile b' n d.lvl _ hfor
  have hstep : opDivideResult e b = settle n (if d.b = 0 ∧ (t.file n d.lvl).stat.getLsbD 18 then
      injErrIf d.inj e (pendExc n (divideTrap d) t) else t) := by
    rw [← hlands]
    unfold opDivideResult
    rw [h]
    rfl
  have hiff : (d.b = 0 ∧ (dividedFile d c).stat.getLsbD 18 = true) ↔ (d.b = 0 ∧ c.stat.getLsbD 18 = true) :=
    and_congr_right fun hz => by rw [hdzt hz]
  rw [hstep, hfile]
  simp only [hiff]

/-- Settles O8: the words by what they start (`gives_mul`, `wordEffect_div`), and the rows of the units by what lands. -/
theorem multipliesAndDividesStartAndDeliverTheirResult : Obligations.MultipliesAndDividesStartAndDeliverTheirResult := by
  unfold Obligations.MultipliesAndDividesStartAndDeliverTheirResult
  intro Start
  refine ⟨?mul, ?mulu, ?mac, ?macu, ?msu, ?div, ?product, ?accumulate, ?quotient⟩
  case mul =>
    intro s e k w h ha hop
    exact gives_mul rowMulMulu rfl h ha hop (by decide) (by simp [rowMulMulu, hop]) (by rw [mulOf, word_snapOf, hop]; rfl)
  case mulu =>
    intro s e k w h ha hop
    exact gives_mul rowMulMulu rfl h ha hop (by decide) (by simp [rowMulMulu, hop]) (by rw [mulOf, word_snapOf, hop]; rfl)
  case mac =>
    intro s e k w h ha hop
    refine gives_mul rowMacMacu rfl h ha hop (by decide) (by simp [rowMacMacu, hop]) ?_
    rw [mulOf, word_snapOf, hop]
    exact congrArg (fun v => some (Mul.mac _ v)) (signExtend_product ..)
  case macu =>
    intro s e k w h ha hop
    refine gives_mul rowMacMacu rfl h ha hop (by decide) (by simp [rowMacMacu, hop]) ?_
    rw [mulOf, word_snapOf, hop]
    exact congrArg (fun v => some (Mul.mac _ v)) (setWidth_product ..)
  case msu =>
    intro s e k w h ha hop
    refine gives_mul rowMsu rfl h ha hop (by decide) (by simp [rowMsu, hop]) ?_
    rw [mulOf, word_snapOf, hop]
    exact congrArg (fun v => some (Mul.mac _ v)) ((congrArg Neg.neg (signExtend_product ..)).trans BitVec.ofInt_neg.symm)
  case div =>
    intro s e k w h ha hop
    have hunit : UnitOp w.aluop := by obtain hop | hop := hop <;> rw [hop] <;> decide
    have hnone : mulOf (snapOf s.blk (ctxNo e k) w none false) = none := by
      obtain hop | hop := hop <;> rw [mulOf, word_snapOf, hop] <;> rfl
    have hdiv : w.isDiv = true := by obtain hop | hop := hop <;> simp [MWord.isDiv, hop]
    have heff := wordEffect_div h ⟨ha, hunit⟩ hnone hdiv rowDivDivu hdiv
    rw [divideOf, upc_snapOf] at heff
    exact gives_of_exec rfl heff
  case product =>
    intro s e k p rest h
    rw [← opMulProductWrite_eq h]
    exact does_of_exec rfl
  case accumulate =>
    intro s e k i p rest h
    rw [← opMacAccumulate_eq h]
    exact does_of_exec rfl
  case quotient =>
    intro s e d h n b c
    have hdoes : Does (.divideResult e) s (opDivideResult e s.blk) := does_of_exec rfl
    rw [opDivideResult_eq h] at hdoes
    refine Eq.mp (congrArg (Does _ s) (congrArg (settle n) ?_)) hdoes
    unfold dividedFile
    by_cases hz : d.b = 0
    · simp only [hz, true_and, if_true]
      rfl
    · simp only [hz, false_and, if_false]
      split <;> rfl

end Sys2Proof.Machine

/-! The issue of a long memory word: its selection, behind the tag that its context holds between two steps (R108, R134, R139). -/

namespace Sys2Proof.Machine
open Sys2Proof

/-! ### The selection reads no tag -/

/-- The engine with a tag free. -/
abbrev untagged (e : EngId) (t : BitVec 5) (b : Block) : Block := b.modEng e (fun g => g.setTag t none)

section
variable {b : Block} {n : CtxNo} {t : BitVec 5}

theorem file_untagged (l : Lvl) : (untagged (engOf n) t b).file n l = b.file n l := by
  rw [untagged, modEng_eq, Block.file, Block.file, ctx_setEng, eng_setEng_same]
  cases l <;> rfl

theorem inLoop_untagged (e m : EngId) (x : CsAddr) : inLoop ((untagged e t b).eng m) x = inLoop (b.eng m) x := by
  rw [untagged, modEng_eq, eng_setEng]
  split
  · next h => rw [h]; rfl
  · rfl

theorem storeAddr_untagged (e : EngId) (m : CtxNo) : storeAddr (untagged e t b) m = storeAddr b m := by
  unfold storeAddr
  dsimp only
  rw [inLoop_untagged]
  rfl

theorem csRivals_untagged (e : EngId) (x : CsAddr) : csRivals (untagged e t b) n x = csRivals b n x := by
  unfold csRivals
  simp only [storeAddr_untagged]
  rfl

theorem untagged_setEng (e : EngId) (g : Eng) (fr : Nat) (cr : Map (BitVec 3)) :
    untagged e t { b.setEng e g with free := fr, csRr := cr } = { b.setEng e (g.setTag t none) with free := fr, csRr := cr } := by
  have hg : ({ b.setEng e g with free := fr, csRr := cr } : Block).eng e = g := eng_setEng_same ..
  rw [untagged, modEng_eq, hg]
  exact setEng_setEng { b with free := fr, csRr := cr } e g (g.setTag t none)

theorem modEng_untagged (e : EngId) (f : Eng → Eng) : (untagged e t b).modEng e f = b.setEng e (f ((b.eng e).setTag t none)) := by
  rw [untagged, modEng_eq, modEng_eq, eng_setEng_same, setEng_setEng]

/-- The engine after the refusals of its fetch of `x` (R66). -/
def refusedEng (b : Block) (n : CtxNo) (x : CsAddr) : Eng :=
  let g := b.eng (engOf n)
  { g with csConf := g.csConf.count b.now (BitVec.ofNat 32 ((Config.fetchRefusals b.free).toNat % ((csRivals b n x).length + 1))) }

theorem storeFetch_untagged : storeFetch n (untagged (engOf n) t b) = untagged (engOf n) t (storeFetch n b) := by
  unfold storeFetch
  rw [storeAddr_untagged]
  split
  · rfl
  · next x hx =>
    dsimp only
    rw [csRivals_untagged]
    split
    · rfl
    · rw [modEng_untagged]
      exact (untagged_setEng (b := b) (t := t) (engOf n) (refusedEng b n x) (b.free + 1) (Map.set 7 b.csRr (csBank (engOf n) x) (engIn (engOf n)))).symm

theorem select_untagged : select n (untagged (engOf n) t b) = untagged (engOf n) t (select n b) := by
  have hhigh : highClass (untagged (engOf n) t b) n = highClass b n := by
    unfold highClass
    rw [file_untagged]
    rfl
  unfold select
  dsimp only
  rw [hhigh, ← storeFetch_untagged]
  simp only [untagged, modEng_eq, eng_setEng_same, setEng_setEng]
  rfl

theorem lbCapture_untagged (x : CsAddr) : lbCapture n x (untagged (engOf n) t b) = untagged (engOf n) t (lbCapture n x b) := by
  have hfetch : fetchP (untagged (engOf n) t b) (engOf n) x = fetchP b (engOf n) x := by
    unfold fetchP
    dsimp only
    rw [inLoop_untagged]
    simp only [untagged, modEng_eq, eng_setEng_same]
    rfl
  unfold lbCapture
  rw [hfetch]
  simp only [untagged, modEng_eq, eng_setEng_same, setEng_setEng]
  congr 1
  rw [apply_ite (fun g : Eng => g.setTag t none)]
  rfl

/-- A tag may be freed before the selection of its context or behind it. -/
theorem selected_untagged : selected (untagged (engOf n) t b) n = untagged (engOf n) t (selected b n) := by
  rw [← atIssueOf_eq, ← atIssueOf_eq, select_untagged, ← lbCapture_untagged]
  rfl

theorem dropTag_eq (n : CtxNo) (b : Block) : dropTag n b = b ∨ ∃ t, dropTag n b = untagged (engOf n) t b := by
  unfold dropTag
  split
  · exact .inr ⟨_, rfl⟩
  · exact .inl rfl

theorem dropTag_selected_eq : dropTag n (selected b n) = selected (dropTag n b) n := by
  have hact : ((selected b n).ctx n).act = (b.ctx n).act := by rw [ctx_selected]
  unfold dropTag
  rw [hact]
  split
  · exact selected_untagged.symm
  · rfl

theorem ctx_dropTag (m : CtxNo) : (dropTag n b).ctx m = b.ctx m := by
  obtain h | ⟨t, h⟩ := dropTag_eq n b
  · rw [h]
  · rw [h]; rfl

/-- The word reads the same operands. -/
theorem snapOf_dropTag (w : MWord) : snapOf (dropTag n b) n w none false = snapOf b n w none false := by
  obtain h | ⟨t, h⟩ := dropTag_eq n b
  · rw [h]
  · have hbank : ∀ l, ((untagged (engOf n) t b).eng (engOf n)).bank l = (b.eng (engOf n)).bank l := fun l => by
      rw [untagged, modEng_eq, eng_setEng_same]
      rfl
    rw [h]
    unfold snapOf
    dsimp only
    simp only [file_untagged, hbank]
    rfl

theorem unwatched_dropTag (h : ∀ x ∈ engCmps b (engOf n), x.2.watches (ctxOf n) = false) :
    ∀ x ∈ engCmps (dropTag n b) (engOf n), x.2.watches (ctxOf n) = false := by
  obtain hd | ⟨t, hd⟩ := dropTag_eq n b
  · rwa [hd]
  · rw [hd, engCmps_congr (b := untagged (engOf n) t b) (c := b) (by rw [untagged, modEng_eq, eng_setEng_same]; rfl) rfl]
    exact h

end

section
variable {b : Block} {n : CtxNo} {w : MWord}

theorem issueAs_fetches (h : Fetches b n w) (p : MWord → Bool) (hp : p w = true) :
    issueAs p n b = act n (snapOf b n w none false) (selected b n) := by
  obtain ⟨hcan, hupc, hword, hparity, hcmp⟩ := h
  have hwatch : matching (select n b) n [0] (b.ctx n).upc.toNat 1 = [] := matching_nil (by rw [engCmps_select]; exact hcmp) ..
  have hin : ¬ 0x21FF < (b.ctx n).upc.toNat := Nat.not_lt.2 hupc
  rw [← atIssueOf_eq]
  unfold issueAs
  simp [hcan, hin, hword, hparity, hp, hwatch, fire_nil]

/-- A word that its checks let pass performs in the block in which its context has dropped its tag. -/
theorem issueAs_dropped (h : Fetches b n w) (hcond : cond (dropTag n b) n (fileOf (dropTag n b) n) w = true)
    (hfault : wordFault (dropTag n b) n (snapOf (dropTag n b) n w none false) = none) (hat : w.seq ≠ 7) (p : MWord → Bool) (hp : p w = true) :
    issueAs p n b = perform n (snapOf (dropTag n b) n w none false) (selected (dropTag n b) n) := by
  rw [issueAs_fetches h p hp, ← snapOf_dropTag]
  unfold act
  rw [dropTag_selected_eq]
  simp only [snap_lvl, word_snapOf, cond_selected, hcond, wordFault_selected, hfault, hat, Bool.not_true, Bool.and_false, Bool.false_eq_true,
    if_false]

end

/-! ### The next step, or the end -/

/-- The word's next step leaves, or the instruction ends (R136, R137, R140). -/
def longGoes (n : CtxNo) (s : Snap) (B : Block) : Block :=
  if longCount s ≤ progDone (progress s.lvl (B.file n s.lvl)) then longEnd n s (scanEnds n s B)
  else stop n (.longStep s) (takeTag n s .long B)

/-- The file that SCAN without a match leaves, and the file of another word (R142). -/
def unmatched (s : Snap) (c : Ctx) : Ctx := if s.w.memop = 0x24 then writeDst s.priv c s.w.dst 0xFFFFFFFFFFFF else c

section
variable {n : CtxNo} {s : Snap}

theorem unmatched_stepOver (c : Ctx) : unmatched s (stepOver c) = stepOver (unmatched s c) := by
  unfold unmatched
  split
  · exact stepOver_writeDst ..
  · rfl

theorem setProgress_setProgress (l : Lvl) (c : Ctx) (u v : Word) : setProgress l (setProgress l c u) v = setProgress l c v := by
  unfold setProgress
  split <;> rfl

/-- What DST takes does not depend on the progress, and the end of the word overrides it. -/
theorem setProgress_writeDst (l : Lvl) (p : Bool) (c : Ctx) (o : BitVec 6) (v u x : Word) :
    setProgress l (writeDst p (setProgress l c u) o v) x = setProgress l (writeDst p c o v) x := by
  unfold setProgress writeDst
  split
  · split
    · rfl
    · rfl
    · split <;> rfl
    · rfl
  · split
    · rfl
    · rfl
    · split <;> rfl
    · rfl

theorem setProgress_unmatched (l : Lvl) (c : Ctx) (u x : Word) :
    setProgress l (unmatched s (setProgress l c u)) x = setProgress l (unmatched s c) x := by
  unfold unmatched
  split
  · exact setProgress_writeDst ..
  · exact setProgress_setProgress ..

/-- `B` is block `M` with `c` as the context's file of level `l`. -/
def HasFile (B M : Block) (n : CtxNo) (l : Lvl) (c : Ctx) : Prop :=
  FileFor (M.ctx n) l c ∧ ∀ f, B.modFile n l f = M.setFile n l (f c)

theorem hasFile_self (M : Block) (n : CtxNo) (l : Lvl) : HasFile M M n l (M.file n l) := ⟨fileFor_file M n l, fun _ => rfl⟩

theorem hasFile_setFile {M : Block} {l : Lvl} {c : Ctx} (h : FileFor (M.ctx n) l c) : HasFile (M.setFile n l c) M n l c :=
  ⟨h, fun f => modFile_setFile M n l c f h⟩

/-- Other words of the file are written over it. -/
theorem HasFile.modFile {B M : Block} {l : Lvl} {c : Ctx} (h : HasFile B M n l c) {f : Ctx → Ctx} (hf : (f c).shadow = c.shadow) :
    HasFile (B.modFile n l f) M n l (f c) := by
  obtain ⟨hfor, hmod⟩ := h
  rw [hmod]
  refine hasFile_setFile ?_
  unfold FileFor at *
  rwa [hf]

theorem HasFile.scanEnds {B M : Block} {c : Ctx} (h : HasFile B M n s.lvl c) : HasFile (scanEnds n s B) M n s.lvl (unmatched s c) := by
  unfold Sys2Proof.Machine.scanEnds unmatched
  split
  · exact h.modFile (writeDst_shadow ..)
  · exact h

/-- A long memory operation ends: its progress is 0, its tag is free, and its context goes on (R140). -/
theorem longEnd_hasFile {B M : Block} {c : Ctx} (h : HasFile B M n s.lvl c) (hlong : s.w.isLongMem = true) (hseq : s.w.seq = 0) :
    longEnd n s B = goto n (s.upc + 1) ((untagged (engOf n) s.w.mtag M).setFile n s.lvl (setProgress s.lvl c 0)) := by
  have hcomm : ∀ (g : Eng) (v : Ctx), (unviewEng g v s.lvl).setTag s.w.mtag none = unviewEng (g.setTag s.w.mtag none) v s.lvl :=
    fun g v => by cases s.lvl <;> rfl
  unfold longEnd
  simp only [hlong, if_true, h.2]
  rw [modEng_setFile _ _ _ _ _ hcomm, seqApply_next hseq]

end

section
variable {b : Block} {n : CtxNo} {w : MWord}

theorem longCount_mem {s : Snap} (h : s.w.isLongMem = true) : longCount s = s.b.toNat % 2 ^ 32 := by
  rw [longCount, if_pos h, BitVec.extractLsb'_toNat, Nat.shiftRight_zero]

theorem progDone_eq (x : Word) : progDone x = x.toNat % 2 ^ 32 := by
  rw [progDone, BitVec.extractLsb'_toNat, Nat.shiftRight_zero]

/-- The request goes under its tag in the block with the word's file. -/
theorem takeTag_long_setFile {B : Block} {s : Snap} {c : Ctx} (h : c.tenant = (B.ctx n).tenant) :
    takeTag n s .long (B.setFile n s.lvl c) = (takeTag n s .long B).setFile n s.lvl c := by
  have hp : pendOf (B.setFile n s.lvl c) n s .long = pendOf B n s .long := by
    unfold pendOf reqTenant
    rw [ctx_setFile_same, tenant_unviewCtx, h]
    rfl
  rw [takeTag_eq, takeTag_eq, hp, eng_setFile, if_pos rfl]
  change ({ B with seq := B.seq + 1 }.setFile n s.lvl c).setEng _ _ = _
  simp only [Block.setFile, modEng_eq, eng_setEng_same, setEng_setEng, setCtx_setEng]
  cases s.lvl
  all_goals rfl

theorem requested_long {s : Snap} {B : Block} : requested B n s .long = takeTag n s .long B := requested_eq .long B

/-- The word's next step or its end, with `c` as the file that it finds. -/
theorem wordEffect_longGoes (hlong : w.isLongMem = true) (hseq : w.seq = 0) {c : Ctx} (hshadow : c.shadow = (fileOf b n).shadow)
    (htenant : c.tenant = (b.ctx n).tenant) :
    let s := snapOf b n w none false
    let t := longGoes n s ((selected b n).setFile n (lvlOf b n) (stepOver c))
    if (srcB b n w).toNat % 2 ^ 32 ≤ progDone (progress (lvlOf b n) c) then
      WordEffect b t n (goneTo ((b.ctx n).upc + 1) (setProgress (lvlOf b n) (unmatched s c) 0)) (fun g => g.setTag w.mtag none) (fun v => v) 0
    else WordEffect b t n (heldIn (.longStep s) c) (underTag w.mtag (requestUnder b n w .long)) (fun v => v) 1 := by
  intro s t
  have hfor : FileFor ((selected b n).ctx n) (lvlOf b n) (stepOver c) := fileFor_selected b n _ _ hshadow
  have hword : s.w = w := word_snapOf ..
  have hlong' : s.w.isLongMem = true := hword ▸ hlong
  have hcount : longCount s = (srcB b n w).toNat % 2 ^ 32 := longCount_mem hlong'
  have hdone : progress s.lvl (((selected b n).setFile n (lvlOf b n) (stepOver c)).file n s.lvl) = progress (lvlOf b n) c :=
    (congrArg (progress _) (file_setFile _ _ _ _ hfor)).trans (progress_stepOver ..)
  have ht : t = if (srcB b n w).toNat % 2 ^ 32 ≤ progDone (progress (lvlOf b n) c) then
      longEnd n s (scanEnds n s ((selected b n).setFile n (lvlOf b n) (stepOver c)))
      else stop n (.longStep s) (takeTag n s .long ((selected b n).setFile n (lvlOf b n) (stepOver c))) := by
    simp only [t, longGoes, hcount, hdone]
  rw [ht]
  split
  · rw [longEnd_hasFile (hasFile_setFile hfor).scanEnds hlong' (hword ▸ hseq)]
    rw [unmatched_stepOver, upc_snapOf, snap_lvl, goto_progress]
    exact wordEffect_modEng b n _ _
  · have htake : takeTag n s .long ((selected b n).setFile n (lvlOf b n) (stepOver c)) =
        (requested (selected b n) n s .long).setFile n (lvlOf b n) (stepOver c) := by
      have hten : (stepOver c).tenant = ((selected b n).ctx n).tenant := by rw [ctx_selected]; exact htenant
      rw [requested_long]
      exact takeTag_long_setFile hten
    rw [htake, stop_setFile]
    exact wordEffect_requested hseq .long _

end

end Sys2Proof.Machine

/-! The long memory operations: their issue, and the steps that their banks answer (R132..R142). -/

namespace Sys2Proof.Machine
open Sys2Proof

/-! ### The issue -/

/-- The word holds a long memory operation alone, and its checks let it pass (R79, R107, R134). -/
structure LongAlone (w : MWord) : Prop where
  alone : MemAlone w
  long : w.isLongMem = true
  legal : w.illop = none

section
variable {b : Block} {n : CtxNo} {w : MWord}

/-- A long memory operation writes no base register back (R107). -/
theorem LongAlone.noBase (h : LongAlone w) : ¬ (w.mmode = 1 ∨ w.mmode = 2) := by
  intro hmode
  have hbad : (w.isLongMem && (w.mmode == 1 || w.mmode == 2)) = true := by
    rw [h.long]
    obtain hmode | hmode := hmode <;> rw [hmode] <;> rfl
  have hlegal := h.legal
  unfold MWord.illop at hlegal
  split_ifs at hlegal

theorem LongAlone.isMem (h : LongAlone w) : w.isMem = true := by
  have hlong := h.long
  rw [MWord.isLongMem, decide_eq_true_eq] at hlong
  rw [MWord.isMem, bne_iff_ne]
  intro h0
  rw [h0] at hlong
  exact absurd hlong (by decide)

theorem LongAlone.isLong (h : LongAlone w) : w.isLong = true := by rw [MWord.isLong, h.long, Bool.true_or]

/-- PROG of a long memory operation at an offset (R136). -/
theorem mkProg_longOp {w : MWord} (hlong : w.isLongMem = true) {d : Nat} (hd : d < 2 ^ 32) :
    mkProg w.longOp d = 0x800000000000 ||| w.memop.setWidth 48 <<< 32 ||| BitVec.ofNat 48 d := by
  have hwiden : ∀ op : BitVec 6, (op.setWidth 8).setWidth 48 = op.setWidth 48 := by decide
  rw [mkProg, MWord.longOp, if_pos hlong, hwiden, Nat.mod_eq_of_lt hd]

theorem LongAlone.fresh (h : LongAlone w) : mkProg w.longOp 0 = 0x800000000000 ||| w.memop.setWidth 48 <<< 32 :=
  (mkProg_longOp h.long (by decide)).trans BitVec.or_zero

/-- The word's own W stage leaves the file that its operands leave. -/
theorem wStage_long (ha : LongAlone w) (hcmp : ∀ x ∈ engCmps b (engOf n), x.2.watches (ctxOf n) = false) :
    wStage n (snapOf b n w none false) (selected b n) = quieted b n w := by
  obtain ⟨halu, hl, hx, -⟩ := ha.alone
  have hafx : w.isAfx = false := by rw [MWord.isAfx, halu]; rfl
  have hreq : requestOf (snapOf b n w none false) = none := by simp [requestOf, word_snapOf, hafx, ha.long]
  have hbase : withBase b n w (readFile b n w) = readFile b n w := if_neg ha.noBase
  rw [wStage_quiet (s := snapOf b n w none false) ⟨.inl halu, hl, hx⟩ hreq (unwatched_selected hcmp), quietFile_mem ha.isMem, hbase]
  rfl

theorem setProgress_stepOver (l : Lvl) (c : Ctx) (v : Word) : setProgress l (stepOver c) v = stepOver (setProgress l c v) := by
  unfold setProgress
  split <;> rfl

/-- The word performs: resumed, it goes on; afresh, it gives up its level's groups and its progress is 0 (R137, R278). -/
theorem perform_long (ha : LongAlone w) (hcmp : ∀ x ∈ engCmps b (engOf n), x.2.watches (ctxOf n) = false) :
    let s := snapOf b n w none false
    perform n s (selected b n) = if resumes (fileOf b n) (lvlOf b n) w then longGoes n s (noteEarly n s (selected b n))
      else longGoes n s ((releaseOwn (fun x => x == lvlOf b n) n (selected b n)).setFile n (lvlOf b n)
        (stepOver (setProgress (lvlOf b n) (readFile b n w) (mkProg w.longOp 0)))) := by
  intro s
  unfold perform longIssue
  simp only [s, snap_lvl, word_snapOf, resumes_selected, ha.isLong, ha.long, if_true, wStage_long ha hcmp]
  cases resumes (fileOf b n) (lvlOf b n) w
  · simp only [Bool.not_false, if_true, modFile_released_quieted, setProgress_stepOver]
    rfl
  · rfl

theorem snapOf_releaseOwn (p : Lvl → Bool) : snapOf (releaseOwn p n b) n w none false = snapOf b n w none false := by
  rw [releaseOwn_self]
  rfl

theorem srcB_releaseOwn (p : Lvl → Bool) : srcB (releaseOwn p n b) n w = srcB b n w := by
  rw [releaseOwn_self]
  rfl

theorem requestUnder_releaseOwn (p : Lvl → Bool) (k : PendKind) : requestUnder (releaseOwn p n b) n w k = requestUnder b n w k := by
  rw [releaseOwn_self]
  rfl

theorem shadow_readFile : (readFile b n w).shadow = (fileOf b n).shadow := rfl
theorem tenant_setProgress (l : Lvl) (c : Ctx) (v : Word) : (setProgress l c v).tenant = c.tenant := by
  unfold setProgress
  split <;> rfl

theorem tenant_readFile : (readFile b n w).tenant = (b.ctx n).tenant := tenant_file b n _

/-- The level of privilege of the word is that of the file that it leaves. -/
theorem priv_readFile : (snapOf b n w none false).priv = statPriv (readFile b n w).stat := by
  have hbit : (readFile b n w).stat.getLsbD 16 = (fileOf b n).stat.getLsbD 16 :=
    (getLsbD_putBit _ _ _ _ (by decide)).trans (if_neg (by decide))
  rw [statPriv, hbit]
  exact Bool.or_false _

/-- A fresh start, in the block in which its level holds no group (R136, R278). -/
theorem wordEffect_started (ha : LongAlone w) :
    let s := snapOf b n w none false
    let l := lvlOf b n
    let c := setProgress l (readFile b n w) (mkProg w.longOp 0)
    let B := releaseOwn (fun x => x == l) n b
    let t := longGoes n s ((releaseOwn (fun x => x == l) n (selected b n)).setFile n l (stepOver c))
    if (srcB b n w).toNat % 2 ^ 32 ≤ 0 then
      WordEffect B t n (goneTo ((b.ctx n).upc + 1) (setProgress l (unmatched s (readFile b n w)) 0)) (fun g => g.setTag w.mtag none) (fun v => v) 0
    else WordEffect B t n (heldIn (.longStep s) c) (underTag w.mtag (requestUnder b n w .long)) (fun v => v) 1 := by
  intro s l c B t
  have hctx : B.ctx n = b.ctx n := ctx_releaseOwn n
  have hlvl : lvlOf B n = l := congrArg Ctx.lvl hctx
  have hfile : fileOf B n = fileOf b n := by rw [fileOf, hlvl]; exact file_releaseOwn
  have hsrc : srcB B n w = srcB b n w := srcB_releaseOwn _
  have hshadow : c.shadow = (fileOf B n).shadow := by rw [hfile]; exact shadow_setProgress ..
  have htenant : c.tenant = (B.ctx n).tenant := by rw [hctx]; exact (tenant_setProgress ..).trans tenant_readFile
  have hsnap : snapOf B n w none false = s := snapOf_releaseOwn _
  have hreq : requestUnder B n w .long = requestUnder b n w .long := requestUnder_releaseOwn ..
  have hsel : selected B n = releaseOwn (fun x => x == l) n (selected b n) := selected_releaseOwn
  have hgoes := wordEffect_longGoes ha.long ha.alone.2.2.2 hshadow htenant
  clear_value B
  simp only [hlvl, hsrc, hctx, hsnap, hreq, hsel] at hgoes
  simp only [c, progress_setProgress, progDone_fresh, setProgress_unmatched] at hgoes
  exact hgoes

end

section
variable {t v : Block} {n : CtxNo} {s : Snap}

theorem Agree.file (h : Agree t v) (l : Lvl) : t.file n l = v.file n l := file_congr (h.2.1 n) (h.2.2 _) l

theorem Agree.modFile (h : Agree t v) (l : Lvl) (f : Ctx → Ctx) : Agree (t.modFile n l f) (v.modFile n l f) := by
  unfold Block.modFile Block.setFile
  rw [h.file, h.2.1]
  exact (h.modEng _ _).setCtx _ _

theorem Agree.takeTag (h : Agree t v) (k : PendKind) : Agree (takeTag n s k t) (takeTag n s k v) := by
  obtain ⟨hframe, hctx, heng⟩ := id h
  have hpend : pendOf t n s k = pendOf v n s k := by
    unfold pendOf
    rw [hctx, hframe]
  rw [takeTag_eq, takeTag_eq, hpend, heng]
  have hup : Agree { t with seq := t.seq + 1 } { v with seq := v.seq + 1 } := ⟨by rw [hframe], hctx, heng⟩
  exact hup.setEng _ _

theorem Agree.longGoes (h : Agree t v) (hseq : s.w.seq = 0) : Agree (longGoes n s t) (longGoes n s v) := by
  have hscan : Agree (scanEnds n s t) (scanEnds n s v) := by
    unfold scanEnds
    split
    · exact h.modFile ..
    · exact h
  have hend : Agree (longEnd n s (scanEnds n s t)) (longEnd n s (scanEnds n s v)) := by
    unfold longEnd
    dsimp only
    rw [seqApply_next hseq, seqApply_next hseq]
    refine Agree.modCtx ?_ n _
    split
    · exact (hscan.modFile ..).modEng ..
    · exact hscan.modFile ..
  unfold Sys2Proof.Machine.longGoes
  rw [h.file]
  split
  · exact hend
  · exact (h.takeTag .long).modCtx n _

end

section
variable {b : Block} {n : CtxNo} {w : MWord}

/-- A resumption goes on at the bytes done (R137). -/
theorem wordEffect_resumed (ha : LongAlone w) :
    let s := snapOf b n w none false
    let l := lvlOf b n
    let c := readFile b n w
    let t := longGoes n s (noteEarly n s (selected b n))
    if (srcB b n w).toNat % 2 ^ 32 ≤ progDone (progress l c) then
      WordEffect b t n (goneTo ((b.ctx n).upc + 1) (setProgress l (unmatched s c) 0)) (fun g => g.setTag w.mtag none) (fun v => v) 0
    else WordEffect b t n (heldIn (.longStep s) c) (underTag w.mtag (requestUnder b n w .long)) (fun v => v) 1 := by
  intro s l c t
  have hagree : Agree t _ := (agree_quieted b n w).longGoes (s := s) ha.alone.2.2.2
  have hgoes := wordEffect_longGoes ha.long ha.alone.2.2.2 (shadow_readFile (b := b) (n := n) (w := w)) tenant_readFile
  dsimp only at hgoes
  split
  · next hdone => rw [if_pos hdone] at hgoes; exact hgoes.of_agree hagree
  · next hdone => rw [if_neg hdone] at hgoes; exact hgoes.of_agree hagree

end

section
variable {b : Block} {n : CtxNo} {w : MWord}

theorem unmatched_readFile : unmatched (snapOf b n w none false) (readFile b n w) =
    if w.memop = 0x24 then writeDst (statPriv (readFile b n w).stat) (readFile b n w) w.dst 0xFFFFFFFFFFFF else readFile b n w := by
  rw [unmatched, word_snapOf, priv_readFile]

/-- A long memory word starts, goes on where its level's progress names it, or ends (R134, R136, R137). -/
theorem wordEffect_long (ha : LongAlone w) (hcmp : ∀ x ∈ engCmps b (engOf n), x.2.watches (ctxOf n) = false) :
    let s := snapOf b n w none false
    let l := lvlOf b n
    let c := readFile b n w
    let again := resumes (fileOf b n) l w
    let B := if again then b else releaseOwn (fun x => x == l) n b
    let done := if again then (progress l c).toNat % 2 ^ 32 else 0
    if (srcB b n w).toNat % 2 ^ 32 ≤ done then
      WordEffect B (perform n s (selected b n)) n (goneTo ((b.ctx n).upc + 1) (setProgress l (unmatched s c) 0)) (fun g => g.setTag w.mtag none)
        (fun v => v) 0
    else WordEffect B (perform n s (selected b n)) n (heldIn (.longStep s) (if again then c else setProgress l c (mkProg w.longOp 0)))
      (underTag w.mtag (requestUnder b n w .long)) (fun v => v) 1 := by
  intro s l c again B done
  have hperform := perform_long ha hcmp
  cases hagain : again
  · have hrun : perform n s (selected b n) = _ := hperform.trans (if_neg (by rw [show resumes _ _ _ = false from hagain]; decide))
    simp only [B, done, hagain, hrun, Bool.false_eq_true, if_false]
    exact wordEffect_started ha
  · have hrun : perform n s (selected b n) = _ := hperform.trans (if_pos hagain)
    simp only [B, done, hagain, hrun, if_true, ← progDone_eq]
    exact wordEffect_resumed ha

end

/-- The row of a long memory operation's code issues it. -/
theorem exec_long {e : EngId} {k : CtxId} {w : MWord} {i : Instr}
    (h : w.memop = 0x20 ∧ i = .move e k ∨ w.memop = 0x21 ∧ i = .fill e k ∨ w.memop = 0x22 ∧ i = .cksum16 e k ∨
      w.memop = 0x23 ∧ i = .ckcrc e k ∨ w.memop = 0x24 ∧ i = .scan e k) (s : State) :
    ∃ p : MWord → Bool, p w = true ∧ exec i s = atTurn (turnOf i) (issueAs p (ctxNo e k)) s := by
  obtain ⟨hm, rfl⟩ | ⟨hm, rfl⟩ | ⟨hm, rfl⟩ | ⟨hm, rfl⟩ | ⟨hm, rfl⟩ := h
  · exact ⟨rowMove, by simp [rowMove, hm], rfl⟩
  · exact ⟨rowFill, by simp [rowFill, hm], rfl⟩
  · exact ⟨rowCksum16, by simp [rowCksum16, hm], rfl⟩
  · exact ⟨rowCkcrc, by simp [rowCkcrc, hm], rfl⟩
  · exact ⟨rowScan, by simp [rowScan, hm], rfl⟩

theorem isLongMem_of_code {w : MWord} (h : w.memop = 0x20 ∨ w.memop = 0x21 ∨ w.memop = 0x22 ∨ w.memop = 0x23 ∨ w.memop = 0x24) :
    w.isLongMem = true := by
  obtain h | h | h | h | h := h
  all_goals simp [MWord.isLongMem, h]

end Sys2Proof.Machine

/-! The steps that the banks of a long memory operation answer (R132, R133, R138, R142). -/

namespace Sys2Proof.Machine
open Sys2Proof

/-! ### What a step reads and writes leaves the contexts, the engines and the clusters (R224, R233, R240) -/

/-- The same contexts, engines and clusters. -/
structure SameParts (b m : Block) : Prop where
  ctxs : m.ctxs = b.ctxs
  engs : m.engs = b.engs
  clus : m.clus = b.clus

section
variable {a b m : Block} {n : CtxNo}

theorem SameParts.trans (h : SameParts a b) (h' : SameParts b m) : SameParts a m :=
  ⟨h'.ctxs.trans h.ctxs, h'.engs.trans h.engs, h'.clus.trans h.clus⟩

theorem SameParts.ctx (h : SameParts b m) (x : CtxNo) : m.ctx x = b.ctx x := by rw [Block.ctx, Block.ctx, h.ctxs]
theorem SameParts.eng (h : SameParts b m) (x : EngId) : m.eng x = b.eng x := by rw [Block.eng, Block.eng, h.engs]
theorem SameParts.file (h : SameParts b m) (l : Lvl) : m.file n l = b.file n l := file_congr (h.ctx n) (h.eng _) l

theorem SameParts.engCmps (h : SameParts b m) (e : EngId) : engCmps m e = engCmps b e :=
  engCmps_congr (by rw [h.eng]) (by rw [Block.clu, Block.clu, h.clus])

theorem sameParts_rangeArrive (n : CtxNo) (r : Snap) (wr : Bool) (x : Word) (len : Nat) (ls : List Nat) (ecc : Ecc) (b : Block) :
    SameParts b (rangeArrive n r wr x len ls ecc b) := by
  have harrive := linesRead_arrive b (reqTenant (b.ctx n) r.lvl) (!wr) wr x.toNat len ls ecc
  unfold rangeArrive
  split
  · exact ⟨rfl, rfl, rfl⟩
  · rw [harrive]
    exact ⟨rfl, rfl, rfl⟩

theorem sameParts_portARead (x len : Nat) (b : Block) : SameParts b (portARead x len b).1 := by
  rw [touched_portARead]
  exact ⟨rfl, rfl, rfl⟩

theorem sameParts_bankWrite (n : CtxNo) (x : Nat) (l : List Byte) (b : Block) : SameParts b (bankWrite n x l b) := by
  rw [bankWrite_frame]
  exact ⟨rfl, rfl, rfl⟩

theorem dataCmps_unwatched {s : Snap} {rd wr : Bool} {x len : Nat} (h : SameParts b m)
    (hcmp : ∀ x ∈ engCmps b (engOf n), x.2.watches (ctxOf n) = false) : dataCmps n s rd wr x len m = m := by
  rw [← h.engCmps] at hcmp
  unfold dataCmps
  simp only [matching_nil hcmp, fire_nil, ite_self]

end

theorem length_portARead (a k : Nat) (b : Block) : (portARead a k b).2.length = k := by
  unfold portARead
  dsimp only
  split
  · rw [readBytes, List.length_map, List.length_range]
  · rw [List.length_map, List.length_range]

/-! ### The search (R142) -/

theorem nth_eq_getD {α : Type} (d : α) (l : List α) (i : Nat) : nth d l i = l[i]?.getD d := by
  induction l generalizing i with
  | nil => rfl
  | cons x xs ih =>
    cases i with
    | zero => rfl
    | succ i => exact (ih i).trans (congrArg (fun o => o.getD d) List.getElem?_cons_succ.symm)

theorem nth_beq_iff {α : Type} [BEq α] [LawfulBEq α] {d x : α} {l : List α} {i : Nat} (hi : i < l.length) :
    (nth d l i == x) = true ↔ l[i]? = some x := by
  rw [nth_eq_getD, List.getElem?_eq_getElem hi, Option.getD_some, beq_iff_eq, Option.some_inj]

section
variable {d x : Byte} {l : List Byte} {k : Nat}

/-- No byte of the step is the one that is sought. -/
theorem find_none (hk : l.length = k) (h : x ∉ l) : (List.range k).find? (fun i => nth d l i == x) = none := by
  rw [List.find?_range_eq_none]
  intro i hi
  rw [Bool.not_eq_true']
  refine Bool.eq_false_iff.2 fun hbeq => h (List.mem_iff_getElem?.2 ⟨i, ?_⟩)
  exact (nth_beq_iff (hk ▸ hi)).1 hbeq

/-- The first byte of the step that is the one that is sought. -/
theorem find_first {j : Nat} (hk : l.length = k) (h : l[j]? = some x) (hfirst : x ∉ l.take j) :
    (List.range k).find? (fun i => nth d l i == x) = some j := by
  obtain ⟨hj, -⟩ := List.getElem?_eq_some_iff.1 h
  rw [List.find?_range_eq_some]
  refine ⟨(nth_beq_iff hj).2 h, List.mem_range.2 (hk ▸ hj), fun i hi => ?_⟩
  rw [Bool.not_eq_true']
  refine Bool.eq_false_iff.2 fun hbeq => hfirst (List.mem_iff_getElem?.2 ⟨i, ?_⟩)
  rw [List.getElem?_take_of_lt hi]
  exact (nth_beq_iff (hi.trans hj)).1 hbeq

end

/-! ### The end of a step (R136, R138, R140) -/

/-- The file of a context whose instruction has ended (R140). -/
def endedFile (r : Snap) (c : Ctx) : Ctx := { setProgress r.lvl c 0 with upc := r.upc + 1, act := .idle }

/-- The file of a context between two steps (R136, R138). -/
def steppedFile (r : Snap) (stop : Nat) (c : Ctx) : Ctx :=
  { setProgress r.lvl c (0x800000000000 ||| r.w.memop.setWidth 48 <<< 32 ||| BitVec.ofNat 48 stop) with act := .longNext r }

/-- From block `m` to `t` the instruction of block `b` has ended, with `c` as its context's file but for its progress. -/
def Ended (b m t : Block) (n : CtxNo) (r : Snap) (c : Ctx) : Prop :=
  OnlyParts m t n (unviewCtx (b.ctx n) (endedFile r c) r.lvl) (unviewEng ((b.eng (engOf n)).setTag r.w.mtag none) (endedFile r c) r.lvl)

/-- From block `m` to `t` the step of block `b` that ends at offset `stop` is done. -/
def Stepped (b m t : Block) (n : CtxNo) (r : Snap) (stop : Nat) (c : Ctx) : Prop :=
  if r.b.toNat % 2 ^ 32 ≤ stop then Ended b m t n r c
  else OnlyParts m t n (unviewCtx (b.ctx n) (steppedFile r stop c) r.lvl) (unviewEng (b.eng (engOf n)) (steppedFile r stop c) r.lvl)

section
variable {b m B : Block} {n : CtxNo} {r : Snap} {c : Ctx}

theorem longEnd_ended (hm : SameParts b m) (h : HasFile B m n r.lvl c) (hlong : r.w.isLongMem = true) (hseq : r.w.seq = 0) :
    Ended b m (longEnd n r B) n r c := by
  rw [longEnd_hasFile h hlong hseq, goto_setFile]
  obtain ⟨hframe, hctx, heng⟩ := onlyParts_setFile (untagged (engOf n) r.w.mtag m) n r.lvl (endedFile r c)
  have hother : ∀ x, x ≠ engOf n → (untagged (engOf n) r.w.mtag m).eng x = m.eng x := fun x hx => by
    rw [untagged, modEng_eq, eng_setEng, if_neg hx]
  have hown : (untagged (engOf n) r.w.mtag m).eng (engOf n) = (b.eng (engOf n)).setTag r.w.mtag none := by
    rw [untagged, modEng_eq, eng_setEng_same, hm.eng]
  refine ⟨hframe, fun x => ?_, fun x => ?_⟩
  · rw [← hm.ctx]
    exact hctx x
  · rw [← hown]
    refine (heng x).trans ?_
    split
    · rfl
    · next hx => exact hother x hx

theorem stepDone_stepped (hm : SameParts b m) (h : HasFile B m n r.lvl c) (hlong : r.w.isLongMem = true) (hseq : r.w.seq = 0)
    (stop : Nat) : Stepped b m (stepDone n r stop B) n r stop c := by
  have hcount : longCount r = r.b.toNat % 2 ^ 32 := longCount_mem hlong
  unfold Stepped stepDone
  rw [hcount]
  split
  · have hend := longEnd_ended hm (h.modFile (f := fun c => setProgress r.lvl c (mkProg r.w.longOp stop)) (shadow_setProgress ..)) hlong hseq
    rw [Ended, endedFile, setProgress_setProgress] at hend
    exact hend
  · next hmore =>
    have hd : stop < 2 ^ 32 := (Nat.lt_of_not_le hmore).trans (Nat.mod_lt _ (by decide))
    rw [h.2, stop_setFile, mkProg_longOp hlong hd, ← hm.ctx, ← hm.eng]
    exact onlyParts_setFile ..

end

/-! ### The steps (R138) -/

/-- A step from offset `done` to offset `stop` whose turn at its banks has come, and that no comparator watches. -/
structure StepDue (b : Block) (n : CtxNo) (r : Snap) (done stop : Nat) : Prop where
  act : (b.ctx n).act = .longStep r
  long : r.w.isLongMem = true
  next : r.w.seq = 0
  first : bankBehind b (engOf n) r.seq (stepBanks b n r) = false
  unwatched : ∀ x ∈ engCmps b (engOf n), x.2.watches (ctxOf n) = false
  span : stepSpan b n r = (done, stop)

theorem stepSpan_eq {b : Block} {n : CtxNo} {r : Snap} (hlong : r.w.isLongMem = true) :
    let done := (progress r.lvl (b.file n r.lvl)).toNat % 2 ^ 32
    stepSpan b n r = (done, min ((done / 64 + 1) * 64) (r.b.toNat % 2 ^ 32)) := by
  unfold stepSpan
  rw [longCount_mem hlong, progDone_eq]

/-- The lines that a step reads, and those that it merges its bytes into (R231). -/
abbrev stepReads (n : CtxNo) (r : Snap) (len : Nat) (a : Word) (ecc : Ecc) (b : Block) : Block :=
  rangeArrive n r false a len (rowLines a.toNat len) ecc b
abbrev stepMerges (n : CtxNo) (r : Snap) (len : Nat) (a : Word) (ecc : Ecc) (b : Block) : Block :=
  rangeArrive n r true a len (mergeLines true a.toNat len) ecc b

section
variable {b : Block} {n : CtxNo} {r : Snap} {done stop : Nat} {ecc : Ecc}

theorem hasFile_same {m : Block} (h : SameParts b m) : HasFile m m n r.lvl (b.file n r.lvl) := by
  rw [← h.file]
  exact hasFile_self ..

/-- MOVE reads its source before it writes (R142). -/
theorem opLongStepEnd_move (h : StepDue b n r done stop) (hop : r.w.memop = 0x20) :
    let len := stop - done
    let src := r.a + BitVec.ofNat 48 done
    let dst := r.ea + BitVec.ofNat 48 done
    let v := stepReads n r len src ecc b
    let m := stepMerges n r len dst (ecc.from (rowLines src.toNat len).length) v
    let y := portARead src.toNat len m
    rangeFault v n r false src len = none → rangeFault m n r true dst len = none →
    Stepped b (bankWrite n dst.toNat y.2 y.1) (opLongStepEnd n ecc b) n r stop (b.file n r.lvl) := by
  intro len src dst v m y hrd hwr
  have hcode : r.w.memop.toNat = 0x20 := by rw [hop]; rfl
  have hv : SameParts b v := sameParts_rangeArrive ..
  have hm : SameParts b m := hv.trans (sameParts_rangeArrive ..)
  have hy : SameParts b (bankWrite n dst.toNat y.2 y.1) := (hm.trans (sameParts_portARead ..)).trans (sameParts_bankWrite ..)
  have hreads : dataCmps n r true false src.toNat len v = v := dataCmps_unwatched hv h.unwatched
  have hwrites : dataCmps n r false true dst.toNat len (bankWrite n dst.toNat y.2 y.1) = bankWrite n dst.toNat y.2 y.1 :=
    dataCmps_unwatched hy h.unwatched
  have hstep : opLongStepEnd n ecc b = stepDone n r stop (bankWrite n dst.toNat y.2 y.1) := by
    rw [← hwrites]
    simp only [len, src, dst, v, m] at hreads hrd hwr
    unfold opLongStepEnd
    simp only [h.act, h.first, h.span, hcode, hreads, hrd, hwr, ite_self, Option.bind_some, Option.map_none, Option.map_some, Option.getD_some,
      Bool.false_eq_true, if_false]
    rfl
  rw [hstep]
  exact stepDone_stepped hy (hasFile_same hy) h.long h.next stop

/-- FILL writes its pattern from its offset (R142). -/
theorem opLongStepEnd_fill (h : StepDue b n r done stop) (hop : r.w.memop = 0x21) :
    let len := stop - done
    let dst := r.ea + BitVec.ofNat 48 done
    let m := stepMerges n r len dst (ecc.from 0) b
    let l := (List.range len).map (fun i => r.a.extractLsb' (8 * ((done + i) % 6)) 8)
    rangeFault m n r true dst len = none →
    Stepped b (bankWrite n dst.toNat l m) (opLongStepEnd n ecc b) n r stop (b.file n r.lvl) := by
  intro len dst m l hwr
  have hcode : r.w.memop.toNat = 0x21 := by rw [hop]; rfl
  have hm : SameParts b m := sameParts_rangeArrive ..
  have hy : SameParts b (bankWrite n dst.toNat l m) := hm.trans (sameParts_bankWrite ..)
  have hwrites : dataCmps n r false true dst.toNat len (bankWrite n dst.toNat l m) = bankWrite n dst.toNat l m :=
    dataCmps_unwatched hy h.unwatched
  have hstep : opLongStepEnd n ecc b = stepDone n r stop (bankWrite n dst.toNat l m) := by
    rw [← hwrites]
    simp only [len, dst, m] at hwr
    unfold opLongStepEnd
    simp only [h.act, h.first, h.span, hcode, hwr, Option.bind_none, Option.bind_some, Option.map_none, Option.getD_none, List.length_nil,
      Bool.false_eq_true, if_false]
    rfl
  rw [hstep]
  exact stepDone_stepped hy (hasFile_same hy) h.long h.next stop

/-- What CKSUM16, CKCRC and SCAN do with the bytes that a step has read (R132, R133, R142). -/
def answered (n : CtxNo) (r : Snap) (done stop : Nat) (x : Block × List Byte) : Block :=
  if r.w.memop = 0x22 then
    stepDone n r stop (x.1.modFile n r.lvl (fun c => writeAcc c r.w.dst (cksumBytes (accOf c r.w.dst) done x.2)))
  else if r.w.memop = 0x23 then
    stepDone n r stop (x.1.modFile n r.lvl (fun c => writeAcc c r.w.dst (x.2.foldl crcStep (accOf c r.w.dst))))
  else ((List.range (stop - done)).find? (fun i => nth 0 x.2 i == r.a.extractLsb' 0 8)).elim
    (stepDone n r stop (if longCount r ≤ stop then scanEnds n r x.1 else x.1))
    (fun i => longEnd n r (x.1.modFile n r.lvl (fun c => writeDst r.priv c r.w.dst (BitVec.ofNat 48 (done + i)))))

theorem opLongStepEnd_reads (h : StepDue b n r done stop) (hop : r.w.memop = 0x22 ∨ r.w.memop = 0x23 ∨ r.w.memop = 0x24) :
    let len := stop - done
    let dst := r.ea + BitVec.ofNat 48 done
    let v := stepReads n r len dst ecc b
    rangeFault v n r false dst len = none → opLongStepEnd n ecc b = answered n r done stop (portARead dst.toNat len v) := by
  intro len dst v hrd
  have hreads : dataCmps n r true false dst.toNat len v = v := dataCmps_unwatched (sameParts_rangeArrive ..) h.unwatched
  simp only [len, dst, v] at hreads hrd
  obtain hop | hop | hop := hop
  all_goals
    unfold opLongStepEnd
    simp only [h.act, h.first, h.span, hreads, hrd, ite_self, Option.bind_none, Option.bind_some, Option.map_none, Bool.false_eq_true,
      if_false, answered, hop, BitVec.reduceToNat, BitVec.reduceEq, if_true]
  · rfl
  · rfl
  · cases (List.range (stop - done)).find? (fun i => nth 0 (portARead dst.toNat len v).2 i == r.a.extractLsb' 0 8) <;> rfl

variable {m : Block} {x : Block × List Byte}

/-- The word's result goes to DST, and the step is done. -/
theorem stepped_modFile (h : StepDue b n r done stop) (hm : SameParts b m) (f : Ctx → Ctx) (hf : ∀ c, (f c).shadow = c.shadow) :
    Stepped b m (stepDone n r stop (m.modFile n r.lvl f)) n r stop (f (b.file n r.lvl)) :=
  stepDone_stepped hm ((hasFile_same hm).modFile (hf _)) h.long h.next stop

theorem answered_cksum (h : StepDue b n r done stop) (hop : r.w.memop = 0x22) (hx : SameParts b x.1) :
    Stepped b x.1 (answered n r done stop x) n r stop
      (writeAcc (b.file n r.lvl) r.w.dst (cksumBytes (accOf (b.file n r.lvl) r.w.dst) done x.2)) := by
  rw [answered, if_pos hop]
  exact stepped_modFile h hx (fun c => writeAcc c r.w.dst (cksumBytes (accOf c r.w.dst) done x.2)) fun _ => rfl

theorem answered_ckcrc (h : StepDue b n r done stop) (hop : r.w.memop = 0x23) (hx : SameParts b x.1) :
    Stepped b x.1 (answered n r done stop x) n r stop
      (writeAcc (b.file n r.lvl) r.w.dst (x.2.foldl crcStep (accOf (b.file n r.lvl) r.w.dst))) := by
  rw [answered, if_neg (by rw [hop]; decide), if_pos hop]
  exact stepped_modFile h hx (fun c => writeAcc c r.w.dst (x.2.foldl crcStep (accOf c r.w.dst))) fun _ => rfl

theorem answered_scan (hop : r.w.memop = 0x24) : answered n r done stop x =
    ((List.range (stop - done)).find? (fun i => nth 0 x.2 i == r.a.extractLsb' 0 8)).elim
      (stepDone n r stop (if longCount r ≤ stop then scanEnds n r x.1 else x.1))
      (fun i => longEnd n r (x.1.modFile n r.lvl (fun c => writeDst r.priv c r.w.dst (BitVec.ofNat 48 (done + i))))) := by
  rw [answered, if_neg (by rw [hop]; decide), if_neg (by rw [hop]; decide)]

/-- SCAN goes on where no byte matches, and writes all ones at its end (R142). -/
theorem answered_scan_none (h : StepDue b n r done stop) (hop : r.w.memop = 0x24) (hx : SameParts b x.1) (hlen : x.2.length = stop - done)
    (hnot : r.a.extractLsb' 0 8 ∉ x.2) :
    Stepped b x.1 (answered n r done stop x) n r stop
      (if r.b.toNat % 2 ^ 32 ≤ stop then writeDst r.priv (b.file n r.lvl) r.w.dst 0xFFFFFFFFFFFF else b.file n r.lvl) := by
  rw [answered_scan hop, find_none hlen hnot, Option.elim_none, longCount_mem h.long]
  split
  · rw [scanEnds, if_pos hop]
    exact stepped_modFile h hx _ fun _ => writeDst_shadow ..
  · exact stepDone_stepped hx (hasFile_same hx) h.long h.next stop

/-- SCAN ends at its first match, whose offset it writes (R142). -/
theorem answered_scan_found (h : StepDue b n r done stop) (hop : r.w.memop = 0x24) (hx : SameParts b x.1) (hlen : x.2.length = stop - done)
    {j : Nat} (hj : x.2[j]? = some (r.a.extractLsb' 0 8)) (hfirst : r.a.extractLsb' 0 8 ∉ x.2.take j) :
    Ended b x.1 (answered n r done stop x) n r (writeDst r.priv (b.file n r.lvl) r.w.dst (BitVec.ofNat 48 (done + j))) := by
  rw [answered_scan hop, find_first hlen hj hfirst, Option.elim_some]
  exact longEnd_ended hx ((hasFile_same hx).modFile (writeDst_shadow ..)) h.long h.next

end

/-- Settles O22: the issue by `wordEffect_long`, and each step by what it does with the bytes that its banks answer
(`opLongStepEnd_move`, `opLongStepEnd_fill`, `opLongStepEnd_reads`). -/
theorem longOperationsRunStepByStepThroughProg : Obligations.LongOperationsRunStepByStepThroughProg := by
  unfold Obligations.LongOperationsRunStepByStepThroughProg
  refine ⟨?issue, ?step⟩
  case issue =>
    intro s e k w i n v hfetch hcond hfault halu hlane hxfer hseq hcode l c again b done c1
    have hop : w.memop = 0x20 ∨ w.memop = 0x21 ∨ w.memop = 0x22 ∨ w.memop = 0x23 ∨ w.memop = 0x24 :=
      hcode.imp And.left (Or.imp And.left (Or.imp And.left (Or.imp And.left And.left)))
    have hlegal := illop_of_no_fault hfault
    rw [word_snapOf] at hlegal
    have ha : LongAlone w := ⟨⟨halu, hlane, hxfer, hseq⟩, isLongMem_of_code hop, hlegal⟩
    obtain ⟨p, hp, hexec⟩ := exec_long hcode s
    obtain ⟨-, -, -, -, hcmp⟩ := id hfetch
    have heff := wordEffect_long ha (unwatched_dropTag hcmp)
    dsimp only at heff
    rw [unmatched_readFile, ha.fresh, ctx_dropTag, ← issueAs_dropped hfetch hcond hfault (by rw [hseq]; decide) p hp] at heff
    exact gives_of_exec hexec heff
  case step =>
    intro s e k r n c count done stop len src dst hact hlong hseq hfirst hcmp Ended' Stepped' reads merges
    have he : engOf n = e := engOf_ctxNo e k
    have hdue : StepDue s.blk n r done stop :=
      ⟨hact, hlong, hseq, he ▸ hfirst, by rw [he, show ctxOf n = k from ctxOf_ctxNo e k]; exact hcmp, stepSpan_eq hlong⟩
    have hended : ∀ {m t c'}, Ended s.blk m t n r c' → Ended' m t c' := fun h => by rw [Ended, he] at h; exact h
    have hstepped : ∀ {m t c'}, Stepped s.blk m t n r stop c' → Stepped' m t c' := fun h => by rw [Stepped, Ended, he] at h; exact h
    refine ⟨?move, ?fill, ?reads⟩
    case move =>
      intro ecc hop m hrd hwr
      exact gives_of_exec rfl (hstepped (opLongStepEnd_move hdue hop hrd hwr))
    case fill =>
      intro ecc hop m hwr
      exact gives_of_exec rfl (hstepped (opLongStepEnd_fill hdue hop hwr))
    case reads =>
      intro ecc hrd x bytes
      have hx : SameParts s.blk x.1 := (sameParts_rangeArrive ..).trans (sameParts_portARead ..)
      have hlen : bytes.length = len := length_portARead ..
      have hrun (hop : r.w.memop = 0x22 ∨ r.w.memop = 0x23 ∨ r.w.memop = 0x24) : opLongStepEnd n ecc s.blk = answered n r done stop x :=
        opLongStepEnd_reads hdue hop hrd
      refine ⟨fun hop => ?cksum, fun hop => ?ckcrc, fun hop hnot => ?none, fun j hop hj hnot => ?found⟩
      case cksum =>
        refine gives_of_exec rfl (hstepped ?_)
        rw [hrun (.inl hop)]
        exact answered_cksum hdue hop hx
      case ckcrc =>
        refine gives_of_exec rfl (hstepped ?_)
        rw [hrun (.inr (.inl hop))]
        exact answered_ckcrc hdue hop hx
      case none =>
        refine gives_of_exec rfl (hstepped ?_)
        rw [hrun (.inr (.inr hop))]
        exact answered_scan_none hdue hop hx hlen hnot
      case found =>
        refine gives_of_exec rfl (hended ?_)
        rw [hrun (.inr (.inr hop))]
        exact answered_scan_found hdue hop hx hlen hj hnot

end Sys2Proof.Machine
